-- ==== Sys2Proof/Word.lean ====
section
/-!
DEFINITION. Sys2Proof/Word.lean: the word types of the Nguvel instruction set (spec/03, R62, R68; spec/00, R4) and
nothing else: a 64-bit scalar word, a byte, an instruction halfword and the register numbers a chain carries.
-/
namespace Sys2Proof

/-- The 64-bit contents of an `x` register (R62). -/
abbrev Word := BitVec 64

/-- One byte of storage (R4). -/
abbrev Byte := BitVec 8

/-- One instruction halfword (R68). -/
abbrev Half := BitVec 16

/-- A 5-bit register field: an `x` or a `v` register (R63). -/
abbrev Reg := BitVec 5

/-- The number of a `k` register, or of a predicate, whose field has bit 4 clear (R63). -/
abbrev Reg4 := BitVec 4

/-- A 256-bit key register: four 64-bit words, word 0 lowest (R62, R299). -/
abbrev Key := BitVec 256

end Sys2Proof
end

