-- ==== Sys2Proof/Syntax.lean ====
section
/-! DEFINITION. Sys2Proof/Syntax.lean: the whole instruction syntax: one operand structure for each operand class of
spec/03 R76, and the one inductive `Instr` with a constructor for every row of spec/opcode_table.json.

An instruction's constructor is followed by its header (the wait marker and the number of halfwords of its chain, R68,
R70, R158) and by the operands of its class. A row of the table that is an event (a step of the hardware that no
chain names) carries plain numbers: the handle of the agent, satellite, packet or unit that takes the step. -/

namespace Sys2Proof

/-- What every chain carries beside its operands: the wait marker of the base word (R68, R88), and how many halfwords
the chain has (R70): the program counter advances by twice that (R158). -/
structure Hdr where
  wait : Bool
  len  : Nat
  deriving DecidableEq, Repr

/-- An immediate as a chain carries it: the IMM payloads in chain order and the five bits of the B field (R72). -/
structure Imm where
  ws  : List Byte
  low : BitVec 5
  deriving DecidableEq, Repr

/-- A B field that is a register, or with an IMM prefix the low bits of an immediate (R72). -/
inductive RegImm where
  | reg (r : Reg)
  | imm (i : Imm)
  deriving DecidableEq, Repr

/-- The payload of an EXT prefix: bits [7:5] (width, scope, selector or operation) and the C field (R69). -/
structure Ext where
  sel : BitVec 3
  c   : Reg
  deriving DecidableEq, Repr

/-- The payload of a MASK prefix: speculate, zeroing, invert and the predicate, 15 for all (R69, R74). -/
structure Mask where
  spec : Bool
  zero : Bool
  inv  : Bool
  pred : Reg4
  deriving DecidableEq, Repr

/-- Class RRI: destination A; xT or immediate; EXT names the first source xS. -/
structure RRI where
  a : Reg
  t : RegImm
  ext : Option Ext
  deriving DecidableEq, Repr

/-- Classes RU and STK: destination A and source B. -/
structure RU where
  a : Reg
  b : Reg
  deriving DecidableEq, Repr

/-- Class LI: register A and an immediate. -/
structure LI where
  a : Reg
  i : Imm
  deriving DecidableEq, Repr

/-- Class BR: the two compared registers and the offset in halfwords, as IMM payloads. -/
structure BR where
  a : Reg
  b : Reg
  off : List Byte
  deriving DecidableEq, Repr

/-- Class JL: the link register and the offset in halfwords, as IMM payloads. -/
structure JL where
  a : Reg
  off : List Byte
  deriving DecidableEq, Repr

/-- Class ADR: data register A (an `x`, `v` or `k` number), base register or immediate, EXT width and index register,
and a MASK where the opcode is a vector one. -/
structure ADR where
  a : Reg
  t : RegImm
  ext : Option Ext
  mask : Option Mask
  deriving DecidableEq, Repr

/-- Class AMO: destination A, address register B, EXT width and operand register. -/
structure AMO where
  a : Reg
  b : Reg
  ext : Ext
  deriving DecidableEq, Repr

/-- Class FEN: the kind bits [1:0] (01 acquire, 10 release, 11 both) and the optional scope. -/
structure FEN where
  kind : BitVec 2
  ext : Option Ext
  deriving DecidableEq, Repr

/-- Class CRN: a register and the number of a control register, as an immediate read unsigned. -/
structure CRN where
  a : Reg
  i : Imm
  deriving DecidableEq, Repr

/-- Class COD: a code, as an immediate read unsigned. -/
structure COD where
  i : Imm
  deriving DecidableEq, Repr

/-- Class FRR: destination A, source xT, EXT width and first source xS. -/
structure FRR where
  a : Reg
  b : Reg
  ext : Option Ext
  deriving DecidableEq, Repr

/-- Class FRU: destination A, source B, EXT width. -/
structure FRU where
  a : Reg
  b : Reg
  ext : Option Ext
  deriving DecidableEq, Repr

/-- Class CVT: destination A, source B and the two format codes of R101. -/
structure CVT where
  a : Reg
  b : Reg
  src : BitVec 4
  dst : BitVec 4
  mask : Option Mask
  deriving DecidableEq, Repr

/-- Class VRR: destination vA, vT or immediate, EXT width and first source vS. -/
structure VRR where
  a : Reg
  t : RegImm
  ext : Option Ext
  mask : Option Mask
  deriving DecidableEq, Repr

/-- Classes VU and VAP: vA, a second register B, EXT width. -/
structure VU where
  a : Reg
  b : Reg
  ext : Option Ext
  mask : Option Mask
  deriving DecidableEq, Repr

/-- Class VCM: destination predicate, the packed immediate (vT and the condition, R200), EXT width and vS. -/
structure VCM where
  p : Reg4
  i : Imm
  ext : Ext
  mask : Option Mask
  deriving DecidableEq, Repr

/-- Class VBC: destination vA, xB or immediate, EXT width. -/
structure VBC where
  a : Reg
  t : RegImm
  ext : Option Ext
  mask : Option Mask
  deriving DecidableEq, Repr

/-- Classes VST and VIX: data vA, base xB, EXT width and C (stride register, reader count or index vector). -/
structure VST where
  a : Reg
  b : Reg
  ext : Ext
  mask : Option Mask
  deriving DecidableEq, Repr

/-- Class VXS: destination A, xT or immediate, EXT width and vS. -/
structure VXS where
  a : Reg
  t : RegImm
  ext : Ext
  mask : Option Mask
  deriving DecidableEq, Repr

/-- Class PLG: three predicates and the operation of R81. -/
structure PLG where
  a : Reg4
  b : Reg4
  c : Reg4
  f : BitVec 3
  deriving DecidableEq, Repr

/-- Class PCT of `pcnt` and `pfirst`: destination vA and a predicate. -/
structure PCT where
  a : Reg
  p : Reg4
  mask : Option Mask
  deriving DecidableEq, Repr

/-- Class PCT of `vfault`: the destination predicate. -/
structure VFL where
  p : Reg4
  deriving DecidableEq, Repr

/-- Class SVL: destination xA, xB or immediate, EXT width. -/
structure SVL where
  a : Reg
  t : RegImm
  ext : Option Ext
  deriving DecidableEq, Repr

/-- Class XB: one source register. -/
structure XB where
  b : Reg
  deriving DecidableEq, Repr

/-- Class XBC: two source registers. -/
structure XBC where
  b : Reg
  ext : Ext
  deriving DecidableEq, Repr

/-- Class MIM: destination A and packed fields, an immediate read unsigned (R254). -/
structure MIM where
  a : Reg
  i : Imm
  deriving DecidableEq, Repr

/-- Class MTL: token register A, packed fields and the operand register C. -/
structure MTL where
  a : Reg
  i : Imm
  ext : Ext
  deriving DecidableEq, Repr

/-- Class SCP: token register A, count (register or immediate), operand register C and, in EXT [5], the direction. -/
structure SCP where
  a : Reg
  t : RegImm
  ext : Ext
  deriving DecidableEq, Repr

/-- Class SKY: token register A, key register B, operand group C and, in EXT [5], get or put. -/
structure SKY where
  a : Reg
  k : Reg4
  ext : Ext
  deriving DecidableEq, Repr

/-- Class SPR: a priority and a token register. -/
structure SPR where
  p : BitVec 3
  b : Reg
  deriving DecidableEq, Repr

/-- Class KK: destination and source key. -/
structure KK where
  a : Reg4
  b : Reg4
  deriving DecidableEq, Repr

/-- Class KKX: destination key, source key, operand register C. -/
structure KKX where
  a : Reg4
  b : Reg4
  ext : Ext
  deriving DecidableEq, Repr

/-- Class KIN: destination xA, key, optional selector. -/
structure KIN where
  a : Reg
  k : Reg4
  ext : Option Ext
  deriving DecidableEq, Repr

/-- Class RMT: data register A, key, EXT width or operation and the offset register C. -/
structure RMT where
  a : Reg
  k : Reg4
  ext : Ext
  mask : Option Mask
  deriving DecidableEq, Repr

/-- Class MSG: payload vA, key, EXT [5] reply key and C = handler id. -/
structure MSG where
  a : Reg
  k : Reg4
  ext : Ext
  deriving DecidableEq, Repr

/-- Class HID: the entry id (register or immediate), and C where the opcode has it. -/
structure HID where
  t : RegImm
  ext : Option Ext
  deriving DecidableEq, Repr

/-- Class SPN: vector-length class code, entry register B, argument register C. -/
structure SPN where
  cls : BitVec 3
  b : Reg
  ext : Ext
  deriving DecidableEq, Repr

/-- Class TLB: token register A, address register B, address-space register C. -/
structure TLB where
  a : Reg
  b : Reg
  ext : Ext
  deriving DecidableEq, Repr

/-- Class CFL: base register B, length register C and, in EXT [7:5], the scope. -/
structure CFL where
  b : Reg
  ext : Ext
  deriving DecidableEq, Repr

/-- Class KB: destination key and request address register. -/
structure KB where
  a : Reg4
  b : Reg
  deriving DecidableEq, Repr

/-- Class RB: destination xA, xB or immediate. -/
structure RB where
  a : Reg
  t : RegImm
  deriving DecidableEq, Repr

/-- A chain cut into its parts (R68 to R71): the wait marker, the number of halfwords, the page, the IMM payloads in
order, the EXT and MASK payloads, and the fields of the base word. -/
structure Chain where
  wait : Bool
  len  : Nat
  page : Byte
  ws   : List Byte
  ext  : Option Byte
  mask : Option Byte
  op   : BitVec 5
  b    : BitVec 5
  a    : BitVec 5
  deriving DecidableEq, Repr

/-- The instructions and events of spec/opcode_table.json, one constructor for each row, in the table's order. -/
inductive Instr where
  /-- ADD (R162): Adds the two operands and writes the sum modulo 2^64 to xA. -/
  | add (h : Hdr) (o : RRI)
  /-- SUB (R162): Subtracts the second operand from the first and writes the result to xA. -/
  | sub (h : Hdr) (o : RRI)
  /-- AND (R162): Writes the bitwise AND of the operands to xA. -/
  | and (h : Hdr) (o : RRI)
  /-- OR (R162): Writes the bitwise OR of the operands to xA. -/
  | or (h : Hdr) (o : RRI)
  /-- XOR (R162): Writes the bitwise XOR of the operands to xA. -/
  | xor (h : Hdr) (o : RRI)
  /-- SLL (R163): Shifts the first operand left by s and writes the result to xA. -/
  | sll (h : Hdr) (o : RRI)
  /-- SRL (R163): Shifts the first operand right by s, filling with zeros. -/
  | srl (h : Hdr) (o : RRI)
  /-- SRA (R163): Shifts the first operand right by s, filling with its sign bit. -/
  | sra (h : Hdr) (o : RRI)
  /-- SLT (R162): Writes 1 to xA if a < b as signed values, otherwise 0. -/
  | slt (h : Hdr) (o : RRI)
  /-- SLTU (R162): Writes 1 to xA if a < b as unsigned values, otherwise 0. -/
  | sltu (h : Hdr) (o : RRI)
  /-- LI (R167): Loads the sign-extended immediate into xA. -/
  | li (h : Hdr) (o : LI)
  /-- LHI (R167): Replaces the upper 32 bits of xA with the immediate. -/
  | lhi (h : Hdr) (o : LI)
  /-- LD (R169): Checks and issues a scalar load whose long-latency result goes to xA. -/
  | ld (h : Hdr) (o : ADR)
  /-- ST (R170): Checks a scalar store at issue and sends its write to the home. -/
  | st (h : Hdr) (o : ADR)
  /-- BEQ (R172): Branches to chain + 2 × i when a = b. -/
  | beq (h : Hdr) (o : BR)
  /-- BNE (R172): Branches when a ≠ b. -/
  | bne (h : Hdr) (o : BR)
  /-- BLT (R172): Branches when a < b as signed values. -/
  | blt (h : Hdr) (o : BR)
  /-- BGE (R172): Branches when a ≥ b as signed values. -/
  | bge (h : Hdr) (o : BR)
  /-- BLTU (R172): Branches when a < b as unsigned values. -/
  | bltu (h : Hdr) (o : BR)
  /-- BGEU (R172): Branches when a ≥ b as unsigned values. -/
  | bgeu (h : Hdr) (o : BR)
  /-- JAL (R173): Writes next to xA and jumps to chain + 2 × i. -/
  | jal (h : Hdr) (o : JL)
  /-- JALR (R174): Writes next to xA and jumps to the computed address; traps if bit 0 of the target is set. -/
  | jalr (h : Hdr) (o : ADR)
  /-- FENCE (R175): Issues an acquire, release or both at a scope; the thread then holds its later instructions … -/
  | fence (h : Hdr) (o : FEN)
  /-- FENCE_COMPLETE (R150): The conditions of a waiting fence's kind and scope come to hold, and the thread may issue … -/
  | fenceComplete (n : Nat)
  /-- MUL (R162): Writes the low 64 bits of a × b to xA. -/
  | mul (h : Hdr) (o : RRI)
  /-- ADDQ (R167): Adds the immediate to xA. -/
  | addq (h : Hdr) (o : LI)
  /-- LA (R167): Writes chain + i to xA. -/
  | la (h : Hdr) (o : LI)
  /-- MFCR (R182): Reads a control register into xA, under the refusals of R66. -/
  | mfcr (h : Hdr) (o : CRN)
  /-- MFCR_STREAM (R67): An mfcr of vl, vfmc, efc or fpcsr takes a dispatch-queue entry and gives a long-latency … -/
  | mfcrStream (h : Hdr) (o : CRN)
  /-- MTCR (R183): Writes xA to a control register that has no row of its own, or raises cause 0x01 for a … -/
  | mtcr (h : Hdr) (o : CRN)
  /-- MTCR_VL (R183): Takes a dispatch-queue entry that sets vl to min(x[A], 4 × mvl) at the address stage. -/
  | mtcrVl (h : Hdr) (o : CRN)
  /-- MTCR_EFC (R67): Takes a dispatch-queue entry that writes the error-feedback carry in stream order. -/
  | mtcrEfc (h : Hdr) (o : CRN)
  /-- MTCR_FPCSR (R67): Sets the rounding mode, SP, trap enables and sticky flags in stream order, refusing modes … -/
  | mtcrFpcsr (h : Hdr) (o : CRN)
  /-- MTCR_SLIP (R40): Sets the cluster slip limit, storing values from 33 to 63 as 32. -/
  | mtcrSlip (h : Hdr) (o : CRN)
  /-- MTCR_SATTR (R267): Writes sattr, raising cause 0x01 if any bit of [63:33] is set. -/
  | mtcrSattr (h : Hdr) (o : CRN)
  /-- MTCR_GANGTO (R240): Writes gangto, storing values below 1,024 as 1,024. -/
  | mtcrGangto (h : Hdr) (o : CRN)
  /-- BRK (R185): Raises cause 0x1B, or debug stop 0x20 when a debug table is bound. -/
  | brk (h : Hdr) (o : COD)
  /-- ECALL (R185): Raises cause 0x1C with uaddr = next and uinfo = i. -/
  | ecall (h : Hdr) (o : COD)
  /-- UDF (R186): Raises cause 0x01 whatever its fields. -/
  | udf (c : Chain)
  /-- MULH (R162): Writes the high 64 bits of the signed product to xA. -/
  | mulh (h : Hdr) (o : RRI)
  /-- MULHU (R162): Writes the high 64 bits of the unsigned product to xA. -/
  | mulhu (h : Hdr) (o : RRI)
  /-- DIV (R164): Issues a signed division with a long-latency result; a zero divisor raises cause 0x16. -/
  | div (h : Hdr) (o : RRI)
  /-- DIVU (R164): Issues an unsigned division with a long-latency result. -/
  | divu (h : Hdr) (o : RRI)
  /-- REM (R164): Issues a signed remainder with a long-latency result. -/
  | rem (h : Hdr) (o : RRI)
  /-- REMU (R164): Issues an unsigned remainder with a long-latency result. -/
  | remu (h : Hdr) (o : RRI)
  /-- CLZ (R166): Writes the count of leading zero bits of xB to xA. -/
  | clz (h : Hdr) (o : RU)
  /-- CTZ (R166): Writes the count of trailing zero bits of xB to xA. -/
  | ctz (h : Hdr) (o : RU)
  /-- POPC (R166): Writes the count of set bits of xB to xA. -/
  | popc (h : Hdr) (o : RU)
  /-- ROTL (R163): Rotates the first operand left by s. -/
  | rotl (h : Hdr) (o : RRI)
  /-- BEXT (R165): Gathers the bits of a selected by mask b into the low bits of xA. -/
  | bext (h : Hdr) (o : RRI)
  /-- BDEP (R165): Scatters the low bits of a to the positions set in mask b. -/
  | bdep (h : Hdr) (o : RRI)
  /-- MIN (R162): Writes the signed lesser of the operands. -/
  | min (h : Hdr) (o : RRI)
  /-- MAX (R162): Writes the signed greater of the operands. -/
  | max (h : Hdr) (o : RRI)
  /-- MINU (R162): Writes the unsigned lesser of the operands. -/
  | minu (h : Hdr) (o : RRI)
  /-- MAXU (R162): Writes the unsigned greater of the operands. -/
  | maxu (h : Hdr) (o : RRI)
  /-- AMOADD (R176): Atomically adds xC to the location at its home and returns the old value. -/
  | amoadd (h : Hdr) (o : AMO)
  /-- AMOSWAP (R176): Atomically swaps xC into the location and returns the old value. -/
  | amoswap (h : Hdr) (o : AMO)
  /-- AMOCAS (R176): Atomically writes xC if the location equals xA, and returns the old value. -/
  | amocas (h : Hdr) (o : AMO)
  /-- AMOMAX (R176): Atomically writes the signed maximum of the location and xC. -/
  | amomax (h : Hdr) (o : AMO)
  /-- AMOOR (R176): Atomically ORs xC into the location. -/
  | amoor (h : Hdr) (o : AMO)
  /-- AMOAND (R176): Atomically ANDs xC into the location. -/
  | amoand (h : Hdr) (o : AMO)
  /-- FADD (R179): Writes the rounded floating-point sum. -/
  | fadd (h : Hdr) (o : FRR)
  /-- FSUB (R179): Writes the rounded floating-point difference. -/
  | fsub (h : Hdr) (o : FRR)
  /-- FMUL (R179): Writes the rounded floating-point product. -/
  | fmul (h : Hdr) (o : FRR)
  /-- FDIV (R180): Issues a floating-point division with a long-latency result, its flags decided when the … -/
  | fdiv (h : Hdr) (o : FRR)
  /-- FMADD (R179): Writes round(x[A] + a × b) with one rounding. -/
  | fmadd (h : Hdr) (o : FRR)
  /-- FCMP (R179): Writes −1, 0, 1 or 2 for less, equal, greater or unordered. -/
  | fcmp (h : Hdr) (o : FRR)
  /-- FCVT (R181): Converts a scalar value between the formats of the fcvt column of R116. -/
  | fcvt (h : Hdr) (o : CVT)
  /-- FSQRT (R180): Issues a floating-point square root with a long-latency result. -/
  | fsqrt (h : Hdr) (o : FRU)
  /-- RDTIME (R184): Writes the cycle counter (i = 0) or meridian time (i = 1) to xA. -/
  | rdtime (h : Hdr) (o : LI)
  /-- VADD (R191): Adds vector elements modulo 2^w. -/
  | vadd (h : Hdr) (o : VRR)
  /-- VSUB (R191): Subtracts vector elements modulo 2^w. -/
  | vsub (h : Hdr) (o : VRR)
  /-- VMUL (R191): Writes the low w bits of each element product. -/
  | vmul (h : Hdr) (o : VRR)
  /-- VMULH (R191): Writes the high w bits of each signed element product. -/
  | vmulh (h : Hdr) (o : VRR)
  /-- VAND (R191): Writes the bitwise AND of the elements. -/
  | vand (h : Hdr) (o : VRR)
  /-- VOR (R191): Writes the bitwise OR of the elements. -/
  | vor (h : Hdr) (o : VRR)
  /-- VXOR (R191): Writes the bitwise XOR of the elements. -/
  | vxor (h : Hdr) (o : VRR)
  /-- VSLL (R192): Shifts the elements left. -/
  | vsll (h : Hdr) (o : VRR)
  /-- VSRL (R192): Shifts the elements right logically. -/
  | vsrl (h : Hdr) (o : VRR)
  /-- VSRA (R192): Shifts the elements right arithmetically. -/
  | vsra (h : Hdr) (o : VRR)
  /-- VMIN (R191): Writes the signed elementwise minimum. -/
  | vmin (h : Hdr) (o : VRR)
  /-- VMAX (R191): Writes the signed elementwise maximum. -/
  | vmax (h : Hdr) (o : VRR)
  /-- VMINU (R191): Writes the unsigned elementwise minimum. -/
  | vminu (h : Hdr) (o : VRR)
  /-- VMAXU (R191): Writes the unsigned elementwise maximum. -/
  | vmaxu (h : Hdr) (o : VRR)
  /-- VADDSAT (R191): Adds the elements with signed saturation. -/
  | vaddsat (h : Hdr) (o : VRR)
  /-- VFADD (R193): Adds floating-point elements with one rounding. -/
  | vfadd (h : Hdr) (o : VRR)
  /-- VFSUB (R193): Subtracts floating-point elements. -/
  | vfsub (h : Hdr) (o : VRR)
  /-- VFMUL (R193): Multiplies floating-point elements. -/
  | vfmul (h : Hdr) (o : VRR)
  /-- VFDIV (R193): Divides floating-point elements. -/
  | vfdiv (h : Hdr) (o : VRR)
  /-- VFMA (R193): Computes vA + vS × vT with one rounding. -/
  | vfma (h : Hdr) (o : VRR)
  /-- VFMIN (R194): Writes the floating-point minimum under the NaN rules of R194. -/
  | vfmin (h : Hdr) (o : VRR)
  /-- VFMAX (R194): Writes the floating-point maximum under the NaN rules of R194. -/
  | vfmax (h : Hdr) (o : VRR)
  /-- VFSQRT (R193): Writes the rounded square root of each element. -/
  | vfsqrt (h : Hdr) (o : VU)
  /-- VFEXP2 (R195): Writes the correctly rounded 2^x of each element. -/
  | vfexp2 (h : Hdr) (o : VU)
  /-- VCMP (R201): Writes predicate bits from integer compares. -/
  | vcmp (h : Hdr) (o : VCM)
  /-- VFCMP (R201): Writes predicate bits from floating-point compares. -/
  | vfcmp (h : Hdr) (o : VCM)
  /-- VSEL (R202): Selects each element from either source by the mask. -/
  | vsel (h : Hdr) (o : VRR)
  /-- VBCAST (R203): Broadcasts a scalar or immediate into the active elements. -/
  | vbcast (h : Hdr) (o : VBC)
  /-- VID (R204): Writes each element's index modulo 2^w. -/
  | vid (h : Hdr) (o : VBC)
  /-- VMERGE (R198): Commits speculative results under the mask, trapping 0x14 on a recorded fault, and clears … -/
  | vmerge (h : Hdr) (o : VU)
  /-- VCLASS (R205): Writes a one-hot class code for each floating-point element. -/
  | vclass (h : Hdr) (o : VU)
  /-- VLD (R208): Loads unit-stride vector elements from generic memory, first-fault or speculative. -/
  | vld (h : Hdr) (o : ADR)
  /-- VLDS (R208): Loads strided vector elements. -/
  | vlds (h : Hdr) (o : VST)
  /-- VLDX (R213): Loads indexed vector elements as a cross-cluster entry. -/
  | vldx (h : Hdr) (o : VST)
  /-- VST (R212): Stores unit-stride vector elements, all or nothing. -/
  | vst (h : Hdr) (o : ADR)
  /-- VSTS (R212): Stores strided vector elements. -/
  | vsts (h : Hdr) (o : VST)
  /-- VSTX (R212): Stores indexed vector elements. -/
  | vstx (h : Hdr) (o : VST)
  /-- VLSP (R216): Loads elements from the thread's own scratchpad lanes. -/
  | vlsp (h : Hdr) (o : ADR)
  /-- VLSPX (R216): Loads indexed elements within each lane of scratchpad. -/
  | vlspx (h : Hdr) (o : VST)
  /-- VSSP (R217): Stores elements to scratchpad lanes under the fill states. -/
  | vssp (h : Hdr) (o : ADR)
  /-- VSSPX (R217): Stores indexed elements to scratchpad lanes. -/
  | vsspx (h : Hdr) (o : VST)
  /-- VLSPC (R218): Consuming scratchpad load that decrements each touched line's reader count. -/
  | vlspc (h : Hdr) (o : ADR)
  /-- VLDC (R219): Consuming load of counted L2 lines at their home. -/
  | vldc (h : Hdr) (o : ADR)
  /-- VSTC (R220): Counted fill of whole L2 lines with a reader count from xC. -/
  | vstc (h : Hdr) (o : VST)
  /-- VPERM (R221): Gathers elements across all clusters by an index vector. -/
  | vperm (h : Hdr) (o : VRR)
  /-- VSLIDE (R222): Slides elements by a signed offset. -/
  | vslide (h : Hdr) (o : VXS)
  /-- VREDSUM (R223): Writes the modular sum of active elements into element 0. -/
  | vredsum (h : Hdr) (o : VU)
  /-- VREDMAX (R223): Writes the signed maximum of active elements into element 0. -/
  | vredmax (h : Hdr) (o : VU)
  /-- VREDMIN (R223): Writes the signed minimum of active elements into element 0. -/
  | vredmin (h : Hdr) (o : VU)
  /-- VFREDSUM (R224): Sums active floating-point elements in a fixed pairwise tree. -/
  | vfredsum (h : Hdr) (o : VU)
  /-- VSCAN (R225): Writes inclusive prefix sums of the active elements. -/
  | vscan (h : Hdr) (o : VU)
  /-- VCOMPRESS (R226): Packs the active elements into the low elements of vA. -/
  | vcompress (h : Hdr) (o : VU)
  /-- VAPPEND (R228): Atomically advances a list's TAIL and writes the active elements to the claimed slots. -/
  | vappend (h : Hdr) (o : VU)
  /-- VCVT (R230): Converts vector elements between the formats of R116. -/
  | vcvt (h : Hdr) (o : CVT)
  /-- VCVTEF (R231): Narrows vector elements with error feedback through efc. -/
  | vcvtef (h : Hdr) (o : CVT)
  /-- PLOG (R232): Combines whole predicates bit by bit with the selected operation. -/
  | plog (h : Hdr) (o : PLG)
  /-- PCNT (R233): Writes the count of set active predicate bits to vA[0]. -/
  | pcnt (h : Hdr) (o : PCT)
  /-- PFIRST (R233): Writes the lowest set active predicate index to vA[0]. -/
  | pfirst (h : Hdr) (o : PCT)
  /-- SETVL (R234): Writes min(v, MVL) to xA and, through a stream entry, to vl. -/
  | setvl (h : Hdr) (o : SVL)
  /-- VMVX (R235): Moves one vector element to xA as a long-latency result. -/
  | vmvx (h : Hdr) (o : VXS)
  /-- VMVV (R236): Copies vector bit patterns under the mask. -/
  | vmvv (h : Hdr) (o : VU)
  /-- VFAULT (R237): Copies the vector fault mask into a predicate and clears it. -/
  | vfault (h : Hdr) (o : VFL)
  /-- VECTOR_ADDRESS_STAGE (R42): A dispatch-queue entry passes the thread's address stage, receiving vl and its mask and … -/
  | vectorAddressStage (n : Nat)
  /-- CLUSTER_EXECUTE_ENTRY (R40): A granted cluster begins and completes its part of a dispatch-queue entry within the slip … -/
  | clusterExecuteEntry (n g b stall ns : Nat)
  /-- MCFG (R242): Checks and writes the matrix configuration mcfgv. -/
  | mcfg (h : Hdr) (o : XB)
  /-- MSCL (R244): Writes the MX scale base msbase. -/
  | mscl (h : Hdr) (o : XB)
  /-- MGRP (R245): Checks and writes the gang membership mgang. -/
  | mgrp (h : Hdr) (o : XB)
  /-- MCLR (R259): Creates a matrix satellite that zeroes a tile and its row carries. -/
  | mclr (h : Hdr) (o : MIM)
  /-- MMA (R255): Creates a tile-operation satellite, arriving at the wired barrier when in a gang. -/
  | mma (h : Hdr) (o : MTL)
  /-- GANG_STALL (R252): gangto cycles after the first arrival without completion, every waiting member takes cause … -/
  | gangStall (n : Nat)
  /-- MMA_GROUP_STEP (R255): The array reads one K-group of A and B and adds it into every accumulator element, counting … -/
  | mmaGroupStep (n : Nat)
  /-- MLDACC (R260): Creates a satellite that loads a tile or its row carries from generic memory. -/
  | mldacc (h : Hdr) (o : MTL)
  /-- MDRN (R261): Issues a strided drain of a tile to memory as a cross-cluster entry with a drain satellite. -/
  | mdrn (h : Hdr) (o : MTL)
  /-- MDRNX (R261): Issues an indexed drain of a tile to memory. -/
  | mdrnx (h : Hdr) (o : MTL)
  /-- DRAIN_LINE (R262): The drain path converts and writes one line of active elements, moving row carries and OVF. -/
  | drainLine (n : Nat)
  /-- MSTAT (R265): Writes the three sticky counters of a tile to xA. -/
  | mstat (h : Hdr) (o : MIM)
  /-- MSTCLR (R265): Sets the three sticky counters of a tile to zero. -/
  | mstclr (h : Hdr) (o : MIM)
  /-- CPY (R273): Creates a linear copy satellite between generic addresses. -/
  | cpy (h : Hdr) (o : SCP)
  /-- CPY2 (R273): Creates a two-dimensional copy satellite shaped by sshape. -/
  | cpy2 (h : Hdr) (o : SCP)
  /-- CPYP_TO_SCRATCH (R276): Creates a copy from generic memory into the thread's scratchpad lanes, posting the lines … -/
  | cpypToScratch (h : Hdr) (o : SCP)
  /-- CPYP_FROM_SCRATCH (R273): Creates a copy from scratchpad lanes to generic memory. -/
  | cpypFromScratch (h : Hdr) (o : SCP)
  /-- CPYK_GET (R282): Creates a satellite that copies from a key's window into the local side, unit by unit as … -/
  | cpykGet (h : Hdr) (o : SKY)
  /-- CPYK_PUT (R282): Creates a satellite that copies from the local side into a key's window. -/
  | cpykPut (h : Hdr) (o : SKY)
  /-- COPY_UNIT (R275): The copy streamer reads, writes or reduces one unit and counts it completed, ending the … -/
  | copyUnit (n : Nat)
  /-- COLL (R283): Creates a collective satellite described by a group table. -/
  | coll (h : Hdr) (o : SCP)
  /-- COLL_STEP_BEGIN (R285): The collective unit begins step s once step s − 1 has ended and its scheduled time has come. -/
  | collStepBegin (n : Nat)
  /-- COLL_NOTICE_ARRIVAL (R286): A collective notice adds to the (GID, TAG) count of the notice table, possibly releasing a … -/
  | collNoticeArrival (n : Nat)
  /-- COLL_NOTICE_RESEND (R286): A notice refused for a full notice table is sent again every 1 µs. -/
  | collNoticeResend (n : Nat)
  /-- COLL_NOTICE_TIMEOUT (R286): After 1 ms without a notice-table entry or acceptance, the collective ends faulted with … -/
  | collNoticeTimeout (n : Nat)
  /-- SWAIT (R289): Parks until the satellite is terminal, then writes its status word and reaps it if owned. -/
  | swait (h : Hdr) (o : RU)
  /-- STEST (R289): Writes the satellite's current status word, reaping an owned terminal one. -/
  | stest (h : Hdr) (o : RU)
  /-- SCANCEL (R290): Requests cancellation of a satellite and writes its status after the request. -/
  | scancel (h : Hdr) (o : RU)
  /-- SDETACH (R291): Detaches an owned satellite. -/
  | sdetach (h : Hdr) (o : XB)
  /-- SPRIO (R292): Sets a satellite's service priority. -/
  | sprio (h : Hdr) (o : SPR)
  /-- SFAULT (R293): Writes a satellite's four record words to xA to x(A+3). -/
  | sfault (h : Hdr) (o : RU)
  /-- SADOPT (R291): Attaches a detached or orphaned satellite to the issuer. -/
  | sadopt (h : Hdr) (o : XB)
  /-- SWAITALL (R294): Parks until every attached satellite is terminal, then reaps those done or cancelled. -/
  | swaitall (h : Hdr)
  /-- SLEEPU (R295): Parks the thread until meridian time reaches x[B]. -/
  | sleepu (h : Hdr) (o : XB)
  /-- SPROMISE (R296): Attaches a promise time to a satellite. -/
  | spromise (h : Hdr) (o : XBC)
  /-- SATTR (R297): Writes sattr from a signed immediate. -/
  | sattr (h : Hdr) (o : LI)
  /-- CDRAIN (R298): Creates a satellite that drops the region's counted lines in a range and counts the … -/
  | cdrain (h : Hdr) (o : SCP)
  /-- PARK_WAKE (R35): A parked thread's awaited event occurs (satellite terminal, time reached, barrier met) and … -/
  | parkWake (n : Nat)
  /-- SATELLITE_LAUNCH (R54): A waiting satellite's launch time arrives and it becomes running. -/
  | satelliteLaunch (n : Nat)
  /-- SATELLITE_BEGIN (R61): An engine admits a running satellite whose dependence is satisfied and begins its first unit. -/
  | satelliteBegin (n : Nat)
  /-- SATELLITE_PRIORITY_AGING (R61): A queued satellite rises one priority level every 16,384 cycles. -/
  | satellitePriorityAging (n : Nat)
  /-- PROMISE_MISS (R296): Meridian time reaches a promise before the satellite is terminal: PMISS is set and cause … -/
  | promiseMiss (n : Nat)
  /-- KLD (R306): Loads a 32-byte key into kA as a long-latency result. -/
  | kld (h : Hdr) (o : ADR)
  /-- KST (R306): Stores kA as 32 bytes in two atomic halves. -/
  | kst (h : Hdr) (o : ADR)
  /-- KMOV (R307): Copies kB into kA whole. -/
  | kmov (h : Hdr) (o : KK)
  /-- KNARROW (R309): Derives a key with a narrower window. -/
  | knarrow (h : Hdr) (o : KKX)
  /-- KRIGHTS (R309): Derives a key with rights ANDed by a mask. -/
  | krights (h : Hdr) (o : KKX)
  /-- KGIVE (R309): Derives a key for another holder, needing the delegate right. -/
  | kgive (h : Hdr) (o : KKX)
  /-- KPATHS (R309): Derives a key with a subset of its paths. -/
  | kpaths (h : Hdr) (o : KKX)
  /-- KINFO (R310): Writes a key word or a status word, probing the endpoint's generation for selector 3. -/
  | kinfo (h : Hdr) (o : KIN)
  /-- RLD (R313): Reads remote generic memory through a kind-0 key as a long-latency result. -/
  | rld (h : Hdr) (o : RMT)
  /-- RST (R313): Writes remote generic memory through a kind-0 key. -/
  | rst (h : Hdr) (o : RMT)
  /-- RAMO_ADD (R314): Remote atomic add on 8 bytes at the target's home. -/
  | ramoAdd (h : Hdr) (o : RMT)
  /-- RAMO_SWAP (R314): Remote atomic swap. -/
  | ramoSwap (h : Hdr) (o : RMT)
  /-- RAMO_CAS (R314): Remote compare-and-swap against x(A+1). -/
  | ramoCas (h : Hdr) (o : RMT)
  /-- RAMO_MAX (R314): Remote atomic signed maximum. -/
  | ramoMax (h : Hdr) (o : RMT)
  /-- RAMO_OR (R314): Remote atomic OR. -/
  | ramoOr (h : Hdr) (o : RMT)
  /-- RAMO_AND (R314): Remote atomic AND. -/
  | ramoAnd (h : Hdr) (o : RMT)
  /-- RAMO_ADDN (R315): Remote add-notify that reserves a reply slot and starts a handler when the new value is 0. -/
  | ramoAddn (h : Hdr) (o : RMT)
  /-- RVLD (R316): Vector load through a kind-0 or kind-1 key, first-fault. -/
  | rvld (h : Hdr) (o : RMT)
  /-- RVST (R316): Vector store through a kind-0 or kind-1 key, all or nothing. -/
  | rvst (h : Hdr) (o : RMT)
  /-- SEND (R317): Reserves a VN0 entry and sends a message to a queue endpoint. -/
  | send (h : Hdr) (o : MSG)
  /-- SEND_R (R320): Sends a VN0 message with a reply slot reserved and a derived reply key attached. -/
  | sendR (h : Hdr) (o : MSG)
  /-- SENDR (R318): Sends a reply on VN1 under a reply key. -/
  | sendr (h : Hdr) (o : MSG)
  /-- HCLR (R327): Locks a handler-table entry for the issuing region. -/
  | hclr (h : Hdr) (o : HID)
  /-- HSET (R327): Sets a handler-table entry to an address, or empties it for 0. -/
  | hset (h : Hdr) (o : HID)
  /-- HRET (R328): Ends a handler, waiting for pending results and detaching its satellites. -/
  | hret (h : Hdr)
  /-- HMASK (R327): Masks or unmasks a handler id on this core. -/
  | hmask (h : Hdr) (o : HID)
  /-- SQFREE (R325): Writes the free VN0 or VN1 entries and free reply slots to xA. -/
  | sqfree (h : Hdr) (o : LI)
  /-- SPAWN (R329): Creates a thread in the region after a scope-3 release on behalf of the spawning thread. -/
  | spawn (h : Hdr) (o : SPN)
  /-- SPAWN_QUEUE (R329): When the spawn's release is complete, the new thread is queued on its die. -/
  | spawnQueue (n : Nat)
  /-- EXIT (R330): Waits for the dispatch queue, then ends the thread, orphaning running satellites and … -/
  | exit (h : Hdr)
  /-- YIELD (R331): Gives up the thread's round-robin turn, possibly pre-empting it for a waiting thread. -/
  | yield (h : Hdr)
  /-- JDEC (R332): Decrements a join block at its home after a scope-4 release. -/
  | jdec (h : Hdr) (o : XB)
  /-- RETT (R371): Ends a user trap, restoring a set-aside residue and returning after the handler's entries … -/
  | rett (h : Hdr)
  /-- MFPR (R367): Reads a privileged register into xA. -/
  | mfpr (h : Hdr) (o : CRN)
  /-- MTPR (R367): Writes a privileged register that has no row of its own. -/
  | mtpr (h : Hdr) (o : CRN)
  /-- MTPR_MCHK_CLEAR (R467): A write of zero to mchk at M clears the machine-check record. -/
  | mtprMchkClear (h : Hdr) (o : CRN)
  /-- TLBI (R392): Creates a satellite that shoots down translations across the module. -/
  | tlbi (h : Hdr) (o : TLB)
  /-- ICINV (R393): Drains the dispatch queue, then invalidates the core's instruction cache for the region. -/
  | icinv (h : Hdr)
  /-- CFLUSH (R394): Flushes the lines of a range from caches up to the given scope. -/
  | cflush (h : Hdr) (o : CFL)
  /-- CTXSAVE (R395): Stops a named live thread and writes its image with HOLD set. -/
  | ctxsave (h : Hdr) (o : XB)
  /-- CTXLOAD (R395): Clears HOLD on a saved thread's image so the scheduler places it. -/
  | ctxload (h : Hdr) (o : XB)
  /-- RGNBIND_BIND (R396): Binds a region control block as a new child after the checks of R404. -/
  | rgnbindBind (h : Hdr) (o : XBC)
  /-- RGNBIND_RELOAD (R404): Loads new budgets from a descendant's control block. -/
  | rgnbindReload (h : Hdr) (o : XBC)
  /-- RGNBIND_END (R396): Ends a descendant region. -/
  | rgnbindEnd (h : Hdr) (o : XBC)
  /-- QMAP (R397): Pins or unpins a region's ready queue on a die. -/
  | qmap (h : Hdr) (o : XBC)
  /-- TRCCTL (R448): Binds, replaces or unbinds a trace buffer and its debug table. -/
  | trcctl (h : Hdr) (o : XBC)
  /-- KMINT (R399): Mints a key from a request with the endpoint's generation and a new tag. -/
  | kmint (h : Hdr) (o : KB)
  /-- KREKEY_ADVANCE (R400): Advances an endpoint's generation, retiring it when exhausted. -/
  | krekeyAdvance (h : Hdr) (o : XB)
  /-- KREKEY_ROTATE (R439): Rotates the domain's tag secret. -/
  | krekeyRotate (h : Hdr) (o : XB)
  /-- WFI (R401): Parks the thread until a record, queue message, satellite end or 1 ms. -/
  | wfi (h : Hdr)
  /-- PSTATE_SET (R402): Sets the region's voltage-frequency ceiling on the core and reports the state. -/
  | pstateSet (h : Hdr) (o : RB)
  /-- PSTATE_READ (R402): Reports the current clock, the region's ceiling and the core's state. -/
  | pstateRead (h : Hdr) (o : RB)
  /-- LONG_LATENCY_RESULT (R86): A long-latency result arrives and is written to its register, possibly ending a wait-marker … -/
  | longLatencyResult (n o : Nat)
  /-- STORE_HOME_FAILURE (R171): A store's bytes are refused at a counted line or meet an uncorrectable error at the home, … -/
  | storeHomeFailure (n : Nat)
  /-- EVENT_BOUNDARY (R377): At an instruction boundary, pending events are taken one at a time in the fixed order. -/
  | eventBoundary (n : Nat)
  /-- MESSAGE_ACCEPT (R48): An arriving message is accepted into an inbox slot or queue endpoint, or refused for no … -/
  | messageAccept (n : Nat)
  /-- HANDLER_START (R48): A waiting message starts its handler in a free context and handler share. -/
  | handlerStart (n c g : Nat)
  /-- HANDLER_BUSY_TIMEOUT (R52): A message waiting on a locked entry for 4,096 cycles is refused with reason 0x81. -/
  | handlerBusyTimeout (n : Nat)
  /-- HANDLER_CYCLE_LIMIT (R50): A handler exceeding its region's cycle limit is ended with cause 0x24. -/
  | handlerCycleLimit (n : Nat)
  /-- SEND_ACK (R321): An acceptance acknowledgement frees the sender's queue entry. -/
  | sendAck (n : Nat)
  /-- MESSAGE_RETURN (R322): A refused message returns to the sender's queue entry to start handler 0, or is dropped … -/
  | messageReturn (n : Nat)
  /-- REPLY_ACCEPT (R320): A VN1 reply under a reply key fills its reserved slot if the sequence matches, or is … -/
  | replyAccept (n : Nat)
  /-- REMOTE_RESPONSE (R434): A response or refusal reaches the source and completes the matching outstanding request. -/
  | remoteResponse (n : Nat)
  /-- INGRESS_PACKET (R435): A packet at the target ingress is ordered by bucket sequence, checked, performed or … -/
  | ingressPacket (n : Nat)
  /-- EGRESS_CHECK (R302): The egress port checks a packet's tag and holder and refuses a failing one. -/
  | egressCheck (n : Nat)
  /-- VAULT_FORWARD (R432): A vault node checks a packet and forwards it on its output port. -/
  | vaultForward (n : Nat)
  /-- RETRANSMIT (R434): An unanswered request is sent again at 8, 24 and 56 µs. -/
  | retransmit (n : Nat)
  /-- END_TO_END_FAILURE (R434): A request unanswered 100 µs after first sending fails with cause 0x23. -/
  | endToEndFailure (n : Nat)
  /-- STREAM_STATE_RELEASE (R435): A target releases a stream's state after 1 ms without a packet. -/
  | streamStateRelease (m d t : Nat)
  /-- FLIT_RECEIVE (R429): A received flit is checked against its CRC and sequence, accepted or NAKed. -/
  | flitReceive (ep p f : Nat)
  /-- ACK_TIMEOUT (R430): No ACKSEQ advance for 4 µs with flits outstanding makes the port retrain. -/
  | ackTimeout (ep p : Nat)
  /-- LINK_RETRAIN (R431): A port trains its lanes and runs at full, half rate or down. -/
  | linkRetrain (ep p lanes : Nat)
  /-- BEACON_EXCHANGE (R440): Every 10 µs a module exchanges beacons with the reference and slews its meridian offset. -/
  | beaconExchange (m s1 a1 s2 a2 : Nat)
  /-- MERIDIAN_FREE_RUN (R440): After 1 ms without a good exchange the module runs free and sets status bit 0. -/
  | meridianFreeRun (m : Nat)
  /-- REFERENCE_FAILOVER (R440): On reference failure the next-lowest module becomes the meridian reference within 100 µs. -/
  | referenceFailover (m : Nat)
  /-- KEYWRIGHT_TAKEOVER (R438): The Keywright of F1 takes over within 10 ms when F0's fails, refusing unanswered requests … -/
  | keywrightTakeover (m : Nat)
  /-- ROTATION_ACKNOWLEDGED (R439): Once every checker acknowledges, minting switches to the new secret and word 3 is written done. -/
  | rotationAcknowledged
  /-- TAG_GRACE_EXPIRY (R439): After the grace period checkers drop the old tag secret. -/
  | tagGraceExpiry
  /-- SLOT_BOUNDARY (R408): At a quantum boundary an unpinned queue slot passes to the highest waiting effective priority. -/
  | slotBoundary (m d r : Nat)
  /-- QUEUE_AGING (R408): A waiting queue's effective priority rises by 1 every 250,000 ns. -/
  | queueAging (m d r : Nat)
  /-- THREAD_PLACE (R410): The scheduler places a queued thread or gang from a mapped queue into a free context. -/
  | threadPlace (n c x g q : Nat)
  /-- THREAD_QUANTUM (R410): A thread that held its context for Q while a sibling waits is pre-empted. -/
  | threadQuantum (n : Nat)
  /-- TIME_BUDGET_SPENT (R410): A region reaching TBUDGET in its period loses its slots and its threads are pre-empted. -/
  | timeBudgetSpent (m r : Nat)
  /-- TIME_PERIOD_BEGIN (R410): A new time-budget period begins for the region. -/
  | timePeriodBegin (m r : Nat)
  /-- LIFETIME_BUDGET (R410): USED reaching HARDNS ends the region. -/
  | lifetimeBudget (m r n : Nat)
  /-- CONTEXT_SAVE_STAGE2 (R385): When the last running satellite of a saved thread ends, the image is completed with … -/
  | contextSaveStage2 (n : Nat)
  /-- DRAIN_LIMIT_EXPIRY (R385): Satellites still running when the drain limit passes are cancelled. -/
  | drainLimitExpiry (n : Nat)
  /-- SCRATCHPAD_MOVE (R388): A region's scratchpad is saved and moved once its satellites are terminal, advancing the … -/
  | scratchpadMove (m r d c d2 c2 : Nat)
  /-- LAUNCH_BIND (R414): A launch message binds a new child region. -/
  | launchBind (n : Nat)
  /-- LAUNCH_CREATE_THREAD (R414): A launch message creates a thread in the target region. -/
  | launchCreateThread (n : Nat)
  /-- LAUNCH_END_REGION (R414): A launch message ends the target region. -/
  | launchEndRegion (n : Nat)
  /-- LAUNCH_RELOAD (R414): A launch message reloads the target region's budgets. -/
  | launchReload (n : Nat)
  /-- HOST_QUEUE_WRITE (R413): An entry is written to a host queue, or a record dropped and an overflow entry later written. -/
  | hostQueueWrite (m v q : Nat)
  /-- TRACE_SAMPLE (R452): Every 2^n cycles each context of the region writes a SAMPLE record. -/
  | traceSample (m d r : Nat)
  /-- TRACE_FLUSH (R449): Queued trace records are written, released and WRPTR advanced every 64 records or 10 µs. -/
  | traceFlush (m d : Nat)
  /-- POWER_EVENT (R455): A power or thermal state event writes a POWER record. -/
  | powerEvent (m d temp watts : Nat)
  /-- CAPTURE_END (R456): 50 µs after a capture-triggering event the unit stops writing every record. -/
  | captureEnd (m d : Nat)
  /-- ENERGY_METER (R443): Each microsecond the core meters energy and charges it to regions. -/
  | energyMeter (m d c r nj : Nat)
  /-- POWER_LIMIT_STEP (R465): The power limit lowers or raises the die's state by one step per 20 µs over or 200 µs under. -/
  | powerLimitStep (m d up : Nat)
  /-- THERMAL_THROTTLE (R465): Entering at 105 °C forces P2 or slower; leaving below 100 °C releases it. -/
  | thermalThrottle (m d on : Nat)
  /-- THERMAL_TRIP (R465): At 115 °C the die's clocks stop and every region on it ends. -/
  | thermalTrip (m d : Nat)
  /-- SCRUB (R467): HBM and the second tier are scrubbed once every 24 hours. -/
  | scrub (m : Nat)
  /-- UNCORRECTABLE_ERROR (R467): An uncorrectable error poisons data and writes mchk. -/
  | uncorrectableError (m d c unit pa who : Nat)
  /-- RESET (R463): The whole module leaves reset and runs bring-up steps 1 to 6 within their bounds. -/
  | reset (m stop fail : Nat)
  /-- ATTESTATION_REQUEST (R462): F0 returns a signed 1,024-byte attestation report over the requester's nonce. -/
  | attestationRequest (m nonce : Nat)
  /-- JOIN_DECREMENT (R332): After the jdec's scope-4 release completes, the decrement of JCOUNT is performed at the … -/
  | joinDecrement (n : Nat)
  /-- TLBI_DONE (R392): The tlbi satellite ends done once every TLB has dropped the named entries and every probed … -/
  | tlbiDone (n : Nat)
  /-- MLDACC_LINE (R260): The matrix slice reads one line of the tile or row carries from memory into the … -/
  | mldaccLine (n : Nat)
  /-- INJECTION_RELEASE (R441): A packet held at the source beyond its interface's injection share is sent when the 1 µs … -/
  | injectionRelease (n : Nat)
  /-- PORT_RESET (R431): The platform resets a fabric port that stayed down after three failed trainings within 1 s. -/
  | portReset (ep p : Nat)
  /-- HOST_INTERFACE_TAKEOVER (R27): When F0's host interface fails, the host interface of F1 takes over from its idle state. -/
  | hostInterfaceTakeover (m : Nat)
  deriving DecidableEq, Repr

end Sys2Proof
end

