-- ==== Sys2Proof/Machine/Limits.lean ====
section
/-! DEFINITION. Sys2Proof/Machine/Limits.lean: immediates (spec/03 R72), register operands, and the limits that R63,
R74, R76 to R82 and the instruction entries put on the fields of a chain. `WellFormed.lean` composes them. -/

namespace Sys2Proof

/-! ### Immediates (R72) -/

/-- The IMM payloads in chain order as one number, most significant first. -/
def payloadNat (ws : List Byte) : Nat := ws.foldl (fun n w => n * 256 + w.toNat) 0

/-- `n`, a number of `bits` bits, read as two's complement. -/
def signedNat (bits n : Nat) : Int := if 2 ^ (bits - 1) ≤ n then (n : Int) - (2 : Int) ^ bits else n

/-- The immediate as an unsigned number: the payloads followed by B. -/
def Imm.nat (i : Imm) : Nat := payloadNat i.ws * 32 + i.low.toNat

/-- The immediate sign-extended from 8n + 5 bits. -/
def Imm.int (i : Imm) : Int := signedNat (8 * i.ws.length + 5) i.nat

/-- The immediate as a 64-bit value. -/
def Imm.word (i : Imm) : Word := BitVec.ofInt 64 i.int

/-- The offset of a branch or `jal` in halfwords: the payloads alone, sign-extended from 8n bits. -/
def branchOffset (ws : List Byte) : Int := signedNat (8 * ws.length) (payloadNat ws)

/-- The signed immediate of a B field, if it is one. -/
def RegImm.int? : RegImm → Option Int
  | .reg _ => none
  | .imm i => some i.int

/-- How many IMM words a B field carries. -/
def RegImm.words : RegImm → Nat
  | .reg _ => 0
  | .imm i => i.ws.length

/-- The form with an immediate needs at least one IMM word (R72), and at most `max` (R76). -/
def RegImm.ok (max : Nat) : RegImm → Bool
  | .reg _ => true
  | .imm i => decide (1 ≤ i.ws.length) && decide (i.ws.length ≤ max)

/-- An immediate, where it is one, lies from `lo` to `hi`. -/
def RegImm.within (lo hi : Int) (t : RegImm) : Bool :=
  match t.int? with
  | none => true
  | some v => decide (lo ≤ v) && decide (v ≤ hi)

/-! ### Optional prefixes -/

/-- 1 for a prefix that is present. -/
def present {α : Type} : Option α → Nat
  | none => 0
  | some _ => 1

/-- EXT [7:5], taken as 0 when the prefix is absent (R76). -/
def extSel (e : Option Ext) : BitVec 3 := (e.map Ext.sel).getD 0

/-- EXT absent, or with [7:5] = 0. -/
def extPlain (e : Option Ext) : Bool := extSel e == 0

/-- EXT absent, or with C = 0. -/
def extNoC (e : Option Ext) : Bool := (e.map Ext.c).getD 0 == 0

/-! ### Length and masks -/

/-- The header's length is the number of halfwords of the chain: the base word, `n` prefixes other than PAGE, a PAGE
prefix for a page other than 0, and for page 0 possibly a PAGE prefix with payload 0 (R70, R71). -/
def lenOk (page n : Nat) (h : Hdr) : Bool :=
  decide (h.len ≤ 5) && (if page = 0 then h.len == n + 1 || h.len == n + 2 else h.len == n + 2)

/-- Fields 12 to 14 name no predicate in a MASK payload, and speculate excludes zeroing (R74). -/
def Mask.legal (m : Mask) : Bool :=
  (decide (m.pred.toNat < 12) || m.pred == 15) && !(m.spec && m.zero)

/-- A MASK, if present, is legal, and uses speculate and zeroing only where the opcode allows them. -/
def maskOk (spec zero : Bool) : Option Mask → Bool
  | none => true
  | some m => m.legal && (spec || !m.spec) && (zero || !m.zero)

/-- No MASK prefix. -/
def noMask (m : Option Mask) : Bool := m.isNone

/-- A predicate field holds 0 to 11 (R63). -/
def predOk (p : Reg4) : Bool := decide (p.toNat < 12)

/-! ### Widths (R78, R102, R190) -/

/-- `.w`, `.h`, `.b`, `.d`. -/
def widthInt (w : BitVec 3) : Bool := decide (w.toNat ≤ 3)
/-- `.w`, `.h`, `.d`, `.bh`. -/
def widthFp (w : BitVec 3) : Bool := w == 0 || w == 1 || w == 3 || w == 4
/-- Every code but the reserved 111. -/
def widthAny (w : BitVec 3) : Bool := w != 7
/-- `.w` or `.d`: the scalar floating-point and atomic widths. -/
def widthWD (w : BitVec 3) : Bool := w == 0 || w == 3

/-- The element width in bits of a vector width code (R102). -/
def widthBits (w : BitVec 3) : Nat :=
  match w.toNat with
  | 0 => 32 | 1 => 16 | 2 => 8 | 3 => 64 | 4 => 16 | _ => 8

/-! ### Control registers (R65) -/

/-- The numbers that R65 lists. -/
def crListed (n : Nat) : Bool :=
  decide (n ≤ 6) || (decide (0x10 ≤ n) && decide (n ≤ 0x13)) || (decide (0x20 ≤ n) && decide (n ≤ 0x27))
    || (decide (0x30 ≤ n) && decide (n ≤ 0x34)) || (decide (0x40 ≤ n) && decide (n ≤ 0x43)) || n == 0x50
    || n == 0x60 || n == 0x61 || (decide (0x70 ≤ n) && decide (n ≤ 0x7F))

/-- `vl`, `vfmc`, `efc` and `fpcsr`: the registers an `mfcr` reads at its own position in the stream (R67). -/
def crStream (n : Nat) : Bool := n == 0 || n == 3 || n == 5 || n == 6

/-- The registers whose `mtcr` has a row of its own: `vl`, `slip`, `efc`, `fpcsr`, `sattr`, `gangto`. -/
def crOwnRow (n : Nat) : Bool := n == 0 || n == 4 || n == 5 || n == 6 || n == 0x10 || n == 0x50

/-! ### Conversions (R116) -/

/-- FP64, FP32, BF16, FP16, E4M3, E5M2. -/
def fmtFp (c : BitVec 4) : Bool := decide (c.toNat ≤ 4) || c == 0xA
/-- INT8, INT32, INT16. -/
def fmtInt (c : BitVec 4) : Bool := c == 7 || c == 8 || c == 0xB
/-- MXFP8, MXFP4. -/
def fmtMx (c : BitVec 4) : Bool := c == 5 || c == 6

/-- The pairs of `fcvt` (R116). -/
def fcvtPair (s d : BitVec 4) : Bool :=
  s != d && ((fmtFp s && fmtFp d) || (fmtFp s && fmtInt d) || (fmtInt s && fmtFp d))

/-- The pairs of `vcvt` (R116). -/
def vcvtPair (s d : BitVec 4) : Bool :=
  fcvtPair s d || (s != d && fmtInt s && fmtInt d)
    || ((s == 0 || s == 1) && fmtMx d) || (fmtMx s && (d == 0 || d == 1))
    || ((s == 7 || s == 8) && d == 9) || (s == 9 && (d == 7 || d == 8))

/-- The eight pairs of `vcvtef` (R116). -/
def vcvtefPair (s d : BitVec 4) : Bool :=
  (s == 0 && (d == 1 || d == 2 || d == 3 || d == 4)) || ((s == 1 || s == 2) && (d == 3 || d == 4))

/-- An MX operand is a pair of registers, so field 31 cannot name one (R119). -/
def mxRegOk (f : BitVec 4) (r : Reg) : Bool := !(fmtMx f && r == 31)

/-! ### Fields packed into an immediate -/

/-- Bits `lo` to `lo + n - 1` of a packed immediate. -/
def Imm.field (i : Imm) (lo n : Nat) : Nat := i.nat / 2 ^ lo % 2 ^ n

/-- A predicate field where 15 means all (R254). -/
def predOrAll (p : Nat) : Bool := decide (p < 12) || p == 15

end Sys2Proof
end

