-- ==== Sys2Proof/WellFormed.lean ====
section
/-! DEFINITION. Sys2Proof/WellFormed.lean: which terms of `Instr` are chains the W9 decodes: the checks of step 6 of
spec/03 R75 that concern the chain alone (reserved fields, widths, scopes, conditions, selectors, register fields and
groups of R63 and R77, immediates out of their limits) and the length of the chain. The limits themselves are in
`Machine/Limits.lean`. An event row has no chain, so no event is well formed. -/

namespace Sys2Proof

/-- In the form `op #h, …` the entry id is read unsigned and lies from 0 to 255 (R327). -/
def hidOk : RegImm → Bool
  | .reg _ => true
  | .imm i => decide (i.nat ≤ 255)

/-- A well-formed instruction: a chain that passes every check of R75 that depends on the chain alone. `udf` keeps its
whole chain, which has page 0 and opcode 30 whatever its other fields (R186). -/
def Instr.wf : Instr → Bool
  | .add h o => lenOk 0 (o.t.words + present o.ext) h && o.t.ok 3 && extPlain o.ext
  | .sub h o => lenOk 0 (o.t.words + present o.ext) h && o.t.ok 3 && extPlain o.ext
  | .and h o => lenOk 0 (o.t.words + present o.ext) h && o.t.ok 3 && extPlain o.ext
  | .or h o => lenOk 0 (o.t.words + present o.ext) h && o.t.ok 3 && extPlain o.ext
  | .xor h o => lenOk 0 (o.t.words + present o.ext) h && o.t.ok 3 && extPlain o.ext
  | .sll h o => lenOk 0 (o.t.words + present o.ext) h && o.t.ok 3 && extPlain o.ext && o.t.within 0 63
  | .srl h o => lenOk 0 (o.t.words + present o.ext) h && o.t.ok 3 && extPlain o.ext && o.t.within 0 63
  | .sra h o => lenOk 0 (o.t.words + present o.ext) h && o.t.ok 3 && extPlain o.ext && o.t.within 0 63
  | .slt h o => lenOk 0 (o.t.words + present o.ext) h && o.t.ok 3 && extPlain o.ext
  | .sltu h o => lenOk 0 (o.t.words + present o.ext) h && o.t.ok 3 && extPlain o.ext
  | .li h o => lenOk 0 (o.i.ws.length) h && decide (o.i.ws.length ≤ 4)
  | .lhi h o => lenOk 0 (o.i.ws.length) h && decide (o.i.ws.length ≤ 4) && decide (-(2 : Int) ^ 31 ≤ o.i.int)
      && decide (o.i.int < (2 : Int) ^ 31)
  | .ld h o => lenOk 0 (o.t.words + present o.ext + present o.mask) h && o.t.ok 3 && noMask o.mask
      && decide ((extSel o.ext).toNat ≤ 6)
  | .st h o => lenOk 0 (o.t.words + present o.ext + present o.mask) h && o.t.ok 3 && noMask o.mask
      && decide ((extSel o.ext).toNat ≤ 3)
  | .beq h o => lenOk 0 (o.off.length) h && decide (1 ≤ o.off.length) && decide (o.off.length ≤ 4)
  | .bne h o => lenOk 0 (o.off.length) h && decide (1 ≤ o.off.length) && decide (o.off.length ≤ 4)
  | .blt h o => lenOk 0 (o.off.length) h && decide (1 ≤ o.off.length) && decide (o.off.length ≤ 4)
  | .bge h o => lenOk 0 (o.off.length) h && decide (1 ≤ o.off.length) && decide (o.off.length ≤ 4)
  | .bltu h o => lenOk 0 (o.off.length) h && decide (1 ≤ o.off.length) && decide (o.off.length ≤ 4)
  | .bgeu h o => lenOk 0 (o.off.length) h && decide (1 ≤ o.off.length) && decide (o.off.length ≤ 4)
  | .jal h o => lenOk 0 (o.off.length) h && decide (1 ≤ o.off.length) && decide (o.off.length ≤ 4)
  | .jalr h o => lenOk 0 (o.t.words + present o.ext + present o.mask) h && o.t.ok 3 && noMask o.mask && extPlain o.ext
  | .fence h o => lenOk 0 (present o.ext) h && o.kind != 0 && extNoC o.ext && decide ((extSel o.ext).toNat ≤ 5)
  | .fenceComplete _ => false
  | .mul h o => lenOk 0 (o.t.words + present o.ext) h && o.t.ok 3 && extPlain o.ext
  | .addq h o => lenOk 0 (o.i.ws.length) h && decide (o.i.ws.length ≤ 4)
  | .la h o => lenOk 0 (o.i.ws.length) h && decide (o.i.ws.length ≤ 4) && decide (1 ≤ o.i.ws.length)
  | .mfcr h o => lenOk 0 (o.i.ws.length) h && decide (o.i.ws.length ≤ 4) && decide (o.i.nat ≤ 4095)
      && crListed o.i.nat && !crStream o.i.nat
  | .mfcrStream h o => lenOk 0 (o.i.ws.length) h && decide (o.i.ws.length ≤ 4) && decide (o.i.nat ≤ 4095)
      && crStream o.i.nat
  | .mtcr h o => lenOk 0 (o.i.ws.length) h && decide (o.i.ws.length ≤ 4) && decide (o.i.nat ≤ 4095)
      && crListed o.i.nat && !crOwnRow o.i.nat
  | .mtcrVl h o => lenOk 0 (o.i.ws.length) h && decide (o.i.ws.length ≤ 4) && decide (o.i.nat ≤ 4095) && o.i.nat == 0
  | .mtcrEfc h o => lenOk 0 (o.i.ws.length) h && decide (o.i.ws.length ≤ 4) && decide (o.i.nat ≤ 4095) && o.i.nat == 5
  | .mtcrFpcsr h o => lenOk 0 (o.i.ws.length) h && decide (o.i.ws.length ≤ 4) && decide (o.i.nat ≤ 4095)
      && o.i.nat == 6
  | .mtcrSlip h o => lenOk 0 (o.i.ws.length) h && decide (o.i.ws.length ≤ 4) && decide (o.i.nat ≤ 4095)
      && o.i.nat == 4
  | .mtcrSattr h o => lenOk 0 (o.i.ws.length) h && decide (o.i.ws.length ≤ 4) && decide (o.i.nat ≤ 4095)
      && o.i.nat == 16
  | .mtcrGangto h o => lenOk 0 (o.i.ws.length) h && decide (o.i.ws.length ≤ 4) && decide (o.i.nat ≤ 4095)
      && o.i.nat == 80
  | .brk h o => lenOk 0 (o.i.ws.length) h && decide (o.i.ws.length ≤ 4)
  | .ecall h o => lenOk 0 (o.i.ws.length) h && decide (o.i.ws.length ≤ 4)
  | .udf c => c.page == 0 && c.op == 30 && decide (c.ws.length + present c.ext + present c.mask + 1 ≤ c.len) && decide (c.len ≤ 5)
      && decide (c.len ≤ c.ws.length + present c.ext + present c.mask + 2) && (c.mask.elim true fun m => decide (m.toNat < 128))
  | .mulh h o => lenOk 1 (o.t.words + present o.ext) h && o.t.ok 3 && extPlain o.ext
  | .mulhu h o => lenOk 1 (o.t.words + present o.ext) h && o.t.ok 3 && extPlain o.ext
  | .div h o => lenOk 1 (o.t.words + present o.ext) h && o.t.ok 3 && extPlain o.ext
  | .divu h o => lenOk 1 (o.t.words + present o.ext) h && o.t.ok 3 && extPlain o.ext
  | .rem h o => lenOk 1 (o.t.words + present o.ext) h && o.t.ok 3 && extPlain o.ext
  | .remu h o => lenOk 1 (o.t.words + present o.ext) h && o.t.ok 3 && extPlain o.ext
  | .clz h _ => lenOk 1 (0) h
  | .ctz h _ => lenOk 1 (0) h
  | .popc h _ => lenOk 1 (0) h
  | .rotl h o => lenOk 1 (o.t.words + present o.ext) h && o.t.ok 3 && extPlain o.ext && o.t.within 0 63
  | .bext h o => lenOk 1 (o.t.words + present o.ext) h && o.t.ok 3 && extPlain o.ext
  | .bdep h o => lenOk 1 (o.t.words + present o.ext) h && o.t.ok 3 && extPlain o.ext
  | .min h o => lenOk 1 (o.t.words + present o.ext) h && o.t.ok 3 && extPlain o.ext
  | .max h o => lenOk 1 (o.t.words + present o.ext) h && o.t.ok 3 && extPlain o.ext
  | .minu h o => lenOk 1 (o.t.words + present o.ext) h && o.t.ok 3 && extPlain o.ext
  | .maxu h o => lenOk 1 (o.t.words + present o.ext) h && o.t.ok 3 && extPlain o.ext
  | .amoadd h o => lenOk 1 (1) h && widthWD o.ext.sel
  | .amoswap h o => lenOk 1 (1) h && widthWD o.ext.sel
  | .amocas h o => lenOk 1 (1) h && widthWD o.ext.sel
  | .amomax h o => lenOk 1 (1) h && widthWD o.ext.sel
  | .amoor h o => lenOk 1 (1) h && widthWD o.ext.sel
  | .amoand h o => lenOk 1 (1) h && widthWD o.ext.sel
  | .fadd h o => lenOk 1 (present o.ext) h && widthWD (extSel o.ext)
  | .fsub h o => lenOk 1 (present o.ext) h && widthWD (extSel o.ext)
  | .fmul h o => lenOk 1 (present o.ext) h && widthWD (extSel o.ext)
  | .fdiv h o => lenOk 1 (present o.ext) h && widthWD (extSel o.ext)
  | .fmadd h o => lenOk 1 (present o.ext) h && widthWD (extSel o.ext)
  | .fcmp h o => lenOk 1 (present o.ext) h && widthWD (extSel o.ext)
  | .fcvt h o => lenOk 1 (1 + present o.mask) h && noMask o.mask && fcvtPair o.src o.dst
  | .fsqrt h o => lenOk 1 (present o.ext) h && extNoC o.ext && widthWD (extSel o.ext)
  | .rdtime h o => lenOk 1 (o.i.ws.length) h && decide (o.i.ws.length ≤ 4) && (o.i.int == 0 || o.i.int == 1)
  | .vadd h o => lenOk 2 (o.t.words + present o.ext + present o.mask) h && o.t.ok 3 && widthInt (extSel o.ext)
      && maskOk false true o.mask
  | .vsub h o => lenOk 2 (o.t.words + present o.ext + present o.mask) h && o.t.ok 3 && widthInt (extSel o.ext)
      && maskOk false true o.mask
  | .vmul h o => lenOk 2 (o.t.words + present o.ext + present o.mask) h && o.t.ok 3 && widthInt (extSel o.ext)
      && maskOk false true o.mask
  | .vmulh h o => lenOk 2 (o.t.words + present o.ext + present o.mask) h && o.t.ok 3 && widthInt (extSel o.ext)
      && maskOk false true o.mask
  | .vand h o => lenOk 2 (o.t.words + present o.ext + present o.mask) h && o.t.ok 3 && widthInt (extSel o.ext)
      && maskOk false true o.mask
  | .vor h o => lenOk 2 (o.t.words + present o.ext + present o.mask) h && o.t.ok 3 && widthInt (extSel o.ext)
      && maskOk false true o.mask
  | .vxor h o => lenOk 2 (o.t.words + present o.ext + present o.mask) h && o.t.ok 3 && widthInt (extSel o.ext)
      && maskOk false true o.mask
  | .vsll h o => lenOk 2 (o.t.words + present o.ext + present o.mask) h && o.t.ok 3 && widthInt (extSel o.ext)
      && maskOk false true o.mask && o.t.within 0 (widthBits (extSel o.ext) - 1)
  | .vsrl h o => lenOk 2 (o.t.words + present o.ext + present o.mask) h && o.t.ok 3 && widthInt (extSel o.ext)
      && maskOk false true o.mask && o.t.within 0 (widthBits (extSel o.ext) - 1)
  | .vsra h o => lenOk 2 (o.t.words + present o.ext + present o.mask) h && o.t.ok 3 && widthInt (extSel o.ext)
      && maskOk false true o.mask && o.t.within 0 (widthBits (extSel o.ext) - 1)
  | .vmin h o => lenOk 2 (o.t.words + present o.ext + present o.mask) h && o.t.ok 3 && widthInt (extSel o.ext)
      && maskOk false true o.mask
  | .vmax h o => lenOk 2 (o.t.words + present o.ext + present o.mask) h && o.t.ok 3 && widthInt (extSel o.ext)
      && maskOk false true o.mask
  | .vminu h o => lenOk 2 (o.t.words + present o.ext + present o.mask) h && o.t.ok 3 && widthInt (extSel o.ext)
      && maskOk false true o.mask
  | .vmaxu h o => lenOk 2 (o.t.words + present o.ext + present o.mask) h && o.t.ok 3 && widthInt (extSel o.ext)
      && maskOk false true o.mask
  | .vaddsat h o => lenOk 2 (o.t.words + present o.ext + present o.mask) h && o.t.ok 3
      && widthInt (extSel o.ext) && maskOk false true o.mask
  | .vfadd h o => lenOk 2 (o.t.words + present o.ext + present o.mask) h && o.t.ok 3 && o.t.words == 0
      && widthFp (extSel o.ext) && maskOk true true o.mask
  | .vfsub h o => lenOk 2 (o.t.words + present o.ext + present o.mask) h && o.t.ok 3 && o.t.words == 0
      && widthFp (extSel o.ext) && maskOk true true o.mask
  | .vfmul h o => lenOk 2 (o.t.words + present o.ext + present o.mask) h && o.t.ok 3 && o.t.words == 0
      && widthFp (extSel o.ext) && maskOk true true o.mask
  | .vfdiv h o => lenOk 2 (o.t.words + present o.ext + present o.mask) h && o.t.ok 3 && o.t.words == 0
      && widthFp (extSel o.ext) && maskOk true true o.mask
  | .vfma h o => lenOk 2 (o.t.words + present o.ext + present o.mask) h && o.t.ok 3 && o.t.words == 0
      && widthFp (extSel o.ext) && maskOk true true o.mask && o.ext.isSome
  | .vfmin h o => lenOk 2 (o.t.words + present o.ext + present o.mask) h && o.t.ok 3 && o.t.words == 0
      && widthFp (extSel o.ext) && maskOk true true o.mask
  | .vfmax h o => lenOk 2 (o.t.words + present o.ext + present o.mask) h && o.t.ok 3 && o.t.words == 0
      && widthFp (extSel o.ext) && maskOk true true o.mask
  | .vfsqrt h o => lenOk 2 (present o.ext + present o.mask) h && extNoC o.ext && widthFp (extSel o.ext)
      && maskOk true true o.mask
  | .vfexp2 h o => lenOk 2 (present o.ext + present o.mask) h && extNoC o.ext && widthFp (extSel o.ext)
      && maskOk true true o.mask
  | .vcmp h o => lenOk 2 (o.i.ws.length + 1 + present o.mask) h && decide (o.i.ws.length ≤ 1) && predOk o.p
      && o.i.field 9 4 == 0 && widthInt o.ext.sel && maskOk false true o.mask && decide (o.i.field 5 4 ≤ 5)
  | .vfcmp h o => lenOk 2 (o.i.ws.length + 1 + present o.mask) h && decide (o.i.ws.length ≤ 1) && predOk o.p
      && o.i.field 9 4 == 0 && widthFp o.ext.sel && maskOk false true o.mask && decide (o.i.field 5 4 ≤ 7)
  | .vsel h o => lenOk 2 (o.t.words + present o.ext + present o.mask) h && o.t.ok 3 && widthAny (extSel o.ext)
      && maskOk false false o.mask
  | .vbcast h o => lenOk 2 (o.t.words + present o.ext + present o.mask) h && o.t.ok 3 && extNoC o.ext
      && widthAny (extSel o.ext) && maskOk false true o.mask
  | .vid h o => lenOk 2 (o.t.words + present o.ext + present o.mask) h && o.t.ok 3 && extNoC o.ext
      && o.t == .reg 0 && widthInt (extSel o.ext) && maskOk false true o.mask
  | .vmerge h o => lenOk 2 (present o.ext + present o.mask) h && extNoC o.ext && widthAny (extSel o.ext)
      && maskOk false true o.mask
  | .vclass h o => lenOk 2 (present o.ext + present o.mask) h && extNoC o.ext && widthFp (extSel o.ext)
      && maskOk false true o.mask
  | .vld h o => lenOk 3 (o.t.words + present o.ext + present o.mask) h && o.t.ok 3 && widthAny (extSel o.ext)
      && maskOk true true o.mask
  | .vlds h o => lenOk 3 (1 + present o.mask) h && widthAny o.ext.sel && maskOk true true o.mask
  | .vldx h o => lenOk 3 (1 + present o.mask) h && widthAny o.ext.sel && maskOk true true o.mask
  | .vst h o => lenOk 3 (o.t.words + present o.ext + present o.mask) h && o.t.ok 3 && widthAny (extSel o.ext)
      && maskOk false true o.mask
  | .vsts h o => lenOk 3 (1 + present o.mask) h && widthAny o.ext.sel && maskOk false true o.mask
  | .vstx h o => lenOk 3 (1 + present o.mask) h && widthAny o.ext.sel && maskOk false true o.mask
  | .vlsp h o => lenOk 3 (o.t.words + present o.ext + present o.mask) h && o.t.ok 3 && widthAny (extSel o.ext)
      && maskOk true true o.mask
  | .vlspx h o => lenOk 3 (1 + present o.mask) h && widthAny o.ext.sel && maskOk true true o.mask
  | .vssp h o => lenOk 3 (o.t.words + present o.ext + present o.mask) h && o.t.ok 3 && widthAny (extSel o.ext)
      && maskOk false true o.mask
  | .vsspx h o => lenOk 3 (1 + present o.mask) h && widthAny o.ext.sel && maskOk false true o.mask
  | .vlspc h o => lenOk 3 (o.t.words + present o.ext + present o.mask) h && o.t.ok 3 && widthAny (extSel o.ext)
      && maskOk false true o.mask
  | .vldc h o => lenOk 3 (o.t.words + present o.ext + present o.mask) h && o.t.ok 3 && widthAny (extSel o.ext)
      && maskOk false true o.mask
  | .vstc h o => lenOk 3 (1 + present o.mask) h && widthAny o.ext.sel && maskOk false true o.mask
  | .vperm h o => lenOk 3 (o.t.words + present o.ext + present o.mask) h && o.t.ok 3 && o.t.words == 0
      && widthAny (extSel o.ext) && maskOk false true o.mask
  | .vslide h o => lenOk 3 (o.t.words + 1 + present o.mask) h && o.t.ok 3 && widthAny o.ext.sel
      && maskOk false true o.mask
  | .vredsum h o => lenOk 3 (present o.ext + present o.mask) h && extNoC o.ext && widthInt (extSel o.ext)
      && maskOk false false o.mask
  | .vredmax h o => lenOk 3 (present o.ext + present o.mask) h && extNoC o.ext && widthInt (extSel o.ext)
      && maskOk false false o.mask
  | .vredmin h o => lenOk 3 (present o.ext + present o.mask) h && extNoC o.ext && widthInt (extSel o.ext)
      && maskOk false false o.mask
  | .vfredsum h o => lenOk 3 (present o.ext + present o.mask) h && extNoC o.ext && widthFp (extSel o.ext)
      && maskOk false false o.mask
  | .vscan h o => lenOk 3 (present o.ext + present o.mask) h && extNoC o.ext && widthInt (extSel o.ext)
      && maskOk false true o.mask
  | .vcompress h o => lenOk 3 (present o.ext + present o.mask) h && extNoC o.ext && widthAny (extSel o.ext)
      && maskOk false true o.mask
  | .vappend h o => lenOk 3 (present o.ext + present o.mask) h && extNoC o.ext && widthAny (extSel o.ext)
      && maskOk false true o.mask
  | .vcvt h o => lenOk 3 (1 + present o.mask) h && maskOk false true o.mask && vcvtPair o.src o.dst
      && mxRegOk o.src o.b && mxRegOk o.dst o.a
  | .vcvtef h o => lenOk 3 (1 + present o.mask) h && maskOk false true o.mask && vcvtefPair o.src o.dst
  | .plog h o => lenOk 3 (1) h && predOk o.a && predOk o.b && predOk o.c
  | .pcnt h o => lenOk 3 (present o.mask) h && predOk o.p && maskOk false false o.mask
  | .pfirst h o => lenOk 3 (present o.mask) h && predOk o.p && maskOk false false o.mask
  | .setvl h o => lenOk 3 (o.t.words + present o.ext) h && o.t.ok 3 && extNoC o.ext && widthAny (extSel o.ext)
  | .vmvx h o => lenOk 3 (o.t.words + 1 + present o.mask) h && o.t.ok 3 && widthAny o.ext.sel && noMask o.mask
  | .vmvv h o => lenOk 3 (present o.ext + present o.mask) h && extNoC o.ext && widthAny (extSel o.ext)
      && maskOk false true o.mask
  | .vfault h o => lenOk 3 (0) h && predOk o.p
  | .vectorAddressStage _ => false
  | .clusterExecuteEntry _ _ _ _ _ => false
  | .mcfg h _ => lenOk 4 (0) h
  | .mscl h _ => lenOk 4 (0) h
  | .mgrp h _ => lenOk 4 (0) h
  | .mclr h o => lenOk 4 (o.i.ws.length) h && decide (o.i.ws.length ≤ 1) && o.i.field 1 12 == 0
  | .mma h o => lenOk 4 (o.i.ws.length + 1) h && decide (o.i.ws.length ≤ 1) && o.ext.sel == 0
      && o.i.field 9 4 == 0 && o.ext.c != 31
  | .gangStall _ => false
  | .mmaGroupStep _ => false
  | .mldacc h o => lenOk 4 (o.i.ws.length + 1) h && decide (o.i.ws.length ≤ 1) && o.ext.sel == 0
      && o.i.field 2 11 == 0 && o.ext.c != 31
  | .mdrn h o => lenOk 4 (o.i.ws.length + 1) h && decide (o.i.ws.length ≤ 1) && o.ext.sel == 0
      && o.i.field 6 7 == 0 && predOrAll (o.i.field 2 4) && (o.i.field 1 1 == 0 || o.i.field 2 4 == 15)
      && o.ext.c != 31
  | .mdrnx h o => lenOk 4 (o.i.ws.length + 1) h && decide (o.i.ws.length ≤ 1) && o.ext.sel == 0
      && o.i.field 10 3 == 0 && predOrAll (o.i.field 6 4)
  | .drainLine _ => false
  | .mstat h o => lenOk 4 (o.i.ws.length) h && decide (o.i.ws.length ≤ 1) && o.i.field 1 12 == 0
  | .mstclr h o => lenOk 4 (o.i.ws.length) h && decide (o.i.ws.length ≤ 1) && o.i.field 1 12 == 0 && o.a == 0
  | .cpy h o => lenOk 5 (o.t.words + 1) h && o.t.ok 2 && o.t.within 0 (2 ^ 40) && o.ext.c != 31 && o.ext.sel == 0
  | .cpy2 h o => lenOk 5 (o.t.words + 1) h && o.t.ok 2 && o.t.within 0 (2 ^ 40) && o.ext.c != 31 && o.ext.sel == 0
  | .cpypToScratch h o => lenOk 5 (o.t.words + 1) h && o.t.ok 2 && o.t.within 0 (2 ^ 40) && o.ext.c != 31
      && o.ext.sel == 0
  | .cpypFromScratch h o => lenOk 5 (o.t.words + 1) h && o.t.ok 2 && o.t.within 0 (2 ^ 40) && o.ext.c != 31
      && o.ext.sel == 1
  | .cpykGet h o => lenOk 5 (1) h && decide (o.ext.c.toNat ≤ 29) && o.ext.sel == 0
  | .cpykPut h o => lenOk 5 (1) h && decide (o.ext.c.toNat ≤ 29) && o.ext.sel == 1
  | .copyUnit _ => false
  | .coll h o => lenOk 5 (o.t.words + 1) h && o.t.ok 2 && o.t.within 0 (2 ^ 40) && o.ext.c != 31 && o.ext.sel == 0
  | .collStepBegin _ => false
  | .collNoticeArrival _ => false
  | .collNoticeResend _ => false
  | .collNoticeTimeout _ => false
  | .swait h _ => lenOk 5 (0) h
  | .stest h _ => lenOk 5 (0) h
  | .scancel h _ => lenOk 5 (0) h
  | .sdetach h _ => lenOk 5 (0) h
  | .sprio h _ => lenOk 5 (0) h
  | .sfault h o => lenOk 5 (0) h && o.a != 0 && decide (o.a.toNat ≤ 28)
  | .sadopt h _ => lenOk 5 (0) h
  | .swaitall h => lenOk 5 (0) h
  | .sleepu h _ => lenOk 5 (0) h
  | .spromise h o => lenOk 5 (1) h && o.ext.sel == 0
  | .sattr h o => lenOk 5 (o.i.ws.length) h && decide (o.i.ws.length ≤ 4) && o.a == 0 && decide (0 ≤ o.i.int)
      && decide (o.i.ws.length ≤ 3)
  | .cdrain h o => lenOk 5 (o.t.words + 1) h && o.t.ok 2 && o.t.within 0 (2 ^ 40) && o.ext.sel == 0
  | .parkWake _ => false
  | .satelliteLaunch _ => false
  | .satelliteBegin _ => false
  | .satellitePriorityAging _ => false
  | .promiseMiss _ => false
  | .kld h o => lenOk 6 (o.t.words + present o.ext + present o.mask) h && o.t.ok 3 && noMask o.mask
      && extPlain o.ext && decide (o.a.toNat < 16)
  | .kst h o => lenOk 6 (o.t.words + present o.ext + present o.mask) h && o.t.ok 3 && noMask o.mask
      && extPlain o.ext && decide (o.a.toNat < 16)
  | .kmov h _ => lenOk 6 (0) h
  | .knarrow h o => lenOk 6 (1) h && o.ext.sel == 0 && o.ext.c != 31
  | .krights h o => lenOk 6 (1) h && o.ext.sel == 0
  | .kgive h o => lenOk 6 (1) h && o.ext.sel == 0
  | .kpaths h o => lenOk 6 (1) h && o.ext.sel == 0
  | .kinfo h o => lenOk 6 (present o.ext) h && extNoC o.ext && decide ((extSel o.ext).toNat ≤ 3)
  | .rld h o => lenOk 6 (1 + present o.mask) h && noMask o.mask && decide (o.ext.sel.toNat ≤ 6)
  | .rst h o => lenOk 6 (1 + present o.mask) h && noMask o.mask && decide (o.ext.sel.toNat ≤ 3)
  | .ramoAdd h o => lenOk 6 (1 + present o.mask) h && noMask o.mask && o.ext.sel == 0
  | .ramoSwap h o => lenOk 6 (1 + present o.mask) h && noMask o.mask && o.ext.sel == 1
  | .ramoCas h o => lenOk 6 (1 + present o.mask) h && noMask o.mask && o.ext.sel == 2 && o.a != 31
  | .ramoMax h o => lenOk 6 (1 + present o.mask) h && noMask o.mask && o.ext.sel == 3
  | .ramoOr h o => lenOk 6 (1 + present o.mask) h && noMask o.mask && o.ext.sel == 4
  | .ramoAnd h o => lenOk 6 (1 + present o.mask) h && noMask o.mask && o.ext.sel == 5
  | .ramoAddn h o => lenOk 6 (1 + present o.mask) h && noMask o.mask && o.ext.sel == 6 && o.a != 31
  | .rvld h o => lenOk 6 (1 + present o.mask) h && widthAny o.ext.sel && maskOk false true o.mask
  | .rvst h o => lenOk 6 (1 + present o.mask) h && widthAny o.ext.sel && maskOk false true o.mask
  | .send h o => lenOk 6 (1) h && o.ext.sel == 0
  | .sendR h o => lenOk 6 (1) h && o.ext.sel == 1 && o.k != 15
  | .sendr h o => lenOk 6 (1) h && o.ext.sel == 0
  | .hclr h o => lenOk 6 (o.t.words + present o.ext) h && o.t.ok 1 && extPlain o.ext && o.ext.isNone && hidOk o.t
  | .hset h o => lenOk 6 (o.t.words + present o.ext) h && o.t.ok 1 && extPlain o.ext && o.ext.isSome && hidOk o.t
  | .hret h => lenOk 6 (0) h
  | .hmask h o => lenOk 6 (o.t.words + present o.ext) h && o.t.ok 1 && extPlain o.ext && o.ext.isSome && hidOk o.t
  | .sqfree h o => lenOk 6 (o.i.ws.length) h && decide (o.i.ws.length ≤ 4) && (o.i.int == 0 || o.i.int == 1)
  | .spawn h o => lenOk 6 (1) h && o.ext.sel == 0 && decide (o.cls.toNat ≤ 5)
  | .spawnQueue _ => false
  | .exit h => lenOk 6 (0) h
  | .yield h => lenOk 6 (0) h
  | .jdec h _ => lenOk 6 (0) h
  | .rett h => lenOk 7 (0) h
  | .mfpr h o => lenOk 7 (o.i.ws.length) h && decide (o.i.ws.length ≤ 4) && decide (o.i.nat ≤ 4095)
  | .mtpr h o => lenOk 7 (o.i.ws.length) h && decide (o.i.ws.length ≤ 4) && decide (o.i.nat ≤ 4095)
      && o.i.nat != 0x180
  | .mtprMchkClear h o => lenOk 7 (o.i.ws.length) h && decide (o.i.ws.length ≤ 4) && decide (o.i.nat ≤ 4095)
      && o.i.nat == 384
  | .tlbi h o => lenOk 7 (1) h && o.ext.sel == 0
  | .icinv h => lenOk 7 (0) h
  | .cflush h o => lenOk 7 (1) h && decide (o.ext.sel.toNat ≤ 5)
  | .ctxsave h _ => lenOk 7 (0) h
  | .ctxload h _ => lenOk 7 (0) h
  | .rgnbindBind h o => lenOk 7 (1) h && o.ext.sel == 0
  | .rgnbindReload h o => lenOk 7 (1) h && o.ext.sel == 0
  | .rgnbindEnd h o => lenOk 7 (1) h && o.ext.sel == 0
  | .qmap h o => lenOk 7 (1) h && o.ext.sel == 0
  | .trcctl h o => lenOk 7 (1) h && o.ext.sel == 0
  | .kmint h _ => lenOk 7 (0) h
  | .krekeyAdvance h _ => lenOk 7 (0) h
  | .krekeyRotate h _ => lenOk 7 (0) h
  | .wfi h => lenOk 7 (0) h
  | .pstateSet h o => lenOk 7 (o.t.words) h && o.t.ok 1
  | .pstateRead h o => lenOk 7 (o.t.words) h && o.t.ok 1
  | .longLatencyResult _ _ => false
  | .storeHomeFailure _ => false
  | .eventBoundary _ => false
  | .messageAccept _ => false
  | .handlerStart _ _ _ => false
  | .handlerBusyTimeout _ => false
  | .handlerCycleLimit _ => false
  | .sendAck _ => false
  | .messageReturn _ => false
  | .replyAccept _ => false
  | .remoteResponse _ => false
  | .ingressPacket _ => false
  | .egressCheck _ => false
  | .vaultForward _ => false
  | .retransmit _ => false
  | .endToEndFailure _ => false
  | .streamStateRelease _ _ _ => false
  | .flitReceive _ _ _ => false
  | .ackTimeout _ _ => false
  | .linkRetrain _ _ _ => false
  | .beaconExchange _ _ _ _ _ => false
  | .meridianFreeRun _ => false
  | .referenceFailover _ => false
  | .keywrightTakeover _ => false
  | .rotationAcknowledged => false
  | .tagGraceExpiry => false
  | .slotBoundary _ _ _ => false
  | .queueAging _ _ _ => false
  | .threadPlace _ _ _ _ _ => false
  | .threadQuantum _ => false
  | .timeBudgetSpent _ _ => false
  | .timePeriodBegin _ _ => false
  | .lifetimeBudget _ _ _ => false
  | .contextSaveStage2 _ => false
  | .drainLimitExpiry _ => false
  | .scratchpadMove _ _ _ _ _ _ => false
  | .launchBind _ => false
  | .launchCreateThread _ => false
  | .launchEndRegion _ => false
  | .launchReload _ => false
  | .hostQueueWrite _ _ _ => false
  | .traceSample _ _ _ => false
  | .traceFlush _ _ => false
  | .powerEvent _ _ _ _ => false
  | .captureEnd _ _ => false
  | .energyMeter _ _ _ _ _ => false
  | .powerLimitStep _ _ _ => false
  | .thermalThrottle _ _ _ => false
  | .thermalTrip _ _ => false
  | .scrub _ => false
  | .uncorrectableError _ _ _ _ _ _ => false
  | .reset _ _ _ => false
  | .attestationRequest _ _ => false
  | .joinDecrement _ => false
  | .tlbiDone _ => false
  | .mldaccLine _ => false
  | .injectionRelease _ => false
  | .portReset _ _ => false
  | .hostInterfaceTakeover _ => false

end Sys2Proof
end

