-- ==== Sys2Proof/Decode.lean ====
section
/-! DEFINITION. Sys2Proof/Decode.lean: from halfwords to an instruction or a named refusal, in the order of spec/03
R75 (steps 2, 3, 5 and 6; step 1 is the fetch and step 4 the privilege check, both in `Machine/Fetch.lean`), and after
it the encoder, written from the same tables (R68 to R72, R76, R83 to R85). -/

namespace Sys2Proof

/-- Why a chain is refused, each with its step and cause of R75. -/
inductive Reject where
  /-- No base word among the halfwords given: not a chain yet. -/
  | unfinished
  /-- Step 2: a prefix with W = 1. -/
  | prefixWait
  /-- Step 2: a fifth prefix. -/
  | fifthPrefix
  /-- Step 2: a second PAGE, EXT or MASK. -/
  | secondPrefix
  /-- Step 2: MASK [7] set. -/
  | maskReserved
  /-- Step 3: PAGE from 8 to 255. -/
  | badPage
  /-- Step 3: a reserved opcode. -/
  | reservedOpcode
  /-- Step 5: a prefix that the class does not accept, or too many IMM words. -/
  | notAccepted
  /-- Step 6: a required prefix missing. -/
  | missingPrefix
  /-- Step 6: a field, register, width, code or immediate out of its limits. -/
  | badField
  deriving DecidableEq, Repr

/-- The cause that R75 gives for the refusal: 0x02 at steps 2 and 5, 0x01 at steps 3 and 6. -/
def Reject.cause : Reject → Nat
  | .prefixWait | .fifthPrefix | .secondPrefix | .maskReserved | .notAccepted | .unfinished => 0x02
  | .badPage | .reservedOpcode | .missingPrefix | .badField => 0x01

/-! ### Halfwords (R68, R69) -/

/-- Bits [14:10]. -/
def Half.op (w : Half) : BitVec 5 := w.extractLsb' 10 5
/-- Bits [9:5]. -/
def Half.b (w : Half) : BitVec 5 := w.extractLsb' 5 5
/-- Bits [4:0]. -/
def Half.a (w : Half) : BitVec 5 := w.extractLsb' 0 5
/-- Bit [15], the wait marker. -/
def Half.w (w : Half) : Bool := w.getLsbD 15
/-- The kind of a prefix word, bits [9:8]. -/
def Half.kind (w : Half) : BitVec 2 := w.extractLsb' 8 2
/-- The payload of a prefix word, bits [7:0]. -/
def Half.payload (w : Half) : Byte := w.extractLsb' 0 8
/-- OP 31 marks a prefix word. -/
def Half.isPfx (w : Half) : Bool := w.op == 31

/-- The prefixes read so far. -/
structure Pfx where
  n    : Nat
  page : Option Byte
  ws   : List Byte
  ext  : Option Byte
  mask : Option Byte
  deriving DecidableEq, Repr

/-- No prefix yet. -/
def Pfx.start : Pfx := ⟨0, none, [], none, none⟩

/-- One more prefix word, under the rules of R70 and R74. -/
def Pfx.add (p : Pfx) (w : Half) : Except Reject Pfx :=
  if w.w then .error .prefixWait
  else if 4 ≤ p.n then .error .fifthPrefix
  else match w.kind.toNat with
    | 0 => .ok { p with n := p.n + 1, ws := p.ws ++ [w.payload] }
    | 1 => if p.ext.isSome then .error .secondPrefix else .ok { p with n := p.n + 1, ext := some w.payload }
    | 2 => if p.page.isSome then .error .secondPrefix else .ok { p with n := p.n + 1, page := some w.payload }
    | _ => if p.mask.isSome then .error .secondPrefix
           else if w.payload.getLsbD 7 then .error .maskReserved
           else .ok { p with n := p.n + 1, mask := some w.payload }

/-- The chain that a base word ends (R70, R71). -/
def Pfx.close (p : Pfx) (w : Half) : Chain :=
  ⟨w.w, p.n + 1, p.page.getD 0, p.ws, p.ext, p.mask, w.op, w.b, w.a⟩

/-- Step 2 of R75: prefixes up to the first base word. -/
def parseFrom (p : Pfx) : List Half → Except Reject Chain
  | [] => .error .unfinished
  | w :: rest =>
    if w.isPfx then
      match p.add w with
      | .error e => .error e
      | .ok p' => parseFrom p' rest
    else .ok (p.close w)

/-- The chain at the head of a list of halfwords. -/
def parseChain (hs : List Half) : Except Reject Chain := parseFrom .start hs

/-! ### What a class accepts (R76) -/

/-- Whether a class takes an EXT prefix. -/
inductive ExtRule where
  | no | opt | req
  deriving DecidableEq, Repr

/-- The prefixes a class accepts and needs: least and greatest number of IMM words, EXT, MASK. -/
structure Accepts where
  immMin : Nat
  immMax : Nat
  ext    : ExtRule
  mask   : Bool
  deriving DecidableEq, Repr

/-- Step 5, then the first condition of step 6, of R75. -/
def Accepts.refuses (r : Accepts) (c : Chain) : Option Reject :=
  if r.immMax < c.ws.length || (r.ext == .no && c.ext.isSome) || (!r.mask && c.mask.isSome) then some .notAccepted
  else if c.ws.length < r.immMin || (r.ext == .req && c.ext.isNone) then some .missingPrefix
  else none

/-! ### Fields of a chain -/

/-- The header of a chain. -/
def Chain.hdr (c : Chain) : Hdr := ⟨c.wait, c.len⟩
/-- The EXT payload cut into [7:5] and C. -/
def extOf (e : Byte) : Ext := ⟨e.extractLsb' 5 3, e.extractLsb' 0 5⟩
/-- The MASK payload cut into its fields; bit [7] is zero (R69, R74). -/
def maskOf (m : Byte) : Mask := ⟨m.getLsbD 6, m.getLsbD 5, m.getLsbD 4, m.extractLsb' 0 4⟩
/-- The EXT of a class that requires it. -/
def Chain.extReq (c : Chain) : Ext := extOf (c.ext.getD 0)
/-- The EXT of a class in which it is optional. -/
def Chain.extOpt (c : Chain) : Option Ext := c.ext.map extOf
/-- The MASK, if any. -/
def Chain.maskOpt (c : Chain) : Option Mask := c.mask.map maskOf
/-- The immediate of a class whose B field is always immediate. -/
def Chain.imm (c : Chain) : Imm := ⟨c.ws, c.b⟩
/-- A B field that is a register without IMM words and an immediate with them (R72). -/
def Chain.regImm (c : Chain) : RegImm := if c.ws.isEmpty then .reg c.b else .imm c.imm

/-- A `k` register, or a predicate whose bit [4] must be 0: a value from 16 to 31 is refused (R63, R76). -/
def narrow4 (r : BitVec 5) : Option Reg4 := if r.toNat < 16 then some (r.setWidth 4) else none

/-- A field that must hold zero (R76). -/
def mustZero {α : Type} (f : BitVec 5) (v : α) : Option α := if f = 0 then some v else none

/-! ### One builder for each class (R76) -/

/-- The operands of class RRI (R76). -/
def Chain.asRRI (c : Chain) : RRI := ⟨c.a, c.regImm, c.extOpt⟩
/-- The operands of class RU (R76). -/
def Chain.asRU (c : Chain) : RU := ⟨c.a, c.b⟩
/-- The operands of class LI (R76). -/
def Chain.asLI (c : Chain) : LI := ⟨c.a, c.imm⟩
/-- The operands of class BR (R76). -/
def Chain.asBR (c : Chain) : BR := ⟨c.a, c.b, c.ws⟩
/-- The operands of class ADR (R76). -/
def Chain.asADR (c : Chain) : ADR := ⟨c.a, c.regImm, c.extOpt, c.maskOpt⟩
/-- The operands of class AMO (R76). -/
def Chain.asAMO (c : Chain) : AMO := ⟨c.a, c.b, c.extReq⟩
/-- The operands of class CRN (R76). -/
def Chain.asCRN (c : Chain) : CRN := ⟨c.a, c.imm⟩
/-- The operands of class FRR (R76). -/
def Chain.asFRR (c : Chain) : FRR := ⟨c.a, c.b, c.extOpt⟩
/-- The operands of class FRU (R76). -/
def Chain.asFRU (c : Chain) : FRU := ⟨c.a, c.b, c.extOpt⟩
/-- The operands of class CVT (R76). -/
def Chain.asCVT (c : Chain) : CVT := ⟨c.a, c.b, (c.ext.getD 0).extractLsb' 4 4, (c.ext.getD 0).extractLsb' 0 4, c.maskOpt⟩
/-- The operands of class VRR (R76). -/
def Chain.asVRR (c : Chain) : VRR := ⟨c.a, c.regImm, c.extOpt, c.maskOpt⟩
/-- The operands of class VU (R76). -/
def Chain.asVU (c : Chain) : VU := ⟨c.a, c.b, c.extOpt, c.maskOpt⟩
/-- The operands of class VBC (R76). -/
def Chain.asVBC (c : Chain) : VBC := ⟨c.a, c.regImm, c.extOpt, c.maskOpt⟩
/-- The operands of class VST (R76). -/
def Chain.asVST (c : Chain) : VST := ⟨c.a, c.b, c.extReq, c.maskOpt⟩
/-- The operands of class VXS (R76). -/
def Chain.asVXS (c : Chain) : VXS := ⟨c.a, c.regImm, c.extReq, c.maskOpt⟩
/-- The operands of class SVL (R76). -/
def Chain.asSVL (c : Chain) : SVL := ⟨c.a, c.regImm, c.extOpt⟩
/-- The operands of class MIM (R76). -/
def Chain.asMIM (c : Chain) : MIM := ⟨c.a, c.imm⟩
/-- The operands of class MTL (R76). -/
def Chain.asMTL (c : Chain) : MTL := ⟨c.a, c.imm, c.extReq⟩
/-- The operands of class SCP (R76). -/
def Chain.asSCP (c : Chain) : SCP := ⟨c.a, c.regImm, c.extReq⟩
/-- The operands of class TLB (R76). -/
def Chain.asTLB (c : Chain) : TLB := ⟨c.a, c.b, c.extReq⟩
/-- The operands of class RB (R76). -/
def Chain.asRB (c : Chain) : RB := ⟨c.a, c.regImm⟩
/-- The operands of class JL (R76). -/
def Chain.asJL (c : Chain) : Option JL := mustZero c.b ⟨c.a, c.ws⟩
/-- The operands of class FEN (R76). -/
def Chain.asFEN (c : Chain) : Option FEN := mustZero c.b ()
    |>.bind fun _ => if c.a.toNat < 4 then some ⟨c.a.setWidth 2, c.extOpt⟩ else none
/-- The operands of class COD (R76). -/
def Chain.asCOD (c : Chain) : Option COD := mustZero c.a ⟨c.imm⟩
/-- The operands of class VCM (R76). -/
def Chain.asVCM (c : Chain) : Option VCM := (narrow4 c.a).map fun p => ⟨p, c.imm, c.extReq, c.maskOpt⟩
/-- The operands of class PLG (R76). -/
def Chain.asPLG (c : Chain) : Option PLG := (narrow4 c.a).bind fun a => (narrow4 c.b).bind fun b => (narrow4 c.extReq.c).map fun k => ⟨a, b, k, c.extReq.sel⟩
/-- The operands of class PCT (R76). -/
def Chain.asPCT (c : Chain) : Option PCT := (narrow4 c.b).map fun p => ⟨c.a, p, c.maskOpt⟩
/-- The operands of class VFL (R76). -/
def Chain.asVFL (c : Chain) : Option VFL := (mustZero c.b ()).bind fun _ => (narrow4 c.a).map fun p => ⟨p⟩
/-- The operands of class XB (R76). -/
def Chain.asXB (c : Chain) : Option XB := mustZero c.a ⟨c.b⟩
/-- The operands of class XBC (R76). -/
def Chain.asXBC (c : Chain) : Option XBC := mustZero c.a ⟨c.b, c.extReq⟩
/-- The operands of class SKY (R76). -/
def Chain.asSKY (c : Chain) : Option SKY := (narrow4 c.b).map fun k => ⟨c.a, k, c.extReq⟩
/-- The operands of class SPR (R76). -/
def Chain.asSPR (c : Chain) : Option SPR := if c.a.toNat < 8 then some ⟨c.a.setWidth 3, c.b⟩ else none
/-- The operands of class KK (R76). -/
def Chain.asKK (c : Chain) : Option KK := (narrow4 c.a).bind fun a => (narrow4 c.b).map fun b => ⟨a, b⟩
/-- The operands of class KKX (R76). -/
def Chain.asKKX (c : Chain) : Option KKX := (narrow4 c.a).bind fun a => (narrow4 c.b).map fun b => ⟨a, b, c.extReq⟩
/-- The operands of class KIN (R76). -/
def Chain.asKIN (c : Chain) : Option KIN := (narrow4 c.b).map fun k => ⟨c.a, k, c.extOpt⟩
/-- The operands of class RMT (R76). -/
def Chain.asRMT (c : Chain) : Option RMT := (narrow4 c.b).map fun k => ⟨c.a, k, c.extReq, c.maskOpt⟩
/-- The operands of class MSG (R76). -/
def Chain.asMSG (c : Chain) : Option MSG := (narrow4 c.b).map fun k => ⟨c.a, k, c.extReq⟩
/-- The operands of class HID (R76). -/
def Chain.asHID (c : Chain) : Option HID := mustZero c.a ⟨c.regImm, c.extOpt⟩
/-- The operands of class SPN (R76). -/
def Chain.asSPN (c : Chain) : Option SPN := if c.a.toNat < 8 then some ⟨c.a.setWidth 3, c.b, c.extReq⟩ else none
/-- The operands of class CFL (R76). -/
def Chain.asCFL (c : Chain) : Option CFL := mustZero c.a ⟨c.b, c.extReq⟩
/-- The operands of class KB (R76). -/
def Chain.asKB (c : Chain) : Option KB := (narrow4 c.a).map fun a => ⟨a, c.b⟩
/-- Class NON: A and B must be zero (R76). -/
def Chain.asNON (c : Chain) : Option Unit := (mustZero c.a ()).bind fun _ => mustZero c.b ()

/-! ### Opcodes that several rows share -/

/-- `mfcr`: the row of the stream registers, or the plain one (R67, R182). -/
def mfcrRow (h : Hdr) (o : CRN) : Instr := if crStream o.i.nat then .mfcrStream h o else .mfcr h o

/-- `mtcr`: the row of the register that number n names (R183). -/
def mtcrRow (h : Hdr) (o : CRN) : Instr :=
  match o.i.nat with
  | 0 => .mtcrVl h o
  | 4 => .mtcrSlip h o
  | 5 => .mtcrEfc h o
  | 6 => .mtcrFpcsr h o
  | 16 => .mtcrSattr h o
  | 80 => .mtcrGangto h o
  | _ => .mtcr h o

/-- `mtpr`: `mchk` has a row of its own (R367, R467). -/
def mtprRow (h : Hdr) (o : CRN) : Instr := if o.i.nat = 0x180 then .mtprMchkClear h o else .mtpr h o

/-- `ramo`: one row for each operation of R82; 111 is reserved. -/
def ramoRow (h : Hdr) (o : RMT) : Option Instr :=
  match o.ext.sel.toNat with
  | 0 => some (.ramoAdd h o)
  | 1 => some (.ramoSwap h o)
  | 2 => some (.ramoCas h o)
  | 3 => some (.ramoMax h o)
  | 4 => some (.ramoOr h o)
  | 5 => some (.ramoAnd h o)
  | 6 => some (.ramoAddn h o)
  | _ => none

/-- `cpyp`: EXT [5] is the direction (R272). -/
def cpypRow (h : Hdr) (o : SCP) : Instr := if o.ext.sel == 1 then .cpypFromScratch h o else .cpypToScratch h o

/-- `cpyk`: EXT [5] is 0 for get and 1 for put (R280). -/
def cpykRow (h : Hdr) (o : SKY) : Instr := if o.ext.sel == 1 then .cpykPut h o else .cpykGet h o

/-- `send`: EXT [5] attaches a reply key (R76). -/
def sendRow (h : Hdr) (o : MSG) : Instr := if o.ext.sel == 1 then .sendR h o else .send h o

/-! ### The opcode map (R83 to R85) -/

/-- The rule and the builder of an opcode of page 0; the same for the other pages. -/
abbrev OpEntry := Accepts × (Chain → Option Instr)

/-- Page 0 (R83). -/
def page0 : Nat → Option OpEntry
  | 0 => some (⟨0, 3, .opt, false⟩, fun c => some (.add c.hdr c.asRRI))
  | 1 => some (⟨0, 3, .opt, false⟩, fun c => some (.sub c.hdr c.asRRI))
  | 2 => some (⟨0, 3, .opt, false⟩, fun c => some (.and c.hdr c.asRRI))
  | 3 => some (⟨0, 3, .opt, false⟩, fun c => some (.or c.hdr c.asRRI))
  | 4 => some (⟨0, 3, .opt, false⟩, fun c => some (.xor c.hdr c.asRRI))
  | 5 => some (⟨0, 3, .opt, false⟩, fun c => some (.sll c.hdr c.asRRI))
  | 6 => some (⟨0, 3, .opt, false⟩, fun c => some (.srl c.hdr c.asRRI))
  | 7 => some (⟨0, 3, .opt, false⟩, fun c => some (.sra c.hdr c.asRRI))
  | 8 => some (⟨0, 3, .opt, false⟩, fun c => some (.slt c.hdr c.asRRI))
  | 9 => some (⟨0, 3, .opt, false⟩, fun c => some (.sltu c.hdr c.asRRI))
  | 10 => some (⟨0, 4, .no, false⟩, fun c => some (.li c.hdr c.asLI))
  | 11 => some (⟨0, 4, .no, false⟩, fun c => some (.lhi c.hdr c.asLI))
  | 12 => some (⟨0, 3, .opt, false⟩, fun c => some (.ld c.hdr c.asADR))
  | 13 => some (⟨0, 3, .opt, false⟩, fun c => some (.st c.hdr c.asADR))
  | 14 => some (⟨1, 4, .no, false⟩, fun c => some (.beq c.hdr c.asBR))
  | 15 => some (⟨1, 4, .no, false⟩, fun c => some (.bne c.hdr c.asBR))
  | 16 => some (⟨1, 4, .no, false⟩, fun c => some (.blt c.hdr c.asBR))
  | 17 => some (⟨1, 4, .no, false⟩, fun c => some (.bge c.hdr c.asBR))
  | 18 => some (⟨1, 4, .no, false⟩, fun c => some (.bltu c.hdr c.asBR))
  | 19 => some (⟨1, 4, .no, false⟩, fun c => some (.bgeu c.hdr c.asBR))
  | 20 => some (⟨1, 4, .no, false⟩, fun c => c.asJL.map (.jal c.hdr))
  | 21 => some (⟨0, 3, .opt, false⟩, fun c => some (.jalr c.hdr c.asADR))
  | 22 => some (⟨0, 0, .opt, false⟩, fun c => c.asFEN.map (.fence c.hdr))
  | 23 => some (⟨0, 3, .opt, false⟩, fun c => some (.mul c.hdr c.asRRI))
  | 24 => some (⟨0, 4, .no, false⟩, fun c => some (.addq c.hdr c.asLI))
  | 25 => some (⟨0, 4, .no, false⟩, fun c => some (.la c.hdr c.asLI))
  | 26 => some (⟨0, 4, .no, false⟩, fun c => some (mfcrRow c.hdr c.asCRN))
  | 27 => some (⟨0, 4, .no, false⟩, fun c => some (mtcrRow c.hdr c.asCRN))
  | 28 => some (⟨0, 4, .no, false⟩, fun c => c.asCOD.map (.brk c.hdr))
  | 29 => some (⟨0, 4, .no, false⟩, fun c => c.asCOD.map (.ecall c.hdr))
  | 30 => some (⟨0, 4, .opt, true⟩, fun c => some (.udf c))
  | _ => none

/-- Page 1 (R83). -/
def page1 : Nat → Option OpEntry
  | 0 => some (⟨0, 3, .opt, false⟩, fun c => some (.mulh c.hdr c.asRRI))
  | 1 => some (⟨0, 3, .opt, false⟩, fun c => some (.mulhu c.hdr c.asRRI))
  | 2 => some (⟨0, 3, .opt, false⟩, fun c => some (.div c.hdr c.asRRI))
  | 3 => some (⟨0, 3, .opt, false⟩, fun c => some (.divu c.hdr c.asRRI))
  | 4 => some (⟨0, 3, .opt, false⟩, fun c => some (.rem c.hdr c.asRRI))
  | 5 => some (⟨0, 3, .opt, false⟩, fun c => some (.remu c.hdr c.asRRI))
  | 6 => some (⟨0, 0, .no, false⟩, fun c => some (.clz c.hdr c.asRU))
  | 7 => some (⟨0, 0, .no, false⟩, fun c => some (.ctz c.hdr c.asRU))
  | 8 => some (⟨0, 0, .no, false⟩, fun c => some (.popc c.hdr c.asRU))
  | 9 => some (⟨0, 3, .opt, false⟩, fun c => some (.rotl c.hdr c.asRRI))
  | 10 => some (⟨0, 3, .opt, false⟩, fun c => some (.bext c.hdr c.asRRI))
  | 11 => some (⟨0, 3, .opt, false⟩, fun c => some (.bdep c.hdr c.asRRI))
  | 12 => some (⟨0, 3, .opt, false⟩, fun c => some (.min c.hdr c.asRRI))
  | 13 => some (⟨0, 3, .opt, false⟩, fun c => some (.max c.hdr c.asRRI))
  | 14 => some (⟨0, 3, .opt, false⟩, fun c => some (.minu c.hdr c.asRRI))
  | 15 => some (⟨0, 3, .opt, false⟩, fun c => some (.maxu c.hdr c.asRRI))
  | 16 => some (⟨0, 0, .req, false⟩, fun c => some (.amoadd c.hdr c.asAMO))
  | 17 => some (⟨0, 0, .req, false⟩, fun c => some (.amoswap c.hdr c.asAMO))
  | 18 => some (⟨0, 0, .req, false⟩, fun c => some (.amocas c.hdr c.asAMO))
  | 19 => some (⟨0, 0, .req, false⟩, fun c => some (.amomax c.hdr c.asAMO))
  | 20 => some (⟨0, 0, .req, false⟩, fun c => some (.amoor c.hdr c.asAMO))
  | 21 => some (⟨0, 0, .req, false⟩, fun c => some (.amoand c.hdr c.asAMO))
  | 22 => some (⟨0, 0, .opt, false⟩, fun c => some (.fadd c.hdr c.asFRR))
  | 23 => some (⟨0, 0, .opt, false⟩, fun c => some (.fsub c.hdr c.asFRR))
  | 24 => some (⟨0, 0, .opt, false⟩, fun c => some (.fmul c.hdr c.asFRR))
  | 25 => some (⟨0, 0, .opt, false⟩, fun c => some (.fdiv c.hdr c.asFRR))
  | 26 => some (⟨0, 0, .opt, false⟩, fun c => some (.fmadd c.hdr c.asFRR))
  | 27 => some (⟨0, 0, .opt, false⟩, fun c => some (.fcmp c.hdr c.asFRR))
  | 28 => some (⟨0, 0, .req, false⟩, fun c => some (.fcvt c.hdr c.asCVT))
  | 29 => some (⟨0, 0, .opt, false⟩, fun c => some (.fsqrt c.hdr c.asFRU))
  | 30 => some (⟨0, 4, .no, false⟩, fun c => some (.rdtime c.hdr c.asLI))
  | _ => none

/-- Page 2 (R84). -/
def page2 : Nat → Option OpEntry
  | 0 => some (⟨0, 3, .opt, true⟩, fun c => some (.vadd c.hdr c.asVRR))
  | 1 => some (⟨0, 3, .opt, true⟩, fun c => some (.vsub c.hdr c.asVRR))
  | 2 => some (⟨0, 3, .opt, true⟩, fun c => some (.vmul c.hdr c.asVRR))
  | 3 => some (⟨0, 3, .opt, true⟩, fun c => some (.vmulh c.hdr c.asVRR))
  | 4 => some (⟨0, 3, .opt, true⟩, fun c => some (.vand c.hdr c.asVRR))
  | 5 => some (⟨0, 3, .opt, true⟩, fun c => some (.vor c.hdr c.asVRR))
  | 6 => some (⟨0, 3, .opt, true⟩, fun c => some (.vxor c.hdr c.asVRR))
  | 7 => some (⟨0, 3, .opt, true⟩, fun c => some (.vsll c.hdr c.asVRR))
  | 8 => some (⟨0, 3, .opt, true⟩, fun c => some (.vsrl c.hdr c.asVRR))
  | 9 => some (⟨0, 3, .opt, true⟩, fun c => some (.vsra c.hdr c.asVRR))
  | 10 => some (⟨0, 3, .opt, true⟩, fun c => some (.vmin c.hdr c.asVRR))
  | 11 => some (⟨0, 3, .opt, true⟩, fun c => some (.vmax c.hdr c.asVRR))
  | 12 => some (⟨0, 3, .opt, true⟩, fun c => some (.vminu c.hdr c.asVRR))
  | 13 => some (⟨0, 3, .opt, true⟩, fun c => some (.vmaxu c.hdr c.asVRR))
  | 14 => some (⟨0, 3, .opt, true⟩, fun c => some (.vaddsat c.hdr c.asVRR))
  | 15 => some (⟨0, 0, .opt, true⟩, fun c => some (.vfadd c.hdr c.asVRR))
  | 16 => some (⟨0, 0, .opt, true⟩, fun c => some (.vfsub c.hdr c.asVRR))
  | 17 => some (⟨0, 0, .opt, true⟩, fun c => some (.vfmul c.hdr c.asVRR))
  | 18 => some (⟨0, 0, .opt, true⟩, fun c => some (.vfdiv c.hdr c.asVRR))
  | 19 => some (⟨0, 0, .opt, true⟩, fun c => some (.vfma c.hdr c.asVRR))
  | 20 => some (⟨0, 0, .opt, true⟩, fun c => some (.vfmin c.hdr c.asVRR))
  | 21 => some (⟨0, 0, .opt, true⟩, fun c => some (.vfmax c.hdr c.asVRR))
  | 22 => some (⟨0, 0, .opt, true⟩, fun c => some (.vfsqrt c.hdr c.asVU))
  | 23 => some (⟨0, 0, .opt, true⟩, fun c => some (.vfexp2 c.hdr c.asVU))
  | 24 => some (⟨0, 1, .req, true⟩, fun c => c.asVCM.map (.vcmp c.hdr))
  | 25 => some (⟨0, 1, .req, true⟩, fun c => c.asVCM.map (.vfcmp c.hdr))
  | 26 => some (⟨0, 3, .opt, true⟩, fun c => some (.vsel c.hdr c.asVRR))
  | 27 => some (⟨0, 3, .opt, true⟩, fun c => some (.vbcast c.hdr c.asVBC))
  | 28 => some (⟨0, 0, .opt, true⟩, fun c => some (.vid c.hdr c.asVBC))
  | 29 => some (⟨0, 0, .opt, true⟩, fun c => some (.vmerge c.hdr c.asVU))
  | 30 => some (⟨0, 0, .opt, true⟩, fun c => some (.vclass c.hdr c.asVU))
  | _ => none

/-- Page 3 (R84). -/
def page3 : Nat → Option OpEntry
  | 0 => some (⟨0, 3, .opt, true⟩, fun c => some (.vld c.hdr c.asADR))
  | 1 => some (⟨0, 0, .req, true⟩, fun c => some (.vlds c.hdr c.asVST))
  | 2 => some (⟨0, 0, .req, true⟩, fun c => some (.vldx c.hdr c.asVST))
  | 3 => some (⟨0, 3, .opt, true⟩, fun c => some (.vst c.hdr c.asADR))
  | 4 => some (⟨0, 0, .req, true⟩, fun c => some (.vsts c.hdr c.asVST))
  | 5 => some (⟨0, 0, .req, true⟩, fun c => some (.vstx c.hdr c.asVST))
  | 6 => some (⟨0, 3, .opt, true⟩, fun c => some (.vlsp c.hdr c.asADR))
  | 7 => some (⟨0, 0, .req, true⟩, fun c => some (.vlspx c.hdr c.asVST))
  | 8 => some (⟨0, 3, .opt, true⟩, fun c => some (.vssp c.hdr c.asADR))
  | 9 => some (⟨0, 0, .req, true⟩, fun c => some (.vsspx c.hdr c.asVST))
  | 10 => some (⟨0, 3, .opt, true⟩, fun c => some (.vlspc c.hdr c.asADR))
  | 11 => some (⟨0, 3, .opt, true⟩, fun c => some (.vldc c.hdr c.asADR))
  | 12 => some (⟨0, 0, .req, true⟩, fun c => some (.vstc c.hdr c.asVST))
  | 13 => some (⟨0, 0, .opt, true⟩, fun c => some (.vperm c.hdr c.asVRR))
  | 14 => some (⟨0, 3, .req, true⟩, fun c => some (.vslide c.hdr c.asVXS))
  | 15 => some (⟨0, 0, .opt, true⟩, fun c => some (.vredsum c.hdr c.asVU))
  | 16 => some (⟨0, 0, .opt, true⟩, fun c => some (.vredmax c.hdr c.asVU))
  | 17 => some (⟨0, 0, .opt, true⟩, fun c => some (.vredmin c.hdr c.asVU))
  | 18 => some (⟨0, 0, .opt, true⟩, fun c => some (.vfredsum c.hdr c.asVU))
  | 19 => some (⟨0, 0, .opt, true⟩, fun c => some (.vscan c.hdr c.asVU))
  | 20 => some (⟨0, 0, .opt, true⟩, fun c => some (.vcompress c.hdr c.asVU))
  | 21 => some (⟨0, 0, .opt, true⟩, fun c => some (.vappend c.hdr c.asVU))
  | 22 => some (⟨0, 0, .req, true⟩, fun c => some (.vcvt c.hdr c.asCVT))
  | 23 => some (⟨0, 0, .req, true⟩, fun c => some (.vcvtef c.hdr c.asCVT))
  | 24 => some (⟨0, 0, .req, false⟩, fun c => c.asPLG.map (.plog c.hdr))
  | 25 => some (⟨0, 0, .no, true⟩, fun c => c.asPCT.map (.pcnt c.hdr))
  | 26 => some (⟨0, 0, .no, true⟩, fun c => c.asPCT.map (.pfirst c.hdr))
  | 27 => some (⟨0, 3, .opt, false⟩, fun c => some (.setvl c.hdr c.asSVL))
  | 28 => some (⟨0, 3, .req, false⟩, fun c => some (.vmvx c.hdr c.asVXS))
  | 29 => some (⟨0, 0, .opt, true⟩, fun c => some (.vmvv c.hdr c.asVU))
  | 30 => some (⟨0, 0, .no, false⟩, fun c => c.asVFL.map (.vfault c.hdr))
  | _ => none

/-- Page 4 (R85). -/
def page4 : Nat → Option OpEntry
  | 0 => some (⟨0, 0, .no, false⟩, fun c => c.asXB.map (.mcfg c.hdr))
  | 1 => some (⟨0, 0, .no, false⟩, fun c => c.asXB.map (.mscl c.hdr))
  | 2 => some (⟨0, 0, .no, false⟩, fun c => c.asXB.map (.mgrp c.hdr))
  | 3 => some (⟨0, 1, .no, false⟩, fun c => some (.mclr c.hdr c.asMIM))
  | 4 => some (⟨0, 1, .req, false⟩, fun c => some (.mma c.hdr c.asMTL))
  | 5 => some (⟨0, 1, .req, false⟩, fun c => some (.mldacc c.hdr c.asMTL))
  | 6 => some (⟨0, 1, .req, false⟩, fun c => some (.mdrn c.hdr c.asMTL))
  | 7 => some (⟨0, 1, .req, false⟩, fun c => some (.mdrnx c.hdr c.asMTL))
  | 8 => some (⟨0, 1, .no, false⟩, fun c => some (.mstat c.hdr c.asMIM))
  | 9 => some (⟨0, 1, .no, false⟩, fun c => some (.mstclr c.hdr c.asMIM))
  | _ => none

/-- Page 5 (R85). -/
def page5 : Nat → Option OpEntry
  | 0 => some (⟨0, 2, .req, false⟩, fun c => some (.cpy c.hdr c.asSCP))
  | 1 => some (⟨0, 2, .req, false⟩, fun c => some (.cpy2 c.hdr c.asSCP))
  | 2 => some (⟨0, 0, .req, false⟩, fun c => c.asSKY.map (cpykRow c.hdr))
  | 3 => some (⟨0, 2, .req, false⟩, fun c => some (cpypRow c.hdr c.asSCP))
  | 4 => some (⟨0, 2, .req, false⟩, fun c => some (.coll c.hdr c.asSCP))
  | 5 => some (⟨0, 0, .no, false⟩, fun c => some (.swait c.hdr c.asRU))
  | 6 => some (⟨0, 0, .no, false⟩, fun c => some (.stest c.hdr c.asRU))
  | 7 => some (⟨0, 0, .no, false⟩, fun c => some (.scancel c.hdr c.asRU))
  | 8 => some (⟨0, 0, .no, false⟩, fun c => c.asXB.map (.sdetach c.hdr))
  | 9 => some (⟨0, 0, .no, false⟩, fun c => c.asSPR.map (.sprio c.hdr))
  | 10 => some (⟨0, 0, .no, false⟩, fun c => some (.sfault c.hdr c.asRU))
  | 11 => some (⟨0, 0, .no, false⟩, fun c => c.asXB.map (.sadopt c.hdr))
  | 12 => some (⟨0, 0, .no, false⟩, fun c => c.asNON.map fun _ => .swaitall c.hdr)
  | 13 => some (⟨0, 0, .no, false⟩, fun c => c.asXB.map (.sleepu c.hdr))
  | 14 => some (⟨0, 0, .req, false⟩, fun c => c.asXBC.map (.spromise c.hdr))
  | 15 => some (⟨0, 4, .no, false⟩, fun c => some (.sattr c.hdr c.asLI))
  | 16 => some (⟨0, 2, .req, false⟩, fun c => some (.cdrain c.hdr c.asSCP))
  | _ => none

/-- Page 6 (R85). -/
def page6 : Nat → Option OpEntry
  | 0 => some (⟨0, 3, .opt, false⟩, fun c => some (.kld c.hdr c.asADR))
  | 1 => some (⟨0, 3, .opt, false⟩, fun c => some (.kst c.hdr c.asADR))
  | 2 => some (⟨0, 0, .no, false⟩, fun c => c.asKK.map (.kmov c.hdr))
  | 3 => some (⟨0, 0, .req, false⟩, fun c => c.asKKX.map (.knarrow c.hdr))
  | 4 => some (⟨0, 0, .req, false⟩, fun c => c.asKKX.map (.krights c.hdr))
  | 5 => some (⟨0, 0, .req, false⟩, fun c => c.asKKX.map (.kgive c.hdr))
  | 6 => some (⟨0, 0, .req, false⟩, fun c => c.asKKX.map (.kpaths c.hdr))
  | 7 => some (⟨0, 0, .opt, false⟩, fun c => c.asKIN.map (.kinfo c.hdr))
  | 8 => some (⟨0, 0, .req, false⟩, fun c => c.asRMT.map (.rld c.hdr))
  | 9 => some (⟨0, 0, .req, false⟩, fun c => c.asRMT.map (.rst c.hdr))
  | 10 => some (⟨0, 0, .req, false⟩, fun c => c.asRMT.bind (ramoRow c.hdr))
  | 11 => some (⟨0, 0, .req, true⟩, fun c => c.asRMT.map (.rvld c.hdr))
  | 12 => some (⟨0, 0, .req, true⟩, fun c => c.asRMT.map (.rvst c.hdr))
  | 13 => some (⟨0, 0, .req, false⟩, fun c => c.asMSG.map (sendRow c.hdr))
  | 14 => some (⟨0, 0, .req, false⟩, fun c => c.asMSG.map (.sendr c.hdr))
  | 15 => some (⟨0, 1, .no, false⟩, fun c => c.asHID.map (.hclr c.hdr))
  | 16 => some (⟨0, 1, .req, false⟩, fun c => c.asHID.map (.hset c.hdr))
  | 17 => some (⟨0, 0, .no, false⟩, fun c => c.asNON.map fun _ => .hret c.hdr)
  | 18 => some (⟨0, 1, .req, false⟩, fun c => c.asHID.map (.hmask c.hdr))
  | 19 => some (⟨0, 4, .no, false⟩, fun c => some (.sqfree c.hdr c.asLI))
  | 20 => some (⟨0, 0, .req, false⟩, fun c => c.asSPN.map (.spawn c.hdr))
  | 21 => some (⟨0, 0, .no, false⟩, fun c => c.asNON.map fun _ => .exit c.hdr)
  | 22 => some (⟨0, 0, .no, false⟩, fun c => c.asNON.map fun _ => .yield c.hdr)
  | 23 => some (⟨0, 0, .no, false⟩, fun c => c.asXB.map (.jdec c.hdr))
  | _ => none

/-- Page 7 (R85). -/
def page7 : Nat → Option OpEntry
  | 0 => some (⟨0, 0, .no, false⟩, fun c => c.asNON.map fun _ => .rett c.hdr)
  | 1 => some (⟨0, 4, .no, false⟩, fun c => some (.mfpr c.hdr c.asCRN))
  | 2 => some (⟨0, 4, .no, false⟩, fun c => some (mtprRow c.hdr c.asCRN))
  | 3 => some (⟨0, 0, .req, false⟩, fun c => some (.tlbi c.hdr c.asTLB))
  | 4 => some (⟨0, 0, .no, false⟩, fun c => c.asNON.map fun _ => .icinv c.hdr)
  | 5 => some (⟨0, 0, .req, false⟩, fun c => c.asCFL.map (.cflush c.hdr))
  | 6 => some (⟨0, 0, .no, false⟩, fun c => c.asXB.map (.ctxsave c.hdr))
  | 7 => some (⟨0, 0, .no, false⟩, fun c => c.asXB.map (.ctxload c.hdr))
  | 8 => some (⟨0, 0, .req, false⟩, fun c => c.asXBC.map (.rgnbindBind c.hdr))
  | 9 => some (⟨0, 0, .req, false⟩, fun c => c.asXBC.map (.qmap c.hdr))
  | 10 => some (⟨0, 0, .req, false⟩, fun c => c.asXBC.map (.trcctl c.hdr))
  | 11 => some (⟨0, 0, .no, false⟩, fun c => c.asKB.map (.kmint c.hdr))
  | 12 => some (⟨0, 0, .no, false⟩, fun c => c.asXB.map (.krekeyAdvance c.hdr))
  | 13 => some (⟨0, 0, .no, false⟩, fun c => c.asNON.map fun _ => .wfi c.hdr)
  | 14 => some (⟨0, 1, .no, false⟩, fun c => some (.pstateSet c.hdr c.asRB))
  | _ => none

/-- The entry of an opcode on a page. -/
def opEntry (page op : Nat) : Option OpEntry :=
  match page with
  | 0 => page0 op
  | 1 => page1 op
  | 2 => page2 op
  | 3 => page3 op
  | 4 => page4 op
  | 5 => page5 op
  | 6 => page6 op
  | 7 => page7 op
  | _ => none

/-- Step 3 of R75: the page and the opcode exist. -/
def chainEntry (c : Chain) : Except Reject OpEntry :=
  if 7 < c.page.toNat then .error .badPage
  else match opEntry c.page.toNat c.op.toNat with
    | none => .error .reservedOpcode
    | some e => .ok e

/-- Steps 5 and 6 of R75, as far as they concern the chain alone. -/
def entryDecode (e : OpEntry) (c : Chain) : Except Reject Instr :=
  match e.1.refuses c with
  | some r => .error r
  | none =>
    match e.2 c with
    | none => .error .badField
    | some i => if i.wf then .ok i else .error .badField

/-- Steps 3, 5 and 6 of R75. A chain that decodes to `udf` is one whatever its fields (R186). -/
def chainDecode (c : Chain) : Except Reject Instr :=
  match chainEntry c with
  | .error r => .error r
  | .ok e => entryDecode e c

/-- The instruction at the head of a list of halfwords, or the first refusal of R75. -/
def decodeHalves (hs : List Half) : Except Reject Instr :=
  match parseChain hs with
  | .error r => .error r
  | .ok c => chainDecode c

/-- Halfwords as memory holds them: little-endian (R4), the first at the lowest address (R70). -/
def halvesOfBytes : List Byte → List Half
  | lo :: hi :: rest => (hi ++ lo : BitVec 16) :: halvesOfBytes rest
  | _ => []

/-- The instruction at the head of a list of bytes. -/
def decode (bytes : List Byte) : Except Reject Instr := decodeHalves (halvesOfBytes bytes)

/-- The five halfwords whose bits are those of `w`, bit 0 the least significant bit of the first. -/
def tableHalves (w : Nat) : List Half :=
  [BitVec.ofNat 16 w, BitVec.ofNat 16 (w / 2 ^ 16), BitVec.ofNat 16 (w / 2 ^ 32), BitVec.ofNat 16 (w / 2 ^ 48),
    BitVec.ofNat 16 (w / 2 ^ 64)]

/-- What the decoder reads from an instruction of `nbits` bits whose bits are those of `w`, the bits above being zero. -/
def decodeTableWord (nbits w : Nat) : Option Instr :=
  match decodeHalves (tableHalves (w % 2 ^ nbits)) with
  | .ok i => some i
  | .error _ => none

/-! ### The encoder (R68 to R72) -/

/-- A prefix word: 0x7C00 + (kind << 8) + payload (R69). -/
def pfxWord (kind : BitVec 2) (payload : Byte) : Half := (0#1 ++ 31#5 ++ kind ++ payload : BitVec 16)

/-- A base word (R68). -/
def baseWord (w : Bool) (op b a : BitVec 5) : Half := (BitVec.ofBool w ++ op ++ b ++ a : BitVec 16)

/-- The prefixes of a chain other than PAGE. -/
def Chain.plainPfx (c : Chain) : Nat := c.ws.length + present c.ext + present c.mask

/-- A chain carries a PAGE prefix for every page but 0, and for page 0 when its length counts one (R71). -/
def Chain.hasPage (c : Chain) : Bool := c.page != 0 || c.len == c.plainPfx + 2

/-- The halfwords of a chain in the order PAGE, IMM, EXT, MASK, base word (R97). -/
def Chain.halves (c : Chain) : List Half :=
  (if c.hasPage then [pfxWord 2 c.page] else []) ++ c.ws.map (pfxWord 0)
    ++ (match c.ext with | none => [] | some e => [pfxWord 1 e])
    ++ (match c.mask with | none => [] | some m => [pfxWord 3 m]) ++ [baseWord c.wait c.op c.b c.a]

/-- The EXT payload of its two fields. -/
def Ext.byte (e : Ext) : Byte := (e.sel ++ e.c : BitVec 8)

/-- The MASK payload of its fields, bit [7] zero. -/
def Mask.byte (m : Mask) : Byte :=
  (0#1 ++ BitVec.ofBool m.spec ++ BitVec.ofBool m.zero ++ BitVec.ofBool m.inv ++ m.pred : BitVec 8)

/-- The B field and IMM words of a register-or-immediate operand. -/
def RegImm.b : RegImm → BitVec 5
  | .reg r => r
  | .imm i => i.low

/-- The IMM words of a register-or-immediate operand. -/
def RegImm.ws : RegImm → List Byte
  | .reg _ => []
  | .imm i => i.ws

/-- A chain of a page and opcode, to be filled with fields. -/
def chainOf (page : Byte) (op : BitVec 5) (h : Hdr) (a b : BitVec 5) (ws : List Byte) (ext : Option Byte)
    (mask : Option Byte) : Chain := ⟨h.wait, h.len, page, ws, ext, mask, op, b, a⟩

/-- The chain of operands of class RRI (R76). -/
def RRI.chain (page : Byte) (op : BitVec 5) (h : Hdr) (o : RRI) : Chain := chainOf page op h o.a o.t.b o.t.ws (o.ext.map Ext.byte) none
/-- The chain of operands of class RU (R76). -/
def RU.chain (page : Byte) (op : BitVec 5) (h : Hdr) (o : RU) : Chain := chainOf page op h o.a o.b [] none none
/-- The chain of operands of class LI (R76). -/
def LI.chain (page : Byte) (op : BitVec 5) (h : Hdr) (o : LI) : Chain := chainOf page op h o.a o.i.low o.i.ws none none
/-- The chain of operands of class BR (R76). -/
def BR.chain (page : Byte) (op : BitVec 5) (h : Hdr) (o : BR) : Chain := chainOf page op h o.a o.b o.off none none
/-- The chain of operands of class JL (R76). -/
def JL.chain (page : Byte) (op : BitVec 5) (h : Hdr) (o : JL) : Chain := chainOf page op h o.a 0 o.off none none
/-- The chain of operands of class ADR (R76). -/
def ADR.chain (page : Byte) (op : BitVec 5) (h : Hdr) (o : ADR) : Chain := chainOf page op h o.a o.t.b o.t.ws (o.ext.map Ext.byte) (o.mask.map Mask.byte)
/-- The chain of operands of class AMO (R76). -/
def AMO.chain (page : Byte) (op : BitVec 5) (h : Hdr) (o : AMO) : Chain := chainOf page op h o.a o.b [] (some o.ext.byte) none
/-- The chain of operands of class FEN (R76). -/
def FEN.chain (page : Byte) (op : BitVec 5) (h : Hdr) (o : FEN) : Chain := chainOf page op h (o.kind.setWidth 5) 0 [] (o.ext.map Ext.byte) none
/-- The chain of operands of class CRN (R76). -/
def CRN.chain (page : Byte) (op : BitVec 5) (h : Hdr) (o : CRN) : Chain := chainOf page op h o.a o.i.low o.i.ws none none
/-- The chain of operands of class COD (R76). -/
def COD.chain (page : Byte) (op : BitVec 5) (h : Hdr) (o : COD) : Chain := chainOf page op h 0 o.i.low o.i.ws none none
/-- The chain of operands of class FRR (R76). -/
def FRR.chain (page : Byte) (op : BitVec 5) (h : Hdr) (o : FRR) : Chain := chainOf page op h o.a o.b [] (o.ext.map Ext.byte) none
/-- The chain of operands of class FRU (R76). -/
def FRU.chain (page : Byte) (op : BitVec 5) (h : Hdr) (o : FRU) : Chain := chainOf page op h o.a o.b [] (o.ext.map Ext.byte) none
/-- The chain of operands of class CVT (R76). -/
def CVT.chain (page : Byte) (op : BitVec 5) (h : Hdr) (o : CVT) : Chain := chainOf page op h o.a o.b [] (some (o.src ++ o.dst : BitVec 8)) (o.mask.map Mask.byte)
/-- The chain of operands of class VRR (R76). -/
def VRR.chain (page : Byte) (op : BitVec 5) (h : Hdr) (o : VRR) : Chain := chainOf page op h o.a o.t.b o.t.ws (o.ext.map Ext.byte) (o.mask.map Mask.byte)
/-- The chain of operands of class VU (R76). -/
def VU.chain (page : Byte) (op : BitVec 5) (h : Hdr) (o : VU) : Chain := chainOf page op h o.a o.b [] (o.ext.map Ext.byte) (o.mask.map Mask.byte)
/-- The chain of operands of class VCM (R76). -/
def VCM.chain (page : Byte) (op : BitVec 5) (h : Hdr) (o : VCM) : Chain := chainOf page op h (o.p.setWidth 5) o.i.low o.i.ws (some o.ext.byte) (o.mask.map Mask.byte)
/-- The chain of operands of class VBC (R76). -/
def VBC.chain (page : Byte) (op : BitVec 5) (h : Hdr) (o : VBC) : Chain := chainOf page op h o.a o.t.b o.t.ws (o.ext.map Ext.byte) (o.mask.map Mask.byte)
/-- The chain of operands of class VST (R76). -/
def VST.chain (page : Byte) (op : BitVec 5) (h : Hdr) (o : VST) : Chain := chainOf page op h o.a o.b [] (some o.ext.byte) (o.mask.map Mask.byte)
/-- The chain of operands of class VXS (R76). -/
def VXS.chain (page : Byte) (op : BitVec 5) (h : Hdr) (o : VXS) : Chain := chainOf page op h o.a o.t.b o.t.ws (some o.ext.byte) (o.mask.map Mask.byte)
/-- The chain of operands of class PLG (R76). -/
def PLG.chain (page : Byte) (op : BitVec 5) (h : Hdr) (o : PLG) : Chain := chainOf page op h (o.a.setWidth 5) (o.b.setWidth 5) [] (some (o.f ++ o.c.setWidth 5 : BitVec 8)) none
/-- The chain of operands of class PCT (R76). -/
def PCT.chain (page : Byte) (op : BitVec 5) (h : Hdr) (o : PCT) : Chain := chainOf page op h o.a (o.p.setWidth 5) [] none (o.mask.map Mask.byte)
/-- The chain of operands of class VFL (R76). -/
def VFL.chain (page : Byte) (op : BitVec 5) (h : Hdr) (o : VFL) : Chain := chainOf page op h (o.p.setWidth 5) 0 [] none none
/-- The chain of operands of class SVL (R76). -/
def SVL.chain (page : Byte) (op : BitVec 5) (h : Hdr) (o : SVL) : Chain := chainOf page op h o.a o.t.b o.t.ws (o.ext.map Ext.byte) none
/-- The chain of operands of class XB (R76). -/
def XB.chain (page : Byte) (op : BitVec 5) (h : Hdr) (o : XB) : Chain := chainOf page op h 0 o.b [] none none
/-- The chain of operands of class XBC (R76). -/
def XBC.chain (page : Byte) (op : BitVec 5) (h : Hdr) (o : XBC) : Chain := chainOf page op h 0 o.b [] (some o.ext.byte) none
/-- The chain of operands of class MIM (R76). -/
def MIM.chain (page : Byte) (op : BitVec 5) (h : Hdr) (o : MIM) : Chain := chainOf page op h o.a o.i.low o.i.ws none none
/-- The chain of operands of class MTL (R76). -/
def MTL.chain (page : Byte) (op : BitVec 5) (h : Hdr) (o : MTL) : Chain := chainOf page op h o.a o.i.low o.i.ws (some o.ext.byte) none
/-- The chain of operands of class SCP (R76). -/
def SCP.chain (page : Byte) (op : BitVec 5) (h : Hdr) (o : SCP) : Chain := chainOf page op h o.a o.t.b o.t.ws (some o.ext.byte) none
/-- The chain of operands of class SKY (R76). -/
def SKY.chain (page : Byte) (op : BitVec 5) (h : Hdr) (o : SKY) : Chain := chainOf page op h o.a (o.k.setWidth 5) [] (some o.ext.byte) none
/-- The chain of operands of class SPR (R76). -/
def SPR.chain (page : Byte) (op : BitVec 5) (h : Hdr) (o : SPR) : Chain := chainOf page op h (o.p.setWidth 5) o.b [] none none
/-- The chain of operands of class KK (R76). -/
def KK.chain (page : Byte) (op : BitVec 5) (h : Hdr) (o : KK) : Chain := chainOf page op h (o.a.setWidth 5) (o.b.setWidth 5) [] none none
/-- The chain of operands of class KKX (R76). -/
def KKX.chain (page : Byte) (op : BitVec 5) (h : Hdr) (o : KKX) : Chain := chainOf page op h (o.a.setWidth 5) (o.b.setWidth 5) [] (some o.ext.byte) none
/-- The chain of operands of class KIN (R76). -/
def KIN.chain (page : Byte) (op : BitVec 5) (h : Hdr) (o : KIN) : Chain := chainOf page op h o.a (o.k.setWidth 5) [] (o.ext.map Ext.byte) none
/-- The chain of operands of class RMT (R76). -/
def RMT.chain (page : Byte) (op : BitVec 5) (h : Hdr) (o : RMT) : Chain := chainOf page op h o.a (o.k.setWidth 5) [] (some o.ext.byte) (o.mask.map Mask.byte)
/-- The chain of operands of class MSG (R76). -/
def MSG.chain (page : Byte) (op : BitVec 5) (h : Hdr) (o : MSG) : Chain := chainOf page op h o.a (o.k.setWidth 5) [] (some o.ext.byte) none
/-- The chain of operands of class HID (R76). -/
def HID.chain (page : Byte) (op : BitVec 5) (h : Hdr) (o : HID) : Chain := chainOf page op h 0 o.t.b o.t.ws (o.ext.map Ext.byte) none
/-- The chain of operands of class SPN (R76). -/
def SPN.chain (page : Byte) (op : BitVec 5) (h : Hdr) (o : SPN) : Chain := chainOf page op h (o.cls.setWidth 5) o.b [] (some o.ext.byte) none
/-- The chain of operands of class TLB (R76). -/
def TLB.chain (page : Byte) (op : BitVec 5) (h : Hdr) (o : TLB) : Chain := chainOf page op h o.a o.b [] (some o.ext.byte) none
/-- The chain of operands of class CFL (R76). -/
def CFL.chain (page : Byte) (op : BitVec 5) (h : Hdr) (o : CFL) : Chain := chainOf page op h 0 o.b [] (some o.ext.byte) none
/-- The chain of operands of class KB (R76). -/
def KB.chain (page : Byte) (op : BitVec 5) (h : Hdr) (o : KB) : Chain := chainOf page op h (o.a.setWidth 5) o.b [] none none
/-- The chain of operands of class RB (R76). -/
def RB.chain (page : Byte) (op : BitVec 5) (h : Hdr) (o : RB) : Chain := chainOf page op h o.a o.t.b o.t.ws none none

/-- The chain of an instruction, if it has one (an event has none), by the opcode map of R83 to R85. -/
def Instr.chain : Instr → Option Chain
  | .add h o => some (RRI.chain 0 0 h o)
  | .sub h o => some (RRI.chain 0 1 h o)
  | .and h o => some (RRI.chain 0 2 h o)
  | .or h o => some (RRI.chain 0 3 h o)
  | .xor h o => some (RRI.chain 0 4 h o)
  | .sll h o => some (RRI.chain 0 5 h o)
  | .srl h o => some (RRI.chain 0 6 h o)
  | .sra h o => some (RRI.chain 0 7 h o)
  | .slt h o => some (RRI.chain 0 8 h o)
  | .sltu h o => some (RRI.chain 0 9 h o)
  | .li h o => some (LI.chain 0 10 h o)
  | .lhi h o => some (LI.chain 0 11 h o)
  | .ld h o => some (ADR.chain 0 12 h o)
  | .st h o => some (ADR.chain 0 13 h o)
  | .beq h o => some (BR.chain 0 14 h o)
  | .bne h o => some (BR.chain 0 15 h o)
  | .blt h o => some (BR.chain 0 16 h o)
  | .bge h o => some (BR.chain 0 17 h o)
  | .bltu h o => some (BR.chain 0 18 h o)
  | .bgeu h o => some (BR.chain 0 19 h o)
  | .jal h o => some (JL.chain 0 20 h o)
  | .jalr h o => some (ADR.chain 0 21 h o)
  | .fence h o => some (FEN.chain 0 22 h o)
  | .fenceComplete _ => none
  | .mul h o => some (RRI.chain 0 23 h o)
  | .addq h o => some (LI.chain 0 24 h o)
  | .la h o => some (LI.chain 0 25 h o)
  | .mfcr h o => some (CRN.chain 0 26 h o)
  | .mfcrStream h o => some (CRN.chain 0 26 h o)
  | .mtcr h o => some (CRN.chain 0 27 h o)
  | .mtcrVl h o => some (CRN.chain 0 27 h o)
  | .mtcrEfc h o => some (CRN.chain 0 27 h o)
  | .mtcrFpcsr h o => some (CRN.chain 0 27 h o)
  | .mtcrSlip h o => some (CRN.chain 0 27 h o)
  | .mtcrSattr h o => some (CRN.chain 0 27 h o)
  | .mtcrGangto h o => some (CRN.chain 0 27 h o)
  | .brk h o => some (COD.chain 0 28 h o)
  | .ecall h o => some (COD.chain 0 29 h o)
  | .udf c => some c
  | .mulh h o => some (RRI.chain 1 0 h o)
  | .mulhu h o => some (RRI.chain 1 1 h o)
  | .div h o => some (RRI.chain 1 2 h o)
  | .divu h o => some (RRI.chain 1 3 h o)
  | .rem h o => some (RRI.chain 1 4 h o)
  | .remu h o => some (RRI.chain 1 5 h o)
  | .clz h o => some (RU.chain 1 6 h o)
  | .ctz h o => some (RU.chain 1 7 h o)
  | .popc h o => some (RU.chain 1 8 h o)
  | .rotl h o => some (RRI.chain 1 9 h o)
  | .bext h o => some (RRI.chain 1 10 h o)
  | .bdep h o => some (RRI.chain 1 11 h o)
  | .min h o => some (RRI.chain 1 12 h o)
  | .max h o => some (RRI.chain 1 13 h o)
  | .minu h o => some (RRI.chain 1 14 h o)
  | .maxu h o => some (RRI.chain 1 15 h o)
  | .amoadd h o => some (AMO.chain 1 16 h o)
  | .amoswap h o => some (AMO.chain 1 17 h o)
  | .amocas h o => some (AMO.chain 1 18 h o)
  | .amomax h o => some (AMO.chain 1 19 h o)
  | .amoor h o => some (AMO.chain 1 20 h o)
  | .amoand h o => some (AMO.chain 1 21 h o)
  | .fadd h o => some (FRR.chain 1 22 h o)
  | .fsub h o => some (FRR.chain 1 23 h o)
  | .fmul h o => some (FRR.chain 1 24 h o)
  | .fdiv h o => some (FRR.chain 1 25 h o)
  | .fmadd h o => some (FRR.chain 1 26 h o)
  | .fcmp h o => some (FRR.chain 1 27 h o)
  | .fcvt h o => some (CVT.chain 1 28 h o)
  | .fsqrt h o => some (FRU.chain 1 29 h o)
  | .rdtime h o => some (LI.chain 1 30 h o)
  | .vadd h o => some (VRR.chain 2 0 h o)
  | .vsub h o => some (VRR.chain 2 1 h o)
  | .vmul h o => some (VRR.chain 2 2 h o)
  | .vmulh h o => some (VRR.chain 2 3 h o)
  | .vand h o => some (VRR.chain 2 4 h o)
  | .vor h o => some (VRR.chain 2 5 h o)
  | .vxor h o => some (VRR.chain 2 6 h o)
  | .vsll h o => some (VRR.chain 2 7 h o)
  | .vsrl h o => some (VRR.chain 2 8 h o)
  | .vsra h o => some (VRR.chain 2 9 h o)
  | .vmin h o => some (VRR.chain 2 10 h o)
  | .vmax h o => some (VRR.chain 2 11 h o)
  | .vminu h o => some (VRR.chain 2 12 h o)
  | .vmaxu h o => some (VRR.chain 2 13 h o)
  | .vaddsat h o => some (VRR.chain 2 14 h o)
  | .vfadd h o => some (VRR.chain 2 15 h o)
  | .vfsub h o => some (VRR.chain 2 16 h o)
  | .vfmul h o => some (VRR.chain 2 17 h o)
  | .vfdiv h o => some (VRR.chain 2 18 h o)
  | .vfma h o => some (VRR.chain 2 19 h o)
  | .vfmin h o => some (VRR.chain 2 20 h o)
  | .vfmax h o => some (VRR.chain 2 21 h o)
  | .vfsqrt h o => some (VU.chain 2 22 h o)
  | .vfexp2 h o => some (VU.chain 2 23 h o)
  | .vcmp h o => some (VCM.chain 2 24 h o)
  | .vfcmp h o => some (VCM.chain 2 25 h o)
  | .vsel h o => some (VRR.chain 2 26 h o)
  | .vbcast h o => some (VBC.chain 2 27 h o)
  | .vid h o => some (VBC.chain 2 28 h o)
  | .vmerge h o => some (VU.chain 2 29 h o)
  | .vclass h o => some (VU.chain 2 30 h o)
  | .vld h o => some (ADR.chain 3 0 h o)
  | .vlds h o => some (VST.chain 3 1 h o)
  | .vldx h o => some (VST.chain 3 2 h o)
  | .vst h o => some (ADR.chain 3 3 h o)
  | .vsts h o => some (VST.chain 3 4 h o)
  | .vstx h o => some (VST.chain 3 5 h o)
  | .vlsp h o => some (ADR.chain 3 6 h o)
  | .vlspx h o => some (VST.chain 3 7 h o)
  | .vssp h o => some (ADR.chain 3 8 h o)
  | .vsspx h o => some (VST.chain 3 9 h o)
  | .vlspc h o => some (ADR.chain 3 10 h o)
  | .vldc h o => some (ADR.chain 3 11 h o)
  | .vstc h o => some (VST.chain 3 12 h o)
  | .vperm h o => some (VRR.chain 3 13 h o)
  | .vslide h o => some (VXS.chain 3 14 h o)
  | .vredsum h o => some (VU.chain 3 15 h o)
  | .vredmax h o => some (VU.chain 3 16 h o)
  | .vredmin h o => some (VU.chain 3 17 h o)
  | .vfredsum h o => some (VU.chain 3 18 h o)
  | .vscan h o => some (VU.chain 3 19 h o)
  | .vcompress h o => some (VU.chain 3 20 h o)
  | .vappend h o => some (VU.chain 3 21 h o)
  | .vcvt h o => some (CVT.chain 3 22 h o)
  | .vcvtef h o => some (CVT.chain 3 23 h o)
  | .plog h o => some (PLG.chain 3 24 h o)
  | .pcnt h o => some (PCT.chain 3 25 h o)
  | .pfirst h o => some (PCT.chain 3 26 h o)
  | .setvl h o => some (SVL.chain 3 27 h o)
  | .vmvx h o => some (VXS.chain 3 28 h o)
  | .vmvv h o => some (VU.chain 3 29 h o)
  | .vfault h o => some (VFL.chain 3 30 h o)
  | .vectorAddressStage _ => none
  | .clusterExecuteEntry _ _ _ _ _ => none
  | .mcfg h o => some (XB.chain 4 0 h o)
  | .mscl h o => some (XB.chain 4 1 h o)
  | .mgrp h o => some (XB.chain 4 2 h o)
  | .mclr h o => some (MIM.chain 4 3 h o)
  | .mma h o => some (MTL.chain 4 4 h o)
  | .gangStall _ => none
  | .mmaGroupStep _ => none
  | .mldacc h o => some (MTL.chain 4 5 h o)
  | .mdrn h o => some (MTL.chain 4 6 h o)
  | .mdrnx h o => some (MTL.chain 4 7 h o)
  | .drainLine _ => none
  | .mstat h o => some (MIM.chain 4 8 h o)
  | .mstclr h o => some (MIM.chain 4 9 h o)
  | .cpy h o => some (SCP.chain 5 0 h o)
  | .cpy2 h o => some (SCP.chain 5 1 h o)
  | .cpypToScratch h o => some (SCP.chain 5 3 h o)
  | .cpypFromScratch h o => some (SCP.chain 5 3 h o)
  | .cpykGet h o => some (SKY.chain 5 2 h o)
  | .cpykPut h o => some (SKY.chain 5 2 h o)
  | .copyUnit _ => none
  | .coll h o => some (SCP.chain 5 4 h o)
  | .collStepBegin _ => none
  | .collNoticeArrival _ => none
  | .collNoticeResend _ => none
  | .collNoticeTimeout _ => none
  | .swait h o => some (RU.chain 5 5 h o)
  | .stest h o => some (RU.chain 5 6 h o)
  | .scancel h o => some (RU.chain 5 7 h o)
  | .sdetach h o => some (XB.chain 5 8 h o)
  | .sprio h o => some (SPR.chain 5 9 h o)
  | .sfault h o => some (RU.chain 5 10 h o)
  | .sadopt h o => some (XB.chain 5 11 h o)
  | .swaitall h => some (chainOf 5 12 h 0 0 [] none none)
  | .sleepu h o => some (XB.chain 5 13 h o)
  | .spromise h o => some (XBC.chain 5 14 h o)
  | .sattr h o => some (LI.chain 5 15 h o)
  | .cdrain h o => some (SCP.chain 5 16 h o)
  | .parkWake _ => none
  | .satelliteLaunch _ => none
  | .satelliteBegin _ => none
  | .satellitePriorityAging _ => none
  | .promiseMiss _ => none
  | .kld h o => some (ADR.chain 6 0 h o)
  | .kst h o => some (ADR.chain 6 1 h o)
  | .kmov h o => some (KK.chain 6 2 h o)
  | .knarrow h o => some (KKX.chain 6 3 h o)
  | .krights h o => some (KKX.chain 6 4 h o)
  | .kgive h o => some (KKX.chain 6 5 h o)
  | .kpaths h o => some (KKX.chain 6 6 h o)
  | .kinfo h o => some (KIN.chain 6 7 h o)
  | .rld h o => some (RMT.chain 6 8 h o)
  | .rst h o => some (RMT.chain 6 9 h o)
  | .ramoAdd h o => some (RMT.chain 6 10 h o)
  | .ramoSwap h o => some (RMT.chain 6 10 h o)
  | .ramoCas h o => some (RMT.chain 6 10 h o)
  | .ramoMax h o => some (RMT.chain 6 10 h o)
  | .ramoOr h o => some (RMT.chain 6 10 h o)
  | .ramoAnd h o => some (RMT.chain 6 10 h o)
  | .ramoAddn h o => some (RMT.chain 6 10 h o)
  | .rvld h o => some (RMT.chain 6 11 h o)
  | .rvst h o => some (RMT.chain 6 12 h o)
  | .send h o => some (MSG.chain 6 13 h o)
  | .sendR h o => some (MSG.chain 6 13 h o)
  | .sendr h o => some (MSG.chain 6 14 h o)
  | .hclr h o => some (HID.chain 6 15 h o)
  | .hset h o => some (HID.chain 6 16 h o)
  | .hret h => some (chainOf 6 17 h 0 0 [] none none)
  | .hmask h o => some (HID.chain 6 18 h o)
  | .sqfree h o => some (LI.chain 6 19 h o)
  | .spawn h o => some (SPN.chain 6 20 h o)
  | .spawnQueue _ => none
  | .exit h => some (chainOf 6 21 h 0 0 [] none none)
  | .yield h => some (chainOf 6 22 h 0 0 [] none none)
  | .jdec h o => some (XB.chain 6 23 h o)
  | .rett h => some (chainOf 7 0 h 0 0 [] none none)
  | .mfpr h o => some (CRN.chain 7 1 h o)
  | .mtpr h o => some (CRN.chain 7 2 h o)
  | .mtprMchkClear h o => some (CRN.chain 7 2 h o)
  | .tlbi h o => some (TLB.chain 7 3 h o)
  | .icinv h => some (chainOf 7 4 h 0 0 [] none none)
  | .cflush h o => some (CFL.chain 7 5 h o)
  | .ctxsave h o => some (XB.chain 7 6 h o)
  | .ctxload h o => some (XB.chain 7 7 h o)
  | .rgnbindBind h o => some (XBC.chain 7 8 h o)
  | .rgnbindReload h o => some (XBC.chain 7 8 h o)
  | .rgnbindEnd h o => some (XBC.chain 7 8 h o)
  | .qmap h o => some (XBC.chain 7 9 h o)
  | .trcctl h o => some (XBC.chain 7 10 h o)
  | .kmint h o => some (KB.chain 7 11 h o)
  | .krekeyAdvance h o => some (XB.chain 7 12 h o)
  | .krekeyRotate h o => some (XB.chain 7 12 h o)
  | .wfi h => some (chainOf 7 13 h 0 0 [] none none)
  | .pstateSet h o => some (RB.chain 7 14 h o)
  | .pstateRead h o => some (RB.chain 7 14 h o)
  | .longLatencyResult _ _ => none
  | .storeHomeFailure _ => none
  | .eventBoundary _ => none
  | .messageAccept _ => none
  | .handlerStart _ _ _ => none
  | .handlerBusyTimeout _ => none
  | .handlerCycleLimit _ => none
  | .sendAck _ => none
  | .messageReturn _ => none
  | .replyAccept _ => none
  | .remoteResponse _ => none
  | .ingressPacket _ => none
  | .egressCheck _ => none
  | .vaultForward _ => none
  | .retransmit _ => none
  | .endToEndFailure _ => none
  | .streamStateRelease _ _ _ => none
  | .flitReceive _ _ _ => none
  | .ackTimeout _ _ => none
  | .linkRetrain _ _ _ => none
  | .beaconExchange _ _ _ _ _ => none
  | .meridianFreeRun _ => none
  | .referenceFailover _ => none
  | .keywrightTakeover _ => none
  | .rotationAcknowledged => none
  | .tagGraceExpiry => none
  | .slotBoundary _ _ _ => none
  | .queueAging _ _ _ => none
  | .threadPlace _ _ _ _ _ => none
  | .threadQuantum _ => none
  | .timeBudgetSpent _ _ => none
  | .timePeriodBegin _ _ => none
  | .lifetimeBudget _ _ _ => none
  | .contextSaveStage2 _ => none
  | .drainLimitExpiry _ => none
  | .scratchpadMove _ _ _ _ _ _ => none
  | .launchBind _ => none
  | .launchCreateThread _ => none
  | .launchEndRegion _ => none
  | .launchReload _ => none
  | .hostQueueWrite _ _ _ => none
  | .traceSample _ _ _ => none
  | .traceFlush _ _ => none
  | .powerEvent _ _ _ _ => none
  | .captureEnd _ _ => none
  | .energyMeter _ _ _ _ _ => none
  | .powerLimitStep _ _ _ => none
  | .thermalThrottle _ _ _ => none
  | .thermalTrip _ _ => none
  | .scrub _ => none
  | .uncorrectableError _ _ _ _ _ _ => none
  | .reset _ _ _ => none
  | .attestationRequest _ _ => none
  | .joinDecrement _ => none
  | .tlbiDone _ => none
  | .mldaccLine _ => none
  | .injectionRelease _ => none
  | .portReset _ _ => none
  | .hostInterfaceTakeover _ => none

/-- The halfwords of an instruction: empty for an event. -/
def encode (i : Instr) : List Half :=
  match i.chain with
  | none => []
  | some c => c.halves

/-- The row that the decoder gives for the words of `i`: where a run-time operand decides between two rows of one
opcode (R396, R400, R402), the first of them (log entry 11). -/
def Instr.decodedRow : Instr → Instr
  | .rgnbindReload h o => .rgnbindBind h o
  | .rgnbindEnd h o => .rgnbindBind h o
  | .krekeyRotate h o => .krekeyAdvance h o
  | .pstateRead h o => .pstateSet h o
  | i => i

end Sys2Proof
end

