-- ==== Sys2Proof/Machine/Bits.lean ====
section
/-! DEFINITION. Sys2Proof/Machine/Bits.lean: bytes, lines and bit fields. Byte order is decided here once:
little-endian (spec/00 R4). -/

namespace Sys2Proof.Machine

/-- Little-endian bytes as a number (R4). -/
def bytesNat : List Byte → Nat
  | [] => 0
  | b :: t => b.toNat + 256 * bytesNat t

/-- The `n` low bytes of a number, little-endian (R4). -/
def natBytes : Nat → Nat → List Byte
  | 0, _ => []
  | n + 1, v => BitVec.ofNat 8 v :: natBytes n (v / 256)

/-- Bits `lo` to `lo + n - 1` of a number. -/
def bits (v lo n : Nat) : Nat := v / 2 ^ lo % 2 ^ n

/-- Bit `i` of a number. -/
def bit (v i : Nat) : Bool := v.testBit i

/-- A truth value as 0 or 1. -/
def bnat (b : Bool) : Nat := if b then 1 else 0

/-- `v`, a number of `n` bits, sign-extended to 64. -/
def sext (n v : Nat) : Word := BitVec.ofInt 64 (if bit v (n - 1) then (v % 2 ^ n : Nat) - (2 : Int) ^ n else (v % 2 ^ n : Nat))

/-- The signed reading of the low `n` bits (R8). -/
def sval (n v : Nat) : Int := if bit v (n - 1) then (v % 2 ^ n : Nat) - (2 : Int) ^ n else (v % 2 ^ n : Nat)

/-- The low `n` bits of an integer, two's complement. -/
def umod (n : Nat) (v : Int) : Nat := (v % (2 : Int) ^ n).toNat

/-- The largest power of two that divides counts up to `fuel` halvings: floor of log2, 0 for 0. -/
def log2 (v : Nat) : Nat := v.log2

/-- The least power of two that is at least `n`, for `n` up to 2^fuel. -/
def ceilPow2 : Nat → Nat → Nat
  | 0, _ => 1
  | f + 1, n => if n ≤ 1 then 1 else 2 * ceilPow2 f ((n + 1) / 2)

/-- Ceiling of a quotient. -/
def ceilDiv (a b : Nat) : Nat := (a + b - 1) / b

/-! ### Lines of 128 bytes -/

/-- `n` bytes of a line from byte `o`. -/
def lineBytes (d : BitVec 1024) (o n : Nat) : List Byte := natBytes n (d.toNat / 256 ^ o)

/-- A line of 128 bytes. -/
def lineOf (bs : List Byte) : BitVec 1024 := BitVec.ofNat 1024 (bytesNat bs)

/-- A byte mask with `n` ones from byte `o`. -/
def maskSpan (o n : Nat) : BitVec 128 := BitVec.ofNat 128 ((2 ^ n - 1) * 2 ^ o)

/-- The bits that a byte mask covers, for its `k` low bytes. -/
def expandMask (m : Nat) : Nat → Nat
  | 0 => 0
  | k + 1 => (if m.testBit 0 then 255 else 0) + 256 * expandMask (m / 2) k

/-- The line `new` in the bytes of `mask`, and `old` elsewhere. -/
def mergeLine (mask : BitVec 128) (new old : BitVec 1024) : BitVec 1024 :=
  let m := BitVec.ofNat 1024 (expandMask mask.toNat 128)
  (new &&& m) ||| (old &&& ~~~m)

/-- `bs` placed from byte `o` of a line. -/
def lineAt (o : Nat) (bs : List Byte) : BitVec 1024 := BitVec.ofNat 1024 (bytesNat bs * 256 ^ o)

/-- Replace `n` bits from bit `lo` of a wide value. -/
def setField {w : Nat} (d : BitVec w) (lo n v : Nat) : BitVec w :=
  let m := BitVec.ofNat w ((2 ^ n - 1) * 2 ^ lo)
  (d &&& ~~~m) ||| (BitVec.ofNat w (v * 2 ^ lo) &&& m)

/-- `n` bits from bit `lo` of a wide value. -/
def getField {w : Nat} (d : BitVec w) (lo n : Nat) : Nat := d.toNat / 2 ^ lo % 2 ^ n

/-! ### Lists with keys -/

/-- Replace the first entry that satisfies `p`, or add `v` at the end. -/
def upsert {α : Type} (p : α → Bool) (v : α) : List α → List α
  | [] => [v]
  | a :: t => if p a then v :: t else a :: upsert p v t

/-- How many entries satisfy a test. -/
def countIf {α : Type} (p : α → Bool) (l : List α) : Nat := (l.filter p).length

/-- Change every entry that satisfies `p`. -/
def mapIf {α : Type} (p : α → Bool) (f : α → α) (l : List α) : List α := l.map fun a => if p a then f a else a

/-- The bytes of consecutive little-endian doublewords. -/
def wordsBytes (ws : List Word) : List Byte := ws.flatMap fun w => natBytes 8 w.toNat

end Sys2Proof.Machine
end

