-- ==== Sys2Proof/Machine/Cells.lean ====
section
/-! DEFINITION. Sys2Proof/Machine/Cells.lean: memory as a list of (address, byte) pairs in one canonical form. The address
of a cell is its endpoint's number times 2^52 plus the physical address (52 bits, spec/05 R127): modules are endpoints 0
to 511 and vault nodes 512 to 655 (spec/01 R26). An address that is not listed reads as zero (spec/20 R464 step 2 for a
module; log entry 5 for a vault). -/

namespace Sys2Proof.Machine

/-- What an unlisted address reads as. -/
def unlisted : Byte := 0

/-- The cell number of physical address `pa` of endpoint `ep`. -/
def cellOf (ep pa : Nat) : Nat := ep * 2 ^ 52 + pa % 2 ^ 52

/-- The byte at a cell. -/
def Memory.get : List Host.Cell → Nat → Byte
  | [], _ => unlisted
  | (a, b) :: t, k => if a = k then b else if k < a then unlisted else Memory.get t k

/-- A cell put in front, unless it holds what an unlisted address reads as. -/
def Memory.put (k : Nat) (b : Byte) (t : List Host.Cell) : List Host.Cell :=
  if b = unlisted then t else (k, b) :: t

/-- Memory with byte `b` at cell `k`. -/
def Memory.set : List Host.Cell → Nat → Byte → List Host.Cell
  | [], k, b => Memory.put k b []
  | (a, c) :: t, k, b =>
    if a = k then Memory.put k b t
    else if k < a then Memory.put k b ((a, c) :: t)
    else (a, c) :: Memory.set t k b

/-- `n` bytes from cell `k`. -/
def Memory.read (m : List Host.Cell) (k : Nat) : Nat → List Byte
  | 0 => []
  | n + 1 => Memory.get m k :: Memory.read m (k + 1) n

/-- Memory with the bytes `bs` from cell `k`. -/
def Memory.write (m : List Host.Cell) (k : Nat) : List Byte → List Host.Cell
  | [] => m
  | b :: t => Memory.write (Memory.set m k b) (k + 1) t

/-- Every address is above `lo`, addresses rise strictly, and no entry equals what an unlisted address reads as. -/
def Memory.wfAbove : Option Nat → List Host.Cell → Bool
  | _, [] => true
  | lo, (a, b) :: t => (match lo with | none => true | some l => decide (l < a)) && b != unlisted && Memory.wfAbove (some a) t

/-- The canonical form of memory. -/
def Memory.wf (m : List Host.Cell) : Bool := Memory.wfAbove none m

end Sys2Proof.Machine
end

