-- ==== Sys2Proof/Config.lean ====
section
/-! DEFINITION. Sys2Proof/Config.lean: what an implementation fixes and the free values. A free value is an opaque
constant without a body: nothing can evaluate it, so every statement about it holds for each value it could have
(log entry 1). The model supplies a fresh index from the field `State.fresh` for each open value. -/

namespace Sys2Proof.Config

/-- Free values: the value of the `n`-th open choice, as a 64-bit pattern (spec/00 R9: unpredictable). -/
opaque freeWord : Nat → BitVec 64

/-- Free bytes of the `n`-th open choice, `i`-th byte. -/
opaque freeByte : Nat → Nat → BitVec 8

/-- Byte `i` of the SHA-512 of item `which` (0 machine firmware, 1 Keywright firmware, 2 charters and grants as fixed) with some content (spec/20 R462). The
images are not in the spec: their content stands as the module and the number of the boot. -/
opaque digest : (which : Nat) → (content : List Nat) → (i : Nat) → BitVec 8

/-- The signature of an attestation report, which the spec does not give as a function of the report (spec/20 R462). -/
opaque signature : Nat → List (BitVec 64) → Nat → BitVec 8

/-- The cipher of a memory key on one block of a physical line (spec/17 R417, spec/20 R458: XTS, whose data unit is the line and whose blocks have 16 bytes):
a permutation of the blocks, given as pairs of blocks that change places one after the other. Every permutation of finitely many blocks is such a list, and
it can be undone. The keys are not software-visible. -/
opaque xts : (key line block : Nat) → List (BitVec 128 × BitVec 128)

/-- The firmware vector of a fabric die, for the firmware of the Keywright (level 2) and the machine-check path (level 3): the spec gives it no address
(spec/15 R366, spec/18 R438). -/
opaque firmwareVector : (mod die level : Nat) → BitVec 64

end Sys2Proof.Config
end

