-- ==== Sys2Proof/Machine/State.lean ====
section
/-! DEFINITION. Sys2Proof/Machine/State.lean: everything the spec gives the machine, as plain data, and `State.reset`.
Records first, the smallest first; then `State`; then the outcomes of a step that are no next state. -/

namespace Sys2Proof.Machine

/-! ### Places and small records -/

/-- A core: module, compute die and core number within the die (spec/01 R15, R16). -/
structure Loc where
  mod  : Nat
  die  : Nat
  core : Nat
  deriving DecidableEq, Repr

/-- A trap or event on its way: its cause (spec/15 R375) and the four values of R369; `stream` for a vector-stream trap
(R43), and then the sequence number of entry F. -/
structure Trap where
  cause  : Nat
  epc    : Word
  addr   : Word
  info   : Word
  stream : Bool
  seq    : Nat
  deriving DecidableEq, Repr

/-! ### The vector stream (spec/02 R39 to R46) -/

/-- One element of an entry that passed the address stage: its index, its place (a physical byte address with the memory key of its leaf,
or a scratchpad offset), or the cause that a speculative load found or a remote access was refused with; for a remote element whether its request
was sent and the value that came back (spec/11 R316). -/
structure Lane where
  i     : Nat
  place : Nat
  key   : Nat
  cause : Nat
  sent  : Bool
  val   : Option Nat
  deriving DecidableEq, Repr

/-- A dispatch-queue entry (R39, R382): sequence number, its place in issue order, program counter and halfwords of the chain, the instruction,
the scalar operands and the key captured at issue, the rounding mode, `SP`, enables and slip limit captured at issue, the
era of the sticky flags (R67); and, once it has passed the address stage, the `vl` it received, the mask it read, the
element count and the places of its elements. `tok` is a drain's token or `vappend`'s BASE, `aux` `vappend`'s TAIL, the
satellite of a drain, the remote request, or the flags gathered for an `mfcr` of `fpcsr`; `redo` marks an entry decided again
after a restore (R387), `stepped` a `vappend` whose atomic step is done (spec/08 R229); `src` the source register of a conversion within one register as it
was before any cluster wrote (spec/07 R188). -/
structure Entry where
  seq    : Nat
  order  : Nat
  pc     : Word
  halfs  : List Half
  instr  : Instr
  xs     : List Word
  key    : Key
  rm     : BitVec 3
  sp     : Bool
  en     : BitVec 5
  slip   : Nat
  era    : Nat
  passed : Bool
  redo   : Bool
  stepped : Bool
  vl     : Nat
  n      : Nat
  mask   : BitVec 1024
  lanes  : List Lane
  tok    : Word
  aux    : Nat
  src    : Option (BitVec 8192)
  deriving DecidableEq, Repr

/-- A stop of the vector stream under way (R43): entry F, the element and the trap found so far; `taken` once that trap is being taken, so that it is
pending no more (spec/15 R380). -/
structure VStop where
  seq  : Nat
  elem : Nat
  trap : Trap
  taken : Bool
  deriving DecidableEq, Repr

/-- A change of `vfmc` and of the vector fault mask at a position in the stream (R196, R198, R199, R210): `count` faults with first cause `cause`, or, with
`clear`, a return of `vfmc` to zero; and the bits of the mask that it sets and clears. -/
structure VfmcLog where
  seq   : Nat
  elem  : Nat
  count : Nat
  cause : Nat
  clear : Bool
  sets   : BitVec 1024
  clears : BitVec 1024
  deriving DecidableEq, Repr

/-- A residue set aside for a user trap (R44, R370): its entries, the restart index of each granted cluster, entry F, the
`vl` and the scalar program counter set aside with it, the era of the sticky flags at the stop (R67),
whether a wait marker's park had yet to end, and the changes of `vfmc` and of the fault mask that clusters ahead of F have found (R196). -/
structure Aside where
  queue : List Entry
  done  : List Nat
  f     : Nat
  vl    : Nat
  pc    : Word
  era   : Nat
  marked : Bool
  log   : List VfmcLog
  deriving DecidableEq, Repr

/-! ### Long-latency results (spec/03 R86 to R90) -/

/-- A long-latency result in flight: its register (`k` or `x`), the value once it is known, the failure it carries
(R90, R180), the program counter of its instruction, its place in issue order, the dispatch-queue entry it waits for and the
remote request it waits for. -/
structure Inflight where
  isK   : Bool
  reg   : Nat
  val   : Key
  ready : Bool
  keep  : Bool
  fail  : Option Trap
  flags : BitVec 5
  era   : Nat
  pc    : Word
  order : Nat
  entry : Option Nat
  req   : Option Nat
  deriving DecidableEq, Repr

/-- A failure of an earlier instruction, in issue order (spec/15 R377 step 3). A store's failure is taken at the next boundary (spec/06
R171); a result's is `armed` at the end of the park of the covering wait marker or at a point of R89 (spec/03 R90). -/
structure Failure where
  order : Nat
  trap  : Trap
  armed : Bool
  deriving DecidableEq, Repr

/-! ### Agents (spec/02) -/

/-- A thread, or a handler of a handler id in a cluster's handler share (R32, R49). -/
inductive AgentKind where
  | thread
  | handler (hid : Nat)
  deriving DecidableEq, Repr

/-- What a parked thread waits for (R35). -/
inductive Park where
  /-- A wait marker: every pending result (spec/03 R88). -/
  | marker
  /-- `swait` of the satellite with this handle (spec/10 R289). -/
  | swait (token : Word)
  /-- `swaitall` (R294). -/
  | swaitall
  /-- `sleepu` until this meridian time (R295). -/
  | sleepu (t : Nat)
  /-- The wired barrier of the row (spec/09 R250). -/
  | gang
  /-- `wfi`, since its events up to this meridian time (spec/15 R401). -/
  | wfi (until_ : Nat)
  deriving DecidableEq, Repr

/-- The state of a thread (R35). `trapping` is a trap that waits for pending results before it is taken (spec/03 R89);
`fencing` is a thread whose fence waits for its conditions (R150, R175), which stays ready but issues nothing. -/
inductive Life where
  | ready
  | fencing
  | parked (why : Park)
  | trapping (t : Trap)
  | queued
  | exited
  deriving DecidableEq, Repr

/-- A satellite slot carried in the context of a thread that moved to another core (spec/15 R386, spec/10 R270). -/
structure Carried where
  token   : Word
  status  : Nat
  pmiss   : Bool
  promise : Option Nat
  record  : List Word
  deriving DecidableEq, Repr

/-- A thread or a handler with everything it holds (spec/02 R32 to R50, spec/03 R62, R65). `uid` is the model's
handle; `named` is the core that its creation named, as 128 times the die plus the core number; `started` is the time of its placement, or for a handler the
cycle of its start; `acq` is the scope of the acquire that it still has to begin with, 0 for none; `launched` a thread of a `thread` clause of its region's launch
block (spec/03 R98); `pended` the pending events that its image named when it was written (spec/15 R380); `wfiFrom` the `wfi` that it waits
at, by its program counter, and until when (spec/15 R401); `fenceAt` the first request number after the
fence that it waits at (spec/05 R150); `pipeEnd` for each granted cluster the time at which its last entry ended since the placement, and `holds` what has held its next entry since then
(spec/19 R453); `userSeq` the sequence number of the first dispatch-queue entry issued after the last user trap (spec/15 R371). -/
structure Agent where
  uid      : Nat
  kind     : AgentKind
  loc      : Loc
  ctx      : Nat
  rid      : Nat
  tid      : Nat
  level    : Nat
  cls      : Nat
  cmask    : BitVec 4
  quarter  : Nat
  named    : Option Nat
  life     : Life
  placed   : Bool
  saved    : Bool
  hold     : Bool
  complete : Bool
  saveTime : Nat
  started  : Nat
  -- registers
  x        : Vector Word 32
  v        : Vector (BitVec 8192) 32
  p        : Vector (BitVec 1024) 12
  k        : Vector Key 16
  marks    : Vector Nat 32
  pc       : Word
  ir       : List Half
  -- control registers
  vl       : Nat
  vfmcCount : Nat
  vfmcCause : Nat
  vfmcLog  : List VfmcLog
  fmask    : BitVec 1024
  slip     : Nat
  efc      : BitVec 32
  fprm     : BitVec 3
  fpsp     : Bool
  fpen     : BitVec 5
  fpflags  : BitVec 5
  fpera    : Nat
  sattr    : Word
  sshape   : Word
  slaunch  : Word
  safter   : Word
  mcfgv    : Word
  msbase   : Word
  mgang    : BitVec 16
  gangto   : Nat
  utvec    : Word
  ucause   : Word
  uepc     : Word
  uaddr    : Word
  uinfo    : Word
  pscratch : Word
  uta      : Bool
  issued   : Nat
  retired  : Nat
  -- hazards and results
  pendX    : BitVec 32
  pendK    : BitVec 16
  marked   : Bool
  inflight : List Inflight
  order    : Nat
  -- vector stream
  queue    : List Entry
  done     : List Nat
  nextSeq  : Nat
  aside    : Option Aside
  vstop    : Option VStop
  -- events pending at a boundary (spec/15 R377)
  failures : List Failure
  late     : List Trap
  preempt  : Bool
  debugStop : Option Trap
  debugSkip : Bool
  cycleLimit : Bool
  carried  : List Carried
  wfiSeen  : Bool
  turn     : Nat
  acq      : Nat
  launched : Bool
  pended   : Nat
  wfiFrom  : Option (Word × Nat)
  fenceAt  : Nat
  pipeEnd  : List (Option Nat)
  holds    : List (List Nat)
  userSeq  : Nat
  deriving DecidableEq, Repr

/-! ### Memory (spec/05, spec/17) -/

/-- A store whose bytes a remote-data cache holds dirty: who made it, where it stands in issue order, the values that its
failure reports (spec/05 R139, spec/06 R171, spec/08 R215). `entry` for a vector store, with its element index. `rel` is the widest scope of a
release that takes the bytes home (spec/05 R152): 7 for a store of a thread, for a satellite that of its `REL`, and 0 without it; `sid` is the
satellite, 0 for none. -/
structure StoreTag where
  uid   : Nat
  loc   : Loc
  rid   : Nat
  tid   : Nat
  order : Nat
  pc    : Word
  data  : Word
  entry : Bool
  elem  : Nat
  mask  : BitVec 128
  rel   : Fin 8
  sid   : Nat
  deriving DecidableEq, Repr

/-- A line of a die's remote-data cache (spec/01 R21, spec/05 R131): which endpoint's memory it holds (a module or a vault;
its own module's lines are homed on another die), the physical line number (spec/17 R419), the bytes, which are valid and which are dirty, whether it
was read through a key from outside the module, the stores whose bytes it holds, whether its bytes are poisoned (spec/20 R467), the memory key through
which its bytes are seen (spec/17 R417), and the key windows' names for the line through which it was read. -/
structure RdcLine where
  mod   : Nat
  die   : Nat
  ep    : Nat
  line  : Nat
  keyed : Bool
  data  : BitVec 1024
  valid : BitVec 128
  dirty : BitVec 128
  tags  : List StoreTag
  bad   : Bool
  key   : Nat
  names : List Nat
  deriving DecidableEq, Repr

/-- A counted line (spec/05 R136): its endpoint and line, its reader count, the region charged, its bytes, its way and the
memory key it was written under. -/
structure Counted where
  ep    : Nat
  line  : Nat
  count : Nat
  rid   : Nat
  data  : BitVec 1024
  way   : Nat
  key   : Nat
  deriving DecidableEq, Repr

/-- A counted line that stands in its region's counted save list (R141, spec/15 R389), in the order of the list; its count and bytes are
in the list itself. -/
structure SavedLine where
  ep   : Nat
  line : Nat
  rid  : Nat
  key  : Nat
  deriving DecidableEq, Repr

/-- A resident line of a home L2 (spec/01 R20, spec/05 R130): slice, set and way, the partition class and region that filled it
and its recency. Residence changes what the occupancy counters read and which line a fill replaces, and no data. -/
structure L2Line where
  ep    : Nat
  line  : Nat
  die   : Nat
  slice : Nat
  set   : Nat
  way   : Nat
  cls   : Nat
  used  : Nat
  deriving DecidableEq, Repr

/-- A leaf held by a TLB (spec/17 R420): of which core and unit, address space, page base and size in bits, and the entry. -/
structure TlbEntry where
  loc  : Loc
  unit : Nat
  vif  : Nat
  asid : Nat
  base : Nat
  bits : Nat
  leaf : Word
  deriving DecidableEq, Repr

/-- A report of a store refused at its home, on its way to the core (spec/06 R171, spec/08 R215). -/
structure Report where
  tag   : StoreTag
  cause : Nat
  deriving DecidableEq, Repr

/-- A line of a region's scratchpad with its bytes and fill state (spec/05 R134): 0 EMPTY, 1 PENDING, 2 FULL with a reader count;
`bad` where its bytes are poisoned (spec/20 R467). A PENDING line keeps the bytes of a fill apart, `part` with the mask `partMask`, until the last of
them has come (R134: a fill that is not completed leaves the line's bytes unchanged). -/
structure SLine where
  loc   : Loc
  rid   : Nat
  slice : Nat
  m     : Nat
  data  : BitVec 1024
  st    : Nat
  count : Nat
  bad   : Bool
  part  : BitVec 1024
  partMask : BitVec 128
  deriving DecidableEq, Repr

/-- A region's scratchpad allocation on a core (spec/05 R132): bytes in each lane slice, and whether it moved (spec/15 R388). -/
structure Alloc where
  loc   : Loc
  rid   : Nat
  bytes : Nat
  deriving DecidableEq, Repr

/-! ### Regions, scheduler, interfaces (spec/16) -/

/-- How far a region has come: bound, or ended (R403 `STATE`). -/
inductive RegionState where
  | bound
  | ended
  deriving DecidableEq, Repr

/-- A region with the fields of its control block as loaded at binding or reload (R403), and what the W9 keeps about it; `spentBy` is the
`tid` that was charged when `USED` reached `HARDNS` (R406), and `liveOut` the number of live threads that its control block shows; `mkey` and `dkey` name
the memory key and the dump key that it received when it was bound, 0 for none (spec/20 R458). -/
structure Region where
  mod     : Nat
  rid     : Nat
  holder  : Nat
  parent  : Nat
  vif     : Nat
  rcb     : Nat
  pclass  : Nat
  observe : Bool
  launch  : Bool
  level   : Nat
  conf    : Bool
  mkey    : Nat
  dkey    : Nat
  fdroot  : Bool
  prio    : Nat
  ways    : Nat
  tlimit  : Nat
  cores   : Nat
  satslots : Nat
  counted : Nat
  hcycles : Nat
  drainns : Nat
  asid    : Nat
  dies    : Nat
  scratch : Nat
  tperiod : Nat
  tbudget : Nat
  hardns  : Nat
  used    : Nat
  save    : Nat
  spsave  : Nat
  cslist  : Nat
  frq     : Nat
  state   : RegionState
  -- kept by the W9
  periodStart : Nat
  periodUsed  : Nat
  exhausted   : Bool
  spentBy     : Nat
  liveOut     : Nat
  frSeen      : Nat
  deriving DecidableEq, Repr

/-- The ready queue of a region on a die (R407, R408): its queued threads in order, its effective priority, since when it
waits, since when it holds a slot, whether it is pinned, and the thread at its head that waits with its gang for a row, with the time since when (R411). -/
structure RQueue where
  mod    : Nat
  die    : Nat
  rid    : Nat
  uids   : List Nat
  prio   : Nat
  waitFrom : Option Nat
  slotAt : Option Nat
  aged   : Nat
  pinned : Bool
  gang   : Option (Nat × Nat)
  deriving DecidableEq, Repr

/-- The grant of a virtual interface (R412, R472). `ways` and `frames` list one mask, or one range, for each die or piece, and
`shares` the injection share of a port in 1/256 of its rate (spec/18 R441), all of it for a port not listed; `coreset` the granted cores of each die as bits,
and `rcb` the physical address at which the platform keeps the root region's control block (log entry 33). -/
structure Vif where
  mod     : Nat
  vif     : Nat
  coreset : List Nat
  rcb     : Nat
  cores   : Nat
  dies    : Nat
  ways    : List Nat
  counted : Nat
  satslots : Nat
  asidBase : Nat
  asidCount : Nat
  asTable : Nat
  classes : Nat
  frames  : List (Nat × Nat)
  shares  : List (Nat × Nat)
  charterBase : Nat
  charterCount : Nat
  observe : Bool
  launch  : Bool
  conf    : Bool
  deriving DecidableEq, Repr

/-- A host queue (R413): its descriptor's `BASE`, `TAIL`, `SIZE` and `LOST` (R405), and the entries not yet consumed, oldest first, so that `HEAD` is `TAIL`
less their number; `owed` where an overflow entry comes first. -/
structure HostQueue where
  mod  : Nat
  vif  : Nat
  n    : Nat
  base : Nat
  tail : Nat
  size : Nat
  entries : List (List Byte)
  lost : Nat
  owed : Bool
  deriving DecidableEq, Repr

/-- A launch message waiting at a scheduler (R414): from which region of which module, or from the host, and its payload; with it what the launcher's block
grants beside the message: handler entries and keys, and whether it is one of that block's `thread` clauses (spec/03 R98, R99). -/
structure Launch where
  mod  : Nat
  die  : Nat
  src  : Nat
  rid  : Nat
  host : Option Nat
  words : List Word
  handlers : List (Nat × Word)
  keys : List (Nat × Key)
  ofBlock : Bool
  deriving DecidableEq, Repr

/-- What the launch block of a region grants its threads: the handler entries that are set on each core where such a thread is first placed, and the keys
of every thread that the block creates (spec/03 R98, R99). -/
structure Plan where
  mod  : Nat
  rid  : Nat
  handlers : List (Nat × Word)
  keys : List (Nat × Key)
  deriving DecidableEq, Repr

/-! ### Satellites (spec/02 R53 to R58, spec/10) -/

/-- The engines that run satellites (spec/10, spec/09 R256): the copy streamer, the collective unit, the matrix slice, the
vector store unit's drain path, and the translation shoot-down of `tlbi` (spec/15 R392). -/
inductive Engine where
  | streamer | collective | matrix | drain | shootdown
  deriving DecidableEq, Repr

/-- One side of a copy in scratchpad: the lane slices used in lane order, the byte offset, the layout and element size
(spec/10 R274, spec/05 R133). -/
structure Scr where
  slices : List Nat
  off    : Nat
  layout : Nat
  elemw  : Nat
  deriving DecidableEq, Repr

/-- One side of a transfer: generic memory, own scratchpad, or the window of a key (spec/10 R273, R280). -/
inductive Side where
  | generic (addr : Nat)
  | scratch (s : Scr)
  | window (key : Key) (off : Nat)
  deriving DecidableEq, Repr

/-- The progress of a collective (spec/10 R283 to R287): the header once read, the step under way with its four doublewords and the two keys it names,
units of it already moved, the time of step 0, when the step began, when its notice was first sent, when a refused notice is sent again, and whether a
WAIT has its entry of the notice table. -/
structure CollState where
  header : Option (List Word)
  step   : Nat
  cur    : Option (List Word)
  unit   : Nat
  base   : Nat
  stepT  : Nat
  noticeT : Option Nat
  retryAt : Option Nat
  took   : Bool
  deriving DecidableEq, Repr

/-- The captured operands of a tile operation (spec/09 R255): accumulator, K-groups, the captured `mcfgv` and `msbase`, the two
operand registers, the members of the gang and the gang's number. -/
structure TileOp where
  acc    : Nat
  groups : Nat
  cfg    : Word
  msbase : Word
  ra     : Word
  rb     : Word
  mgang  : BitVec 16
  gang   : Nat
  lead   : Bool
  aLines : List (Nat × BitVec 1024)
  bLines : List (Nat × BitVec 1024)
  deriving DecidableEq, Repr

/-- A converted element of a drain whose line has still to be sent (spec/09 R262, R264): its place and bytes, its row and column, the row's carry after it,
and whether `OVF` counts it. -/
structure Staged where
  place : Nat
  bytes : List Byte
  row   : Nat
  col   : Nat
  carry : BitVec 32
  ovf   : Bool
  deriving DecidableEq, Repr

/-- A row of a drain (spec/04 R121, spec/09 R262): the carry after the elements converted so far, and up to which column the elements of sent lines
have moved the tile's own. -/
structure DrainRow where
  row   : Nat
  carry : BitVec 32
  upto  : Nat
  deriving DecidableEq, Repr

/-- What a satellite does. A load of a tile keeps the bytes of the row under way until the row is whole (spec/09 R260). The elements of a drain are those
that its entry's address stage decided and that are still to be converted, each with its physical place and, in `val`, its address; `staged` are the converted elements
whose line has still to be sent, and `rows` the rows of which elements have been converted (spec/09 R262, R264). -/
inductive Task where
  | copy (src dst : Side) (n rows shape : Nat)
  | coll (table buf n : Nat) (cs : CollState)
  | cdrain (base n dropped : Nat)
  | mclr (acc : Nat)
  | mma (t : TileOp)
  | mldacc (acc : Nat) (carry : Bool) (cfg : Word) (ra rb : Word) (row : List Byte)
  | mdrn (acc : Nat) (carry : Bool) (cfg : Word) (elems : List Lane) (staged : List Staged) (rows : List DrainRow)
  | tlbi (vif asid va : Nat) (allAsid allVif : Bool)
  deriving DecidableEq, Repr

/-- A satellite slot in use (R53, R54): `status` is the value of R54, `missed` says that its present promise has been missed (spec/10 R296), and `upto` is
the sequence number below which its issuer's dispatch-queue entries come before it (spec/05 R145). `sid` is the model's handle. -/
structure Sat where
  sid      : Nat
  loc      : Loc
  slot     : Nat
  gen      : Nat
  rid      : Nat
  kind     : Nat
  engine   : Engine
  issuer   : Nat
  owner    : Option Nat
  level    : Nat
  cls      : Nat
  cmask    : BitVec 4
  status   : Nat
  begun    : Bool
  cancel   : Bool
  launch   : Nat
  issuedAt : Nat
  after    : Word
  prio     : Nat
  aged     : Nat
  waitFrom : Nat
  ready    : Bool
  sattr    : Word
  pmiss    : Bool
  promise  : Option Nat
  missed   : Bool
  record   : List Word
  units    : Nat
  upto     : Nat
  req      : Option Nat
  task     : Task
  deriving DecidableEq, Repr

/-- The GEN of a satellite slot that has been reaped at least once (R53); a slot not listed has GEN 0 (log entry 2). -/
structure SlotGen where
  loc  : Loc
  slot : Nat
  gen  : Nat
  deriving DecidableEq, Repr

/-- An entry of a core's notice table (spec/10 R286). -/
structure Notice where
  loc   : Loc
  gid   : Nat
  tag   : Nat
  count : Nat
  deriving DecidableEq, Repr

/-! ### Matrix slices (spec/09) -/

/-- An accumulator tile: 64 rows of 128 elements of 32 bits, the 64 row carries, and the three counters of spec/04 R125. -/
structure Tile where
  rows    : Vector (BitVec 4096) 64
  carries : Vector (BitVec 32) 64
  ovf     : Nat
  nanp    : Nat
  inval   : Nat
  deriving DecidableEq, Repr

/-- The matrix slice of a core: the thread that holds it, and the region of the one that took it (R238), and its tiles. -/
structure Slice where
  loc    : Loc
  holder : Option Nat
  rid    : Nat
  acc0   : Tile
  acc1   : Tile
  deriving DecidableEq, Repr

/-- An arrival at the wired barrier of a row (spec/09 R250): who arrived when (cycles of its core), with the identity fields,
the slot that its satellite will take and its `gangto`. -/
structure Arrival where
  uid    : Nat
  loc    : Loc
  at_    : Nat
  ident  : List Nat
  op     : TileOp
  hdr    : Hdr
  dest   : Nat
  slot   : Nat
  gangto : Nat
  deriving DecidableEq, Repr

/-! ### Messages (spec/11 R317 to R327, R471) -/

/-- A message: the handler id it names, its sender's holder id, region, model handle and core, its payload, its network (0 or
1), the key it was sent through and the reply key it carries. -/
structure Msg where
  hid    : Nat
  holder : Nat
  rid    : Nat
  uid    : Nat
  src    : Loc
  data   : List Byte
  vn     : Nat
  key    : Key
  reply  : Key
  deriving DecidableEq, Repr

/-- Where a message waits for its handler: an inbox slot, its sender's queue entry after a return (with the reason), or a reply
slot (as a reply, or as the notice of an `addn`). -/
inductive Wait where
  | inbox
  | returned (entry : Nat) (reason : Nat) (x14 : Nat)
  | slot (slot : Nat) (notice : Bool)
  deriving DecidableEq, Repr

/-- A message waiting at a core for its handler, in the order of R48; `lockedAt` is the cycle at which it first found its entry
locked (R327). `acc` is the scope of the acquire that the handler begins with. -/
structure Waiting where
  loc      : Loc
  hid      : Nat
  msg      : Msg
  wait     : Wait
  lockedAt : Option Nat
  deriving DecidableEq, Repr

/-- A send-queue entry of a core (R317): reserved by the dispatch-queue entry `entry` of an agent, sent and unacknowledged, or holding a returned
message. -/
structure SendEntry where
  loc  : Loc
  vn   : Nat
  id   : Nat
  uid  : Nat
  entry : Nat
  sent : Bool
  slot : Option Nat
  deriving DecidableEq, Repr

/-- A reply slot of a core (R320): its 16-bit sequence, whether it is reserved, for whom, and for an `addn` the handler id and the
payload its notice will carry. -/
structure ReplySlot where
  loc   : Loc
  slot  : Nat
  seq   : Nat
  used  : Bool
  uid   : Nat
  rid   : Nat
  holder : Nat
  full  : Bool
  addn  : Option (Nat × List Word)
  deriving DecidableEq, Repr

/-- A handler-table entry that is not EMPTY (R326). -/
structure HandlerEntry where
  loc    : Loc
  id     : Nat
  rid    : Nat
  set    : Bool
  addr   : Word
  deriving DecidableEq, Repr

/-! ### Requests, packets and links (spec/18) -/

/-- What becomes of a request's answer at its source (spec/11 R303, R315, spec/10 R281). -/
inductive ReqUse where
  /-- `rld`, `ramo`, `kinfo`: a long-latency result of the agent `uid` with this issue order. -/
  | result (uid order width : Nat) (sign : Bool)
  /-- A `ramo.addn`: the same, and the reply slot it reserved. -/
  | addn (uid order slot : Nat)
  /-- `kinfo` selector 3. -/
  | probe (uid order : Nat)
  /-- `rst`: a store. -/
  | store (tag : StoreTag)
  /-- One element of an `rvld` or `rvst` entry. -/
  | element (uid seq i : Nat) (tag : StoreTag)
  /-- A message, with the send-queue entry it left. -/
  | message (m : Msg) (entry : Nat)
  /-- One unit of a satellite's copy, or a notice of a collective. -/
  | unit (sid : Nat)
  | notice (sid : Nat)
  /-- Nothing: what asked for it has been abandoned or has ended, and the request is kept until it is answered (spec/18 R434). -/
  | dropped
  deriving DecidableEq, Repr

/-- A packet header and data (R426). `op` is the OP code; `sub` the handler id, `ramo` operation or reason; `aux` the operands of an
atomic or the attributes of a satellite's unit; `target` the module or vault that the request of this packet goes to; `req` is the
model's handle of the request at its source, and `given` says that `seq` has been given (R435, at the egress; log entry 8). -/
structure Packet where
  key    : Key
  off    : Nat
  op     : Nat
  sub    : Nat
  holder : Nat
  srcMod : Nat
  srcDie : Nat
  bucket : Nat
  seq    : Nat
  stamp  : Nat
  data   : List Byte
  aux    : List Word
  msg    : Option Msg
  target : Nat
  req    : Nat
  given  : Bool
  deriving DecidableEq, Repr

/-- Where a packet is (R302): at the egress of its source, in vault node k, or at the ingress of its target. -/
inductive Place where
  | egress
  | vault (k : Nat)
  | ingress (ep : Nat)
  | back
  deriving DecidableEq, Repr

/-- A packet under way on a path (R304, R433). -/
structure Flight where
  pkt   : Packet
  place : Place
  port  : Nat
  deriving DecidableEq, Repr

/-- An outstanding request at its source (R434): first sending, retransmissions so far, and what its answer is for; whether the RDC of the source
may keep what it reads (spec/05 R131, R146), and, once it was performed, the physical line of the target's memory that it named and the memory key of the
leaf through which it was read (spec/17 R417, R419). -/
structure Request where
  req    : Nat
  loc    : Loc
  rid    : Nat
  target : Nat
  pkt    : Packet
  first  : Nat
  resent : Nat
  queued : Bool
  use    : ReqUse
  keep   : Bool
  line   : Option Nat
  lkey   : Nat
  deriving DecidableEq, Repr

/-- The next SEQ of a bucket of a stream at its source (R435). -/
structure SeqNext where
  mod    : Nat
  die    : Nat
  target : Nat
  bucket : Nat
  next   : Nat
  deriving DecidableEq, Repr

/-- A stream's bucket at its target (R435): the next expected number, the packets held, and the last kept responses. -/
structure Bucket where
  mod    : Nat
  die    : Nat
  target : Nat
  bucket : Nat
  expect : Nat
  held   : List Packet
  kept   : List Packet
  last   : Nat
  deriving DecidableEq, Repr

/-- A fabric port of a module or a port of a vault node, one direction (R428 to R431): which lanes work, whether it is up or
training or stays down, the sequences, the replay buffer of whole flits, failed trainings, resends of one sequence, the last time ACKSEQ moved, the credits
against the number that the port started with, the credits to be returned, what has come of a packet that has not ended, and the flits whose network is
still to be seen. -/
structure Port where
  ep      : Nat
  n       : Nat
  lanes   : Nat
  up      : Bool
  training : Bool
  dead    : Bool
  sendSeq : Nat
  recvSeq : Nat
  nak     : Bool
  replay  : List (Nat × List Byte)
  resends : Nat
  acked   : Nat
  fails   : List Nat
  credit0 : Int
  credit1 : Int
  owed0   : Nat
  owed1   : Nat
  part    : List Byte
  dues    : Nat
  deriving DecidableEq, Repr

/-- An endpoint's generation, owner and retirement (R437, R470): the endpoint number of its module or vault, die, kind, unit and,
for kind 0, the granule; `young` where it was retired under the secret that is still current. An endpoint not listed has generation 0 and no owner. -/
structure Endpoint where
  ep      : Nat
  die     : Nat
  kind    : Nat
  unit    : Nat
  granule : Nat
  gen     : Nat
  retired : Bool
  young   : Bool
  owner   : Option Nat
  deriving DecidableEq, Repr

/-- What `krekey` has asked for and what is still to be done (spec/15 R400): the module, region and thread that asked, the address of the request, the
key words that name the endpoint of an advance, and the program counter and issue order of the `krekey`. -/
structure Advance where
  mod  : Nat
  rid  : Nat
  addr : Nat
  key  : Key
  uid  : Nat
  pc   : Word
  order : Nat
  deriving DecidableEq, Repr

/-- The tag secret of the domain (R436, R439): the current secret, the one before it while its grace period runs, and a rotation
whose acknowledgements are outstanding. -/
structure Secret where
  cur    : BitVec 128
  old    : Option (BitVec 128)
  graceEnd : Nat
  next   : Option (BitVec 128)
  word3  : Option Advance
  deriving DecidableEq, Repr

/-- A charter (R438): which modules and vault endpoints, dies, kinds and holder ids the keys of an interface may name, and its grace
period in ns. -/
structure Charter where
  mod     : Nat
  vif     : Nat
  outs    : List (Nat × Nat)
  dies    : Nat
  kinds   : Nat
  holders : List (Nat × Nat)
  asids   : List (Nat × Nat)
  grace   : Nat
  deriving DecidableEq, Repr

/-- A module of the domain: joined, its meridian offset, the count that it has reached before it was last slowed and below which it never reads, its status bits, the last good beacon, which Keywright and host interface
are in charge (spec/18 R438, R440, spec/01 R27); `corrected` counts the soft errors corrected since bring-up (spec/20 R467), and `refusals` holds the reasons
with which launch messages of its host were refused before bring-up had ended (spec/20 R464). -/
structure ModuleState where
  mod      : Nat
  up       : Bool
  offset   : Int
  floor    : Nat
  freeRun  : Bool
  slewing  : Bool
  refr     : Bool
  beacon   : Nat
  keywright : Nat
  hostif   : Nat
  boot     : Nat
  bootFail : Nat
  bootCount : Nat
  serial   : Word
  build    : Nat
  attests  : List (List Byte)
  corrected : Nat
  refusals : List Nat
  deriving DecidableEq, Repr

/-- A spawn, or a decrement of a join block, that waits for its release (spec/11 R329, R332). -/
structure Deferred where
  id    : Nat
  uid   : Nat
  loc   : Loc
  rid   : Nat
  upto  : Nat
  reqAt : Nat
  join  : Bool
  block : Nat
  pa    : Nat
  key   : Nat
  agent : Option Agent
  tag   : StoreTag
  deriving DecidableEq, Repr

/-- Bytes injected on a port by a region at a time (R441). -/
structure Inject where
  mod    : Nat
  port   : Nat
  vif    : Nat
  rid    : Nat
  at_    : Nat
  bytes  : Nat
  deriving DecidableEq, Repr

/-! ### Trace, power, cores (spec/19, spec/20) -/

/-- A trace buffer (spec/19 R448): the region and die it is bound to, the region that issued `trcctl` and the descriptor's address in that
region's space (spec/17 R425), whether it sees a confidential region from outside (R457), the descriptor's words, the control word,
how far it is written, what is lost since when, and the debug table (R444), of one die. -/
structure TraceBuf where
  mod   : Nat
  die   : Nat
  rid   : Nat
  issuer : Nat
  desc  : Nat
  masked : Bool
  words : List Word
  ctl   : Nat
  gapped : Nat
  wrptr : Nat
  lost  : Nat
  gapFrom : Nat
  gapTo : Nat
  debug : List Word
  deriving DecidableEq, Repr

/-- A trace record waiting in a die's trace unit (spec/19 R450): the time from which it is timed, and the time at which it was produced. -/
structure TraceRec where
  mod  : Nat
  die  : Nat
  rid  : Nat
  time : Nat
  made : Nat
  words : List Word
  deriving DecidableEq, Repr

/-- A hardware context that held a thread at a power event, with the old and the new state of its core (spec/19 R450, R455). -/
structure PowerAt where
  rid  : Nat
  core : Nat
  ctx  : Nat
  old  : Nat
  new  : Nat
  deriving DecidableEq, Repr

/-- A power or thermal event whose POWER record is still to be written (spec/19 R455): its number, the first core whose state it changed (or core 0) with
its old and new state, its time, and the contexts of the cores concerned. -/
structure PowerEv where
  ev   : Nat
  core : Nat
  old  : Nat
  new  : Nat
  at_  : Nat
  held : List PowerAt
  deriving DecidableEq, Repr

/-- A die: power limit and thermal throttle, the platform's and the limit's ceilings, tripped clocks (spec/20 R465, spec/19 R442). -/
structure DieState where
  mod      : Nat
  die      : Nat
  limited  : Bool
  throttle : Bool
  platCeil : Nat
  limCeil  : Nat
  tripped  : Bool
  lastTime : List (Nat × Nat)
  captureEnd : Option Nat
  power    : List PowerEv
  deriving DecidableEq, Repr

/-- What a core keeps beside its agents: K-groups and energy for each region, the regions' ceilings, the last machine-check
record, the masked handler ids, and the region of the thread placed on it last (spec/20 R465). -/
structure CoreState where
  loc     : Loc
  kgroups : List (Nat × Nat)
  energy  : List (Nat × Nat)
  ceils   : List (Nat × Nat)
  mchk    : Word
  hmask   : BitVec 256
  last    : Option Nat
  deriving DecidableEq, Repr

/-! ### The schedule: what the environment and the hardware's timing choose (log entry 3) -/

/-- One choice of timing or of the environment: an agent takes a turn; a row of the table that no chain names happens; meridian time passes, in ns; a
core's clock ticks; a line leaves an RDC, an instruction cache or a TLB; a queued thread moves to another die's queue (spec/16 R407); the host sends a
launch message or consumes entries of a host queue; bytes come into memory from outside, as an image does (spec/03 R97); frames are placed on a die; the
platform adds a module with its serial number and build, sets a grant, a charter, a host queue's ring or a die's ceiling; a Keywright ends an advance of a
generation; the W9 brings a region's control block up to date; a module's clock drifts by 1 ns; a region that launches gives the block of its launch message
(spec/03 R99). -/
inductive Move where
  | turn (uid : Nat)
  | occur (i : Instr)
  | pass (ns : Nat)
  | clock (loc : Loc) (cycles : Nat)
  | evictRdc (mod die ep line : Nat)
  | dropCode (loc : Loc) (line : Nat)
  | dropTlb (n : Nat)
  | migrate (uid die : Nat)
  | hostLaunch (q : Launch)
  | hostTake (mod vif n k : Nat)
  | bring (ep pa : Nat) (bs : List Byte)
  | home (line n die : Nat)
  | attach (mod : Nat) (serial : Word) (build : Nat)
  | grant (v : Vif)
  | charter (c : Charter)
  | hostQueue (mod vif n base size : Nat)
  | ceiling (mod die state : Nat)
  | advance
  | showRegion (mod rid : Nat)
  | drift (mod : Nat) (ahead : Bool)
  | block (n : Nat) (handlers : List (Nat × Word)) (keys : List (Nat × Key)) (thread : Bool)
  deriving DecidableEq, Repr

/-- Per core: the clock counter (spec/01 R30), and the context that issued last, after which the next ready one issues (spec/02 R35). -/
structure CoreClock where
  loc    : Loc
  cycles : Nat
  last   : Nat
  deriving DecidableEq, Repr

/-- A line of a core's instruction cache, of 64 KiB (spec/01 R17): the 128 bytes of code it holds, by physical line and by the address space that fetched
it (spec/03 R93, spec/15 R393). -/
structure CodeLine where
  loc  : Loc
  vif  : Nat
  asid : Nat
  ep   : Nat
  line : Nat
  data : BitVec 1024
  deriving DecidableEq, Repr

/-- A line held by a core's scalar data cache, of 64 KiB (spec/01 R17), by physical line. The cache is write-through and coherent with the home L2 or the
die's RDC (spec/06 R160), so its bytes are theirs and are not held a second time. -/
structure DataLine where
  loc  : Loc
  ep   : Nat
  line : Nat
  deriving DecidableEq, Repr

/-- The 128-byte accesses that a region made through a die's L2, RDC and router since their energy was last charged (spec/19 R443). -/
structure AccessCount where
  mod : Nat
  die : Nat
  rid : Nat
  n   : Nat
  deriving DecidableEq, Repr

/-- The whole machine. -/
structure State where
  me       : Agent
  others   : List Agent
  schedule : List Move
  fresh    : Nat
  nextUid  : Nat
  now      : Nat
  clocks   : List CoreClock
  -- memory
  mem      : List Host.Cell
  homes    : List (Nat × Nat × Nat)
  counted  : List Counted
  saved    : List SavedLine
  rdc      : List RdcLine
  l2       : List L2Line
  l2clock  : Nat
  fills    : List (Nat × Nat × Nat × Nat)
  outHits  : List (Loc × Nat)
  accs     : List AccessCount
  icache   : List CodeLine
  dcache   : List DataLine
  tlb      : List TlbEntry
  reports  : List Report
  poison   : List (Nat × Nat × Nat)
  crypt    : List (Nat × Nat × Nat)
  allocs   : List Alloc
  slines   : List SLine
  regions  : List Region
  rqueues  : List RQueue
  vifs     : List Vif
  hostqs   : List HostQueue
  launches : List Launch
  plans    : List Plan
  -- satellites and matrix slices
  nextSid  : Nat
  sats     : List Sat
  gens     : List SlotGen
  notices  : List Notice
  slices   : List Slice
  barrier  : List Arrival
  -- messages, requests and links
  nextReq  : Nat
  waiting  : List Waiting
  sendq    : List SendEntry
  rslots   : List ReplySlot
  htab     : List HandlerEntry
  reqs     : List Request
  flights  : List Flight
  seqs     : List SeqNext
  buckets  : List Bucket
  ports    : List Port
  endpoints : List Endpoint
  secret   : Secret
  advances : List Advance
  charters : List Charter
  modules  : List ModuleState
  deferred : List Deferred
  inject   : List Inject
  -- trace and power
  tbufs    : List TraceBuf
  tqueue   : List TraceRec
  tcapture : List TraceRec
  dies     : List DieState
  cores    : List CoreState
  deriving DecidableEq, Repr

/-- Why a step has no next state. -/
inductive Fault where
  /-- A turn, or a step of a unit, asked of a die whose clocks a thermal trip has stopped; the module must be reset (spec/20
  R465). Raised by `step` alone. Safe: the hardware does nothing there either. -/
  | clocksStopped
  deriving DecidableEq, Repr

/-- Why the model gives an instruction no meaning. -/
inductive Refusal where
  /-- An arm of `exec` whose instruction has no meaning yet. Safe: nothing is claimed about it. -/
  | notModelled (mnemonic : String)
  deriving DecidableEq, Repr

/-! ### Reset -/

/-- An agent with every field zero: the record `State.me` before any thread exists (log entry 2). `slip` 8 and the other values of
R34 are given at creation. -/
def Agent.vacant : Agent where
  uid := 0
  kind := .thread
  loc := ⟨0, 0, 0⟩
  ctx := 0
  rid := 0
  tid := 0
  level := 0
  cls := 0
  cmask := 0
  quarter := 0
  named := none
  life := .exited
  placed := false
  saved := false
  hold := false
  complete := false
  saveTime := 0
  started := 0
  x := Vector.replicate 32 0
  v := Vector.replicate 32 0
  p := Vector.replicate 12 0
  k := Vector.replicate 16 0
  marks := Vector.replicate 32 0
  pc := 0
  ir := []
  vl := 0
  vfmcCount := 0
  vfmcCause := 0
  vfmcLog := []
  fmask := 0
  slip := 0
  efc := 0
  fprm := 0
  fpsp := false
  fpen := 0
  fpflags := 0
  fpera := 0
  sattr := 0
  sshape := 0
  slaunch := 0
  safter := 0
  mcfgv := 0
  msbase := 0
  mgang := 0
  gangto := 0
  utvec := 0
  ucause := 0
  uepc := 0
  uaddr := 0
  uinfo := 0
  pscratch := 0
  uta := false
  issued := 0
  retired := 0
  pendX := 0
  pendK := 0
  marked := false
  inflight := []
  order := 0
  queue := []
  done := []
  nextSeq := 0
  aside := none
  vstop := none
  failures := []
  late := []
  preempt := false
  debugStop := none
  debugSkip := false
  cycleLimit := false
  carried := []
  wfiSeen := false
  turn := 0
  acq := 0
  launched := false
  pended := 0
  wfiFrom := none
  fenceAt := 0
  pipeEnd := []
  holds := []
  userSeq := 0

/-- Module 0 right after reset, before bring-up (spec/20 R464, step 0). -/
def ModuleState.reset : ModuleState where
  mod := 0
  up := false
  offset := 0
  floor := 0
  freeRun := false
  slewing := false
  refr := false
  beacon := 0
  keywright := 8
  hostif := 8
  boot := 0
  bootFail := 0
  bootCount := 0
  serial := 0
  build := 0
  attests := []
  corrected := 0
  refusals := []

/-- The machine right after reset: no thread, no region, nothing listed in memory (spec/20 R464). -/
def State.reset : State where
  me := Agent.vacant
  others := []
  schedule := []
  fresh := 0
  nextUid := 1
  now := 0
  clocks := []
  mem := []
  homes := []
  counted := []
  saved := []
  rdc := []
  l2 := []
  l2clock := 0
  fills := []
  outHits := []
  accs := []
  icache := []
  dcache := []
  tlb := []
  reports := []
  poison := []
  crypt := []
  allocs := []
  slines := []
  regions := []
  rqueues := []
  vifs := []
  hostqs := []
  launches := []
  plans := []
  nextSid := 1
  sats := []
  gens := []
  notices := []
  slices := []
  barrier := []
  nextReq := 1
  waiting := []
  sendq := []
  rslots := []
  htab := []
  reqs := []
  flights := []
  seqs := []
  buckets := []
  ports := []
  endpoints := []
  secret := ⟨0, none, 0, none, none⟩
  advances := []
  charters := []
  modules := [ModuleState.reset]
  deferred := []
  inject := []
  tbufs := []
  tqueue := []
  tcapture := []
  dies := []
  cores := []

end Sys2Proof.Machine
end

