-- ==== Sys2Proof/Machine/Mem.lean ====
section
/-! DEFINITION. Sys2Proof/Machine/Mem.lean: generic memory as agents of a die see it: homes, the home L2, the remote-data
cache of each die and counted lines (spec/01 R20 to R22, spec/05 R129 to R142). Every access here lies within one line of
128 bytes. A store is performed when it issues: at the home for a line homed on the storing die, and otherwise in the die's
RDC until a release or an eviction (R131; log entry 12). -/

namespace Sys2Proof.Machine

/-- Who makes an access, and how: its core, its region, its region's partition class and fill ways, the memory key of the
leaf it goes through (0 for a leaf without `C`, else the region's number plus 1, spec/17 R417, spec/20 R458). -/
structure Via where
  loc  : Loc
  rid  : Nat
  cls  : Nat
  ways : Nat
  key  : Nat
  deriving DecidableEq, Repr

/-! ### Regions by number -/

/-- The region of number `rid` of module `mod`. -/
def State.region? (s : State) (mod rid : Nat) : Option Region := s.regions.find? fun r => r.mod == mod && r.rid == rid

/-- Change a region. -/
def State.updRegion (s : State) (mod rid : Nat) (f : Region → Region) : State :=
  { s with regions := mapIf (fun r => r.mod == mod && r.rid == rid) f s.regions }

/-- What a region's children, but one, hold of one of its amounts (spec/16 R404). -/
def State.grantedBy (s : State) (p : Region) (but : Nat) (f : Region → Nat) : Nat :=
  ((s.regions.filter fun c => c.mod == p.mod && c.parent == p.rid && c.rid != p.rid && c.rid != but && c.state == .bound).map f).sum

/-- What is left to a region of one of its amounts: those of its children are taken from it while they are bound (spec/16 R404). -/
def State.left (s : State) (r : Region) (f : Region → Nat) : Nat := f r - s.grantedBy r r.rid f

/-- The way an agent of a core and a region reaches memory through a leaf without `C`. -/
def State.via (s : State) (loc : Loc) (rid : Nat) : Via :=
  match s.region? loc.mod rid with
  | none => ⟨loc, rid, 0, 0xFFFF, 0⟩
  | some r => ⟨loc, rid, r.pclass, r.ways, 0⟩

/-! ### Homes (R22) -/

/-- The home die of a line: the list of placed ranges decides (first line, number of lines, die), and outside it the line number
modulo 8 (log entry 6). -/
def State.homeDie (s : State) (line : Nat) : Nat :=
  match s.homes.find? fun h => decide (h.1 ≤ line) && decide (line < h.1 + h.2.1) with
  | some h => h.2.2 % 8
  | none => line % 8

/-- The counted line at an endpoint's line (R136). -/
def State.counted? (s : State) (ep line : Nat) : Option Counted := s.counted.find? fun c => c.ep == ep && c.line == line

/-! ### Residence in the home L2 (R20, R130, R350) -/

/-- The slice and set of a line among the 49,152 of its die: each block of 6 MiB visits each once (R350), in an order the spec
does not publish; the model takes the line's place in its block (log entry 6). -/
def l2Slot (line : Nat) : Nat := line % 49152

/-- Ways of a mask, ascending. -/
def waysOf (mask : Nat) : List Nat := (List.range 16).filter fun w => mask.testBit w

/-- The way a fill takes: an empty one of the masked ways, else that of the least recently used line in them that is not counted;
none when counted lines hold them all (R130, R136). -/
def State.victim (s : State) (ep die slot ways : Nat) : Option Nat :=
  let here := s.l2.filter fun l => l.ep == ep && l.die == die && l.slice * 64 + l.set == slot
  match (waysOf ways).find? fun w => here.all fun l => l.way != w with
  | some w => some w
  | none =>
    let free := here.filter fun l => ways.testBit l.way && (s.counted? l.ep l.line).isNone
    match free with
    | [] => none
    | a :: t => some ((t.foldl (fun b l => if l.used < b.used then l else b) a).way)

/-- The ways that a region fills on a die: its own mask, and for a root region what the grant's mask on that die leaves of it (spec/16 R472). -/
def State.waysOn (s : State) (v : Via) (die : Nat) : Nat :=
  if v.rid < 0xFF00 then v.ways
  else match s.vifs.find? fun f => f.mod == v.loc.mod && f.vif + 0xFF00 == v.rid with
    | none => v.ways
    | some f => v.ways &&& f.ways.getD die 0

/-- The recency of a resident line renewed (R350: the last fill or hit, by any agent). -/
def State.renewL2 (s : State) (ep line : Nat) : State :=
  { s with l2clock := s.l2clock + 1, l2 := mapIf (fun a => a.ep == ep && a.line == line) (fun a => { a with used := s.l2clock + 1 }) s.l2 }

/-- The scalar data caches of a die drop a line (spec/06 R160). -/
def State.dropData (s : State) (mod die ep line : Nat) : State :=
  { s with dcache := s.dcache.filter fun d => !(d.loc.mod == mod && d.loc.die == die && d.ep == ep && d.line == line) }

/-- A line leaves the home L2, and with it the data caches of the die (R160). -/
def State.dropL2 (s : State) (ep line : Nat) : State :=
  { (s.dropData ep (s.homeDie line) ep line) with l2 := s.l2.filter fun l => !(l.ep == ep && l.line == line) }

/-- An agent of `v` reaches line `line` of its module at its home L2: a hit renews the line's recency, a miss fills a way of the
region's mask (R130). A hit on the agent's own die outside the mask, and a fill, are counted (spec/19 R442). -/
def State.touchL2 (s : State) (v : Via) (ep line : Nat) : State :=
  let die := s.homeDie line
  let ways := s.waysOn v die
  match s.l2.find? fun l => l.ep == ep && l.line == line with
  | some l =>
    let s := s.renewL2 ep line
    if ways.testBit l.way || die != v.loc.die then s
    else
      let n := ((s.outHits.find? fun a => a.1 == v.loc).map Prod.snd).getD 0
      { s with outHits := upsert (fun a => a.1 == v.loc) (v.loc, n + 1) s.outHits }
  | none =>
    let now := s.l2clock + 1
    let slot := l2Slot line
    match s.victim ep die slot ways with
    | none => { s with l2clock := now }
    | some w =>
      let goes (l : L2Line) : Bool := l.ep == ep && l.die == die && l.slice * 64 + l.set == slot && l.way == w
      let s := match s.l2.find? goes with
        | some l => s.dropData ep die ep l.line
        | none => s
      let n := ((s.fills.find? fun a => a.1 == ep && a.2.1 == die && a.2.2.1 == v.cls).map fun a => a.2.2.2).getD 0
      { s with l2clock := now, l2 := ⟨ep, line, die, slot / 64, slot % 64, w, v.cls, now⟩ :: s.l2.filter (fun l => !goes l),
               fills := upsert (fun a => a.1 == ep && a.2.1 == die && a.2.2.1 == v.cls) (ep, die, v.cls, n + 1) s.fills }

/-! ### Encrypted lines (spec/17 R417, spec/20 R458) -/

/-- The memory key under which a line, counted or not, was last written, 0 for none. -/
def State.lineKey (s : State) (ep line : Nat) : Nat :=
  match s.counted? ep line with
  | some c => c.key
  | none => ((s.crypt.find? fun c => c.1 == ep && c.2.1 == line).map fun c => c.2.2).getD 0

/-- A line written under memory key `key`. -/
def State.setLineKey (s : State) (ep line key : Nat) : State :=
  let rest := s.crypt.filter fun c => !(c.1 == ep && c.2.1 == line)
  { s with crypt := if key = 0 then rest else (ep, line, key) :: rest }

/-- The blocks of a pair have changed places. -/
def swapBlock (p : BitVec 128 × BitVec 128) (b : BitVec 128) : BitVec 128 := if b = p.1 then p.2 else if b = p.2 then p.1 else b

/-- A block as it is stored under a key; number 0 is no key. -/
def encBlock (key line j : Nat) (b : BitVec 128) : BitVec 128 := if key = 0 then b else (Config.xts key line j).foldl (fun b p => swapBlock p b) b

/-- A stored block as it reads under a key. -/
def decBlock (key line j : Nat) (b : BitVec 128) : BitVec 128 := if key = 0 then b else (Config.xts key line j).foldr swapBlock b

/-- A line written under key `wk` as it reads under key `rk`: itself under the same key, and otherwise each block as stored under the one, read under the
other. -/
def underKey (wk rk line : Nat) (d : BitVec 1024) : BitVec 1024 :=
  if wk = rk then d
  else BitVec.ofNat 1024 ((List.range 8).foldl (fun n j =>
    n + (decBlock rk line j (encBlock wk line j (BitVec.ofNat 128 (getField d (128 * j) 128)))).toNat * 2 ^ (128 * j)) 0)

/-! ### At the home (R148) -/

/-- `n` bytes at the home of their line: the counted line's, if it is counted (R139), else memory's. -/
def State.homeBytes (s : State) (ep pa n : Nat) : List Byte :=
  match s.counted? ep (pa / 128) with
  | some c => lineBytes c.data (pa % 128) n
  | none => Memory.read s.mem (cellOf ep pa) n

/-- A line at its home. -/
def State.homeLine (s : State) (ep line : Nat) : BitVec 1024 := lineOf (s.homeBytes ep (line * 128) 128)

/-- `n` bytes of one line at its home as they read through memory key `key`. -/
def State.homeSeen (s : State) (ep key pa n : Nat) : List Byte :=
  if s.lineKey ep (pa / 128) = key then s.homeBytes ep pa n
  else lineBytes (underKey (s.lineKey ep (pa / 128)) key (pa / 128) (s.homeLine ep (pa / 128))) (pa % 128) n

/-- A doubleword at its home: what a page walk reads (spec/17 R419). -/
def State.homeWord (s : State) (ep pa : Nat) : Word := BitVec.ofNat 64 (bytesNat (s.homeBytes ep pa 8))

/-- Bytes put into memory at the home, whatever is counted there; the data caches of the home die drop the line (R160). -/
def State.poke (s : State) (ep pa : Nat) (bs : List Byte) : State :=
  { (s.dropData ep (s.homeDie (pa / 128)) ep (pa / 128)) with mem := Memory.write s.mem (cellOf ep pa) bs }

/-- A line that bytes are to be written to under key `key`: one held under another key is read through the new key and held under it from then on, so
that its other bytes are what that read gave (spec/20 R458: the cipher's data unit is the line). -/
def State.rekey (s : State) (ep line key : Nat) : State :=
  if s.lineKey ep line = key then s
  else (s.poke ep (line * 128) (natBytes 128 (underKey (s.lineKey ep line) key line (s.homeLine ep line)).toNat)).setLineKey ep line key

/-- Bytes written into an uncounted line at its home under key `key`. -/
def State.pokeAs (s : State) (ep key pa : Nat) (bs : List Byte) : State := (s.rekey ep (pa / 128) key).poke ep pa bs

/-- Free bytes, as many as a list has (spec/00 R9). -/
def freeBytes (fresh : Nat) (n : Nat) : List Byte := (List.range n).map fun i => Config.freeByte fresh i

/-- A line is poisoned (spec/20 R467); a counted line only where the error is in the L2 itself (unit 2). -/
def State.poisoned (s : State) (ep line : Nat) : Bool :=
  s.poison.any fun q => q.1 == ep && q.2.1 == line && ((s.counted? ep line).isNone || q.2.2 == 2)

/-- The machine-check record of a core (spec/20 R467): cause 0x22, the unit and the physical address. -/
def mchkWord (unit pa : Nat) : Word := BitVec.ofNat 64 (0x22 * 2 ^ 56 + unit * 2 ^ 52 + pa % 2 ^ 52)

/-- The unit that holds a poisoned line (spec/20 R467): the RDC, where no home does. -/
def State.poisonUnit (s : State) (ep line : Nat) : Nat :=
  ((s.poison.find? fun q => q.1 == ep && q.2.1 == line).map fun q => q.2.2).getD 3

/-- What a core keeps; a core not listed has nothing set. -/
def State.core (s : State) (l : Loc) : CoreState :=
  (s.cores.find? fun c => c.loc == l).getD ⟨l, [], [], [], 0, 0, none⟩

/-- Change what a core keeps. -/
def State.updCore (s : State) (l : Loc) (f : CoreState → CoreState) : State :=
  { s with cores := upsert (fun c => c.loc == l) (f (s.core l)) s.cores }

/-- An uncorrectable error found by a core at a physical address: its machine-check record (spec/20 R467). -/
def State.foundError (s : State) (l : Loc) (unit pa : Nat) : State := s.updCore l fun c => { c with mchk := mchkWord unit pa }

/-- The core of a store that meets an uncorrectable error finds it; a write that no agent made has no core (spec/20 R467). -/
def State.storeError (s : State) (tag : StoreTag) (unit pa : Nat) : State := if tag.uid = 0 then s else s.foundError tag.loc unit pa

/-- A plain write under memory key `key` reaches its home: a counted line refuses it, and the refusal is reported for the store (R139). Poisoned data
stays poisoned until its line is written whole (spec/20 R467): a write of part of it meets the error, its bytes become unpredictable and it
is reported with cause 0x22 (spec/06 R171). Otherwise the bytes are written. -/
def State.homeStore (s : State) (tag : StoreTag) (ep key pa : Nat) (bs : List Byte) : State :=
  match s.counted? ep (pa / 128) with
  | some _ => { s with reports := s.reports ++ [⟨tag, 0x25⟩] }
  | none =>
    if s.poisoned ep (pa / 128) then
      if bs.length = 128 then { (s.pokeAs ep key pa bs) with poison := s.poison.filter fun q => !(q.1 == ep && q.2.1 == pa / 128) }
      else { ((s.storeError tag (s.poisonUnit ep (pa / 128)) pa).pokeAs ep key pa (freeBytes s.fresh bs.length)) with
        fresh := s.fresh + 1, reports := s.reports ++ [⟨tag, 0x22⟩] }
    else s.pokeAs ep key pa bs

/-! ### The remote-data cache (R21, R131) -/

/-- The RDC line of die `die` of module `mod` that holds line `line` of endpoint `ep`. -/
def State.rdc? (s : State) (mod die ep line : Nat) : Option RdcLine :=
  s.rdc.find? fun l => l.mod == mod && l.die == die && l.ep == ep && l.line == line

/-- An RDC without that line; the data caches of the die drop it too (R160). -/
def State.dropRdc (s : State) (mod die ep line : Nat) : State :=
  { (s.dropData mod die ep line) with rdc := s.rdc.filter fun l => !(l.mod == mod && l.die == die && l.ep == ep && l.line == line) }

/-- The dirty bytes of a line as stretches: offset and bytes, ascending. -/
def dirtyRuns (data : BitVec 1024) (dirty : BitVec 128) : List (Nat × Byte) :=
  ((List.range 128).filter fun i => dirty.getLsbD i).map fun i => (i, BitVec.ofNat 8 (getField data (8 * i) 8))

/-- The dirty bytes that a release of scope `sc` takes home: those of stores that it counts (R152). -/
def RdcLine.due (l : RdcLine) (sc : Nat) : BitVec 128 :=
  l.tags.foldl (fun m t => if sc ≤ t.rel.val then m ||| (t.mask &&& l.dirty) else m) 0

/-- The dirty bytes `m` of an RDC line reach the home (R131, R139): a counted line refuses them, and every store whose bytes they
were is reported; otherwise those bytes, and only those, are written. Poisoned bytes leave the home's line poisoned, found by the RDC (spec/20 R467). -/
def State.writeBack (s : State) (l : RdcLine) (m : BitVec 128) : State :=
  let tags := l.tags.filter fun t => t.mask &&& m != 0
  if m = 0 then s
  else match s.counted? l.ep l.line with
    | some _ => { s with reports := s.reports ++ tags.map fun t => ⟨t, 0x25⟩ }
    | none =>
      let s := s.renewL2 l.ep l.line
      if l.bad || (s.poisoned l.ep l.line && m != BitVec.allOnes 128) then
        let s := tags.foldl (fun s t => s.storeError t (if l.bad then 3 else s.poisonUnit l.ep l.line) (l.line * 128)) s
        { (dirtyRuns l.data m).foldl (fun s r => s.pokeAs l.ep l.key (l.line * 128 + r.1) [Config.freeByte s.fresh r.1]) s with
          fresh := s.fresh + 1, reports := s.reports ++ tags.map fun t => ⟨t, 0x22⟩,
          poison := if s.poisoned l.ep l.line then s.poison else (l.ep, l.line, 3) :: s.poison }
      else
        { (dirtyRuns l.data m).foldl (fun s r => s.pokeAs l.ep l.key (l.line * 128 + r.1) [r.2]) s with
          poison := s.poison.filter fun q => !(q.1 == l.ep && q.2.1 == l.line) }

/-- An RDC line whose dirty bytes `m` have gone to the home. -/
def RdcLine.cleaned (l : RdcLine) (m : BitVec 128) : RdcLine :=
  { l with dirty := l.dirty &&& ~~~m,
           tags := (l.tags.map fun t => { t with mask := t.mask &&& ~~~m }).filter fun t => t.mask != 0 }

/-- A line some of whose dirty bytes `m` its home refuses, having become counted: those bytes are written nowhere, and the RDC keeps none of the line
but what is still dirty (R139; log entry 28). -/
def State.refusedLine (s : State) (l : RdcLine) (m : BitVec 128) : Bool := m != 0 && (s.counted? l.ep l.line).isSome

/-- What an RDC holds of a line after its dirty bytes due at scope `sc` have gone home. -/
def State.flushed (s : State) (sc : Nat) (l : RdcLine) : Option RdcLine :=
  let l' := l.cleaned (l.due sc)
  if s.refusedLine l (l.due sc) then (if l'.dirty = 0 then none else some { l' with valid := l'.dirty }) else some l'

/-- Every dirty byte in the RDC of a die that a release of scope `sc` counts reaches its home (R131, R150, R152). -/
def State.flushRdc (s : State) (mod die sc : Nat) : State :=
  let mine := s.rdc.filter fun l => l.mod == mod && l.die == die
  let kept := s.rdc.filterMap fun l => if l.mod == mod && l.die == die then s.flushed sc l else some l
  { (mine.foldl (fun s l => s.writeBack l (l.due sc)) s) with rdc := kept }

/-- The dirty bytes of one line of an RDC reach the home, and the line leaves the RDC. -/
def State.evictRdc (s : State) (mod die ep line : Nat) : State :=
  match s.rdc? mod die ep line with
  | none => s
  | some l => (s.writeBack l l.dirty).dropRdc mod die ep line

/-- What an acquire leaves of a line in an RDC: nothing of a clean one, and of the others the bytes still dirty. -/
def RdcLine.discarded (l : RdcLine) : Option RdcLine := if l.dirty = 0 then none else some { l with valid := l.dirty }

/-- An acquire at scope 3 discards the clean lines of the module's memory, and at scope 4 or wider those read through a key too
(R131); dirty bytes go home first. An answer on its way to a key's reader is not kept (R146). -/
def State.discardRdc (s : State) (mod die : Nat) (keyed : Bool) : State :=
  let s := s.flushRdc mod die 3
  let goes (l : RdcLine) : Bool := l.mod == mod && l.die == die && (keyed || !l.keyed)
  { s with rdc := s.rdc.filterMap (fun l => if goes l then l.discarded else some l),
           dcache := s.dcache.filter fun d => !(d.loc.mod == mod && d.loc.die == die && s.homeDie d.line != die),
           reqs := if keyed then mapIf (fun q => q.loc.mod == mod && q.loc.die == die) (fun q => { q with keep := false }) s.reqs else s.reqs }

/-- The set of an RDC that a line belongs to, of 16,384 (R21; log entry 6). -/
def rdcSet (line : Nat) : Nat := line % 16384

/-- The lines of the set of an RDC that a line belongs to, the one that has stood there longest first. -/
def State.rdcMates (s : State) (mod die line : Nat) : List RdcLine :=
  s.rdc.filter fun a => a.mod == mod && a.die == die && rdcSet a.line == rdcSet line

/-- An RDC with room for a line: in a full set, of 8 ways, the line that has stood there longest is evicted (R21, R131; log entry 6). -/
def State.rdcRoom (s : State) (mod die line : Nat) : State :=
  match s.rdcMates mod die line with
  | old :: t => if t.length < 7 then s else s.evictRdc old.mod old.die old.ep old.line
  | [] => s

/-- A new line of an RDC. -/
def State.rdcAdd (s : State) (l : RdcLine) : State :=
  let s := s.rdcRoom l.mod l.die l.line
  { s with rdc := s.rdc ++ [l] }

/-- A line of an RDC replaced by another with the same place. -/
def State.setRdc (s : State) (l : RdcLine) : State :=
  { s with rdc := mapIf (fun a => a.mod == l.mod && a.die == l.die && a.ep == l.ep && a.line == l.line) (fun _ => l) s.rdc }

/-- An RDC whose line, if it holds it under another memory key, has left it (R417). -/
def State.underRdc (s : State) (mod die ep line key : Nat) : State :=
  match s.rdc? mod die ep line with
  | some l => if l.key = key then s else s.evictRdc mod die ep line
  | none => s

/-- The line of an RDC, seen through memory key `key`, with what its home holds in every byte that is not dirty. -/
def State.rdcFill (s : State) (mod die ep line key : Nat) : RdcLine × State :=
  let s := s.underRdc mod die ep line key
  let home := underKey (s.lineKey ep line) key line (s.homeLine ep line)
  match s.rdc? mod die ep line with
  | some l =>
    if l.valid = BitVec.allOnes 128 then (l, s)
    else
      let l' := { l with data := mergeLine l.valid l.data home, valid := BitVec.allOnes 128 }
      (l', s.setRdc l')
  | none =>
    let l : RdcLine := ⟨mod, die, ep, line, false, home, BitVec.allOnes 128, 0, [], false, key, []⟩
    (l, s.rdcAdd l)

/-- A line of an RDC goes home before bytes `m` are written over it that fewer releases count than those which they replace, so that no release loses a
byte that it has to take home (R150, R152). -/
def State.beforeStore (s : State) (mod die ep line rel : Nat) (m : BitVec 128) : State :=
  match s.rdc? mod die ep line with
  | some l => if l.tags.any fun t => decide (rel < t.rel.val) && t.mask &&& m != 0 then s.evictRdc mod die ep line else s
  | none => s

/-- Bytes written into an RDC line: dirty until they go home; a store whose bytes are all overwritten is no longer held (R139). -/
def State.rdcStore (s : State) (mod die ep line key : Nat) (tag : StoreTag) (o : Nat) (bs : List Byte) : State :=
  let m := maskSpan o bs.length
  let d := lineAt o bs
  let tag := { tag with mask := m }
  let s := ((s.underRdc mod die ep line key).beforeStore mod die ep line tag.rel.val m).dropData mod die ep line
  match s.rdc? mod die ep line with
  | some l =>
    let old := (l.tags.map fun t => { t with mask := t.mask &&& ~~~m }).filter fun t => t.mask != 0
    s.setRdc { l with data := mergeLine m d l.data, valid := l.valid ||| m, dirty := l.dirty ||| m, tags := old ++ [tag], bad := l.bad && bs.length != 128 }
  | none => s.rdcAdd ⟨mod, die, ep, line, false, d, m, m, [tag], false, key, []⟩

/-! ### Accesses of an agent (R129) -/

/-- Accesses counted for the region that made them, from its die (spec/19 R443). -/
def State.countAcc (s : State) (v : Via) (n : Nat) : State :=
  let mine (a : AccessCount) : Bool := a.mod == v.loc.mod && a.die == v.loc.die && a.rid == v.rid
  { s with accs := upsert mine ⟨v.loc.mod, v.loc.die, v.rid, ((s.accs.find? mine).map AccessCount.n).getD 0 + n⟩ s.accs }

/-- An agent of a die reaches a line at its home L2: its own die, or a counted line (R136). -/
def State.atHome (s : State) (v : Via) (line : Nat) : Bool :=
  s.homeDie line == v.loc.die || (s.counted? v.loc.mod line).isSome

/-- The die's RDC holds every byte of a line under the reader's key. -/
def State.rdcHas (s : State) (v : Via) (line : Nat) : Bool :=
  ((s.rdc? v.loc.mod v.loc.die v.loc.mod line).map fun l => l.valid == BitVec.allOnes 128 && l.key == v.key).getD false

/-- A read of `n` bytes of one line by an agent of `v` (R129). -/
def State.readLine (s : State) (v : Via) (pa n : Nat) : List Byte × State :=
  let ep := v.loc.mod
  let line := pa / 128
  let s := s.countAcc v 1
  if s.atHome v line then (s.homeSeen ep v.key pa n, s.touchL2 v ep line)
  else
    let r := (if s.rdcHas v line then s else s.touchL2 v ep line).rdcFill v.loc.mod v.loc.die ep line v.key
    (lineBytes r.1.data (pa % 128) n, r.2)

/-- A read that would meet poisoned data (spec/20 R467): at the home that it goes to, or in the die's RDC. -/
def State.readBad (s : State) (v : Via) (pa : Nat) : Bool :=
  let line := pa / 128
  if s.atHome v line then s.poisoned v.loc.mod line
  else match s.rdc? v.loc.mod v.loc.die v.loc.mod line with
    | none => s.poisoned v.loc.mod line
    | some l => l.bad || (l.valid != BitVec.allOnes 128 && s.poisoned v.loc.mod line)

/-- A plain write of bytes within one line by an agent of `v` (R129, R131, R139). -/
def State.writeLine (s : State) (v : Via) (tag : StoreTag) (pa : Nat) (bs : List Byte) : State :=
  let ep := v.loc.mod
  let line := pa / 128
  let s := s.countAcc v 1
  if s.homeDie line = v.loc.die then (s.homeStore tag ep v.key pa bs).touchL2 v ep line
  else s.rdcStore v.loc.mod v.loc.die ep line v.key tag (pa % 128) bs

/-- The store values of a store by nobody: a write that the W9 makes for itself and reports to no thread. -/
def StoreTag.none : StoreTag := ⟨0, ⟨0, 0, 0⟩, 0, 0, 0, 0, 0, false, 0, 0, 7, 0⟩

/-- An atomic or counted access goes to the home L2 from every die and never uses an RDC; the bytes that the issuing die's RDC
holds of the line go home before it, so that the agent's own earlier writes precede it (R129, R147, R149). It counts as two accesses (spec/19 R443). -/
def State.reachHome (s : State) (v : Via) (line : Nat) : State :=
  let s := s.countAcc v 2
  (if s.homeDie line = v.loc.die then s else s.evictRdc v.loc.mod v.loc.die v.loc.mod line).touchL2 v v.loc.mod line

/-! ### The scalar data cache (spec/06 R160) -/

/-- A scalar load has read a line: its core's data cache holds it, but for a counted line; of 512 lines the one held longest gives way (log entry 6). -/
def State.keepData (s : State) (l : Loc) (ep line : Nat) : State :=
  if (s.counted? ep line).isSome || (s.dcache.any fun d => d.loc == l && d.ep == ep && d.line == line) then s
  else
    let mine := s.dcache.filter fun d => d.loc == l
    let keep := if mine.length < 512 then s.dcache else s.dcache.eraseIdx (s.dcache.findIdx fun d => d.loc == l)
    { s with dcache := keep ++ [⟨l, ep, line⟩] }

/-! ### Wide accesses: lines in ascending order -/

/-- Split `n` bytes from `pa` at line boundaries: (address, count), ascending. -/
def lineSpans : Nat → Nat → Nat → List (Nat × Nat)
  | 0, _, _ => []
  | f + 1, pa, n =>
    if n = 0 then []
    else
      let k := min n (128 - pa % 128)
      (pa, k) :: lineSpans f (pa + k) (n - k)

/-- Reads of consecutive spans. -/
def State.readSpans (s : State) (v : Via) : List (Nat × Nat) → List Byte × State
  | [] => ([], s)
  | (pa, n) :: t =>
    let a := s.readLine v pa n
    let b := a.2.readSpans v t
    (a.1 ++ b.1, b.2)

/-- Writes of consecutive spans. -/
def State.writeSpans (s : State) (v : Via) (tag : StoreTag) : List (Nat × Nat) → List Byte → State
  | [], _ => s
  | (pa, n) :: t, bs => (s.writeLine v tag pa (bs.take n)).writeSpans v tag t (bs.drop n)

/-- A read of `n` bytes that may cross lines. -/
def State.readPhys (s : State) (v : Via) (pa n : Nat) : List Byte × State :=
  s.readSpans v (lineSpans (n / 128 + 2) pa n)

/-- A plain write that may cross lines. -/
def State.writePhys (s : State) (v : Via) (tag : StoreTag) (pa : Nat) (bs : List Byte) : State :=
  s.writeSpans v tag (lineSpans (bs.length / 128 + 2) pa bs.length) bs

/-! ### Releases and acquires (R150) -/

/-- The memory part of a release of scope `sc` by an agent of a core: from scope 3 the die's dirty RDC bytes reach their homes. -/
def State.release (s : State) (loc : Loc) (sc : Nat) : State := if 3 ≤ sc then s.flushRdc loc.mod loc.die sc else s

/-- The memory part of an acquire of scope `sc`: from scope 3 the die's clean RDC lines go, and from scope 4 those read through
keys. -/
def State.acquire (s : State) (loc : Loc) (sc : Nat) : State :=
  if 3 ≤ sc then s.discardRdc loc.mod loc.die (decide (4 ≤ sc)) else s

end Sys2Proof.Machine
end

