-- ==== Sys2Proof/Machine/Walk.lean ====
section
/-! DEFINITION. Sys2Proof/Machine/Walk.lean: address translation (spec/17): address-space tables, the five-level walk, TLBs,
the accessed and dirty bits, and accesses by virtual address. -/

namespace Sys2Proof.Machine

/-- What an access needs of a leaf (R418). -/
inductive Acc where
  | read
  | write
  | fetch
  deriving DecidableEq, Repr

/-- The TLBs (R420): a core's data and instruction TLBs and the shared one behind them, one for each engine, the trace unit's, and the data TLB of
a die in which an ingress translates (R424). -/
inductive TlbUnit where
  | core | copy | coll | tile | drain | trace | code | shared | ingress
  deriving DecidableEq, Repr

/-- The number under which `State.tlb` keeps a unit's entries. -/
def TlbUnit.num : TlbUnit → Nat
  | .core => 0 | .copy => 1 | .coll => 2 | .tile => 3 | .drain => 4 | .trace => 5 | .code => 6 | .shared => 7 | .ingress => 8

/-- The shared TLB of the core stands behind the unit's own (R420). -/
def TlbUnit.backed : TlbUnit → Bool
  | .core => true
  | .code => true
  | _ => false

/-- Bits [63:57] of a virtual address equal bit 56 (R127). -/
def canonical (va : Nat) : Bool := bits va 56 8 == 0 || bits va 56 8 == 255

/-- The levels of a walk (R416): the lowest index bit and the number of index bits. -/
def walkLevels : List (Nat × Nat) := [(48, 9), (39, 9), (30, 9), (21, 9), (16, 5)]

/-- A leaf found by a walk: its entry, where the entry stands, and log2 of its page size. -/
structure Leaf where
  entry : Word
  at_   : Nat
  bits  : Nat
  deriving DecidableEq, Repr

/-- Bits [63:60] and [58:52] of an entry are zero (R417). -/
def entryReserved (e : Nat) : Bool := bits e 60 4 != 0 || bits e 52 7 != 0

/-- A well-formed leaf at a level whose pages have 2^sh bytes (R418). -/
def leafFormed (e sh : Nat) : Bool := bits e 8 (sh - 8) == 0 && !(bit e 3 && !bit e 2)

/-- An entry that cannot be read meets an uncorrectable error (R418, spec/20 R467). -/
def State.entryBad (s : State) (ep pa : Nat) : Bool := s.poison.any fun q => q.1 == ep && q.2.1 == pa / 128

/-- A pointer of the level whose lowest index bit is `sh` that leads on to the next table (R416, R418). -/
def pointerOn (e sh : Nat) : Bool := bit e 0 && !entryReserved e && !bit e 1 && bits e 2 6 == 0 && !(decide (30 ≤ sh) && bits e 8 4 != 0)

/-- The entries that a walk reads, as far as it comes (R416, R418). -/
def State.walkReads (s : State) (ep va : Nat) : List (Nat × Nat) → Nat → List Nat
  | [], _ => []
  | (sh, n) :: rest, table =>
    let pa := table + 8 * bits va sh n
    let e := (s.homeWord ep pa).toNat
    if !s.entryBad ep pa && pointerOn e sh then pa :: s.walkReads ep va rest (bits e 8 44 * 256) else [pa]

/-- One level after the other from the table at `table` (R416, R418): 0x05 for a missing or malformed entry, 0x22 for an
entry that cannot be read. -/
def State.walk (s : State) (ep va : Nat) : List (Nat × Nat) → Nat → Except Nat Leaf
  | [], _ => .error 0x05
  | (sh, n) :: rest, table =>
    let pa := table + 8 * bits va sh n
    let e := (s.homeWord ep pa).toNat
    if s.entryBad ep pa then .error 0x22
    else if !bit e 0 || entryReserved e then .error 0x05
    else if bit e 1 then
      if 30 < sh then .error 0x05
      else if leafFormed e sh then .ok ⟨BitVec.ofNat 64 e, pa, sh⟩ else .error 0x05
    else if rest.isEmpty then .error 0x05
    else if bits e 2 6 != 0 then .error 0x05
    else if 30 ≤ sh && bits e 8 4 != 0 then .error 0x05
    else s.walk ep va rest (bits e 8 44 * 256)

/-- The entry of an address space in its interface's table (R415). -/
def Vif.asEntry (f : Vif) (asid : Nat) : Nat := f.asTable + 8 * (asid - f.asidBase)

/-- The root table of an address space (R415), 0x05 where the space does not exist, 0x22 where its entry cannot be read (R418). -/
def State.asRoot (s : State) (mod vif asid : Nat) : Except Nat Nat :=
  match s.vifs.find? fun f => f.mod == mod && f.vif == vif with
  | none => .error 0x05
  | some f =>
    let pa := f.asEntry asid
    let e := (s.homeWord mod pa).toNat
    if s.entryBad mod pa then .error 0x22
    else if bit e 0 && bits e 52 12 == 0 && bits e 1 11 == 0 then .ok (bits e 12 40 * 4096) else .error 0x05

/-- A leaf allows an access at a level (R418). -/
def leafAllows (e : Nat) (acc : Acc) (level : Nat) : Bool :=
  (match acc with | .read => bit e 2 | .write => bit e 3 | .fetch => bit e 4) && (level != 0 || bit e 7)

/-- The physical address through a leaf (R416). -/
def leafAddr (e sh va : Nat) : Nat := bits e 8 44 * 256 / 2 ^ sh * 2 ^ sh + va % 2 ^ sh

/-- Who translates: core, unit, region (with its interface and address space) and level. -/
structure Space where
  loc   : Loc
  unit  : TlbUnit
  rid   : Nat
  vif   : Nat
  asid  : Nat
  level : Nat
  deriving DecidableEq, Repr

/-- The space of a region's accesses from a core and unit. -/
def State.space (s : State) (loc : Loc) (unit : TlbUnit) (rid level : Nat) : Space :=
  match s.region? loc.mod rid with
  | none => ⟨loc, unit, rid, 64, 0, level⟩
  | some r => ⟨loc, unit, rid, r.vif, r.asid, level⟩

/-- A TLB entry of a space that covers an address. -/
def State.tlb? (s : State) (sp : Space) (va : Nat) : Option TlbEntry :=
  s.tlb.find? fun t => t.loc == sp.loc && t.unit == sp.unit.num && t.vif == sp.vif && t.asid == sp.asid
    && va / 2 ^ t.bits == t.base

/-- The way through a leaf: its key is the region's memory key when `C` is set (R417). -/
def State.viaLeaf (s : State) (sp : Space) (e : Nat) : Via :=
  let v := s.via sp.loc sp.rid
  if bit e 59 then { v with key := ((s.region? sp.loc.mod sp.rid).map Region.mkey).getD 0 } else v

/-- `A`, and for a write `D`, set in an entry (R419). -/
def markedLeaf (e : Nat) (acc : Acc) : Nat :=
  e ||| 0x20 ||| (if acc = .write then 0x40 else 0)

/-- A leaf kept in the TLB of a unit. -/
def State.keepLeaf (s : State) (t : TlbEntry) : State :=
  { s with tlb := upsert (fun a => a.loc == t.loc && a.unit == t.unit && a.vif == t.vif && a.asid == t.asid
                            && a.base == t.base && a.bits == t.bits) t s.tlb }

/-- A leaf kept in the unit's TLB, and in the shared one behind it. -/
def State.keepLeaves (s : State) (sp : Space) (t : TlbEntry) : State :=
  let s := s.keepLeaf { t with unit := sp.unit.num }
  if sp.unit.backed then s.keepLeaf { t with unit := TlbUnit.shared.num } else s

/-- A walk reads its entries at the home L2 (R419), where each read is a hit or a fill (spec/13 R350). -/
def State.touchWalk (s : State) (sp : Space) (va root : Nat) : State :=
  (s.walkReads sp.loc.mod va walkLevels root).foldl (fun s pa => s.touchL2 (s.via sp.loc sp.rid) sp.loc.mod (pa / 128)) s

/-- The space's own entry in the table of address spaces cannot be read: where it stands. -/
def State.rootError (s : State) (sp : Space) : Nat :=
  ((s.vifs.find? fun f => f.mod == sp.loc.mod && f.vif == sp.vif).map fun f => f.asEntry sp.asid).getD 0

/-- A walk that met an uncorrectable error is reported as one of a page-table walk, at the entry that it could not read (spec/20 R467). -/
def State.walkError (s : State) (sp : Space) (cause pa : Nat) : State := if cause = 0x22 then s.foundError sp.loc 6 pa else s

/-- A fresh walk for an access: the cause, or the leaf with `A` and `D` set at its home where they were clear, and kept in the
unit's TLB (R418 to R420). -/
def State.walkFor (s : State) (sp : Space) (va : Nat) (acc : Acc) : Except Nat (Nat × Via) × State :=
  match s.asRoot sp.loc.mod sp.vif sp.asid with
  | .error c => (.error c, s.walkError sp c (s.rootError sp))
  | .ok root =>
    let r := s.walk sp.loc.mod va walkLevels root
    let last := ((s.walkReads sp.loc.mod va walkLevels root).getLast?).getD root
    let s := s.touchWalk sp va root
    match r with
    | .error c => (.error c, s.walkError sp c last)
    | .ok l =>
      let e := l.entry.toNat
      if leafAllows e acc sp.level then
        let e' := markedLeaf e acc
        let s := if e' = e then s else s.homeStore .none sp.loc.mod (s.lineKey sp.loc.mod (l.at_ / 128)) l.at_ (natBytes 8 e')
        (.ok (leafAddr e l.bits va, s.viaLeaf sp e),
          s.keepLeaves sp ⟨sp.loc, 0, sp.vif, sp.asid, va / 2 ^ l.bits, l.bits, BitVec.ofNat 64 e'⟩)
      else (.error 0x06, s)

/-- A TLB entry that allows an access is used as it stands; a write needs `D` (R419, R420). -/
def TlbEntry.serves (t : TlbEntry) (acc : Acc) (level : Nat) : Bool :=
  leafAllows t.leaf.toNat acc level && (acc != .write || bit t.leaf.toNat 6)

/-- The leaf that serves an access from the unit's TLB, or from the shared one behind it. -/
def State.servingLeaf (s : State) (sp : Space) (va : Nat) (acc : Acc) : Option TlbEntry :=
  match (s.tlb? sp va).filter fun t => t.serves acc sp.level with
  | some t => some t
  | none =>
    if sp.unit.backed then (s.tlb? { sp with unit := .shared } va).filter fun t => t.serves acc sp.level else none

/-- The translation of one address (R127, R418 to R420): a TLB entry that allows the access is used as it stands; otherwise the walk decides. -/
def State.translate (s : State) (sp : Space) (va : Nat) (acc : Acc) : Except Nat (Nat × Via) × State :=
  if !canonical va then (.error 0x05, s)
  else match s.servingLeaf sp va acc with
    | some t => (.ok (leafAddr t.leaf.toNat t.bits va, s.viaLeaf sp t.leaf.toNat), s.keepLeaf { t with unit := sp.unit.num })
    | none => s.walkFor sp va acc

/-! ### Accesses by virtual address, one line after the other -/

/-- Translate the spans of a range: the first cause with its address, or each span's physical address. -/
def State.translateSpans (s : State) (sp : Space) (acc : Acc) :
    List (Nat × Nat) → Except (Nat × Nat) (List (Nat × Nat × Via)) × State
  | [] => (.ok [], s)
  | (va, n) :: t =>
    match s.translate sp va acc with
    | (.error c, s) => (.error (c, va), s)
    | (.ok (pa, v), s) =>
      match s.translateSpans sp acc t with
      | (.error c, s) => (.error c, s)
      | (.ok l, s) => (.ok ((pa, n, v) :: l), s)

/-- Read translated spans. -/
def State.readVias (s : State) : List (Nat × Nat × Via) → List Byte × State
  | [] => ([], s)
  | (pa, n, v) :: t =>
    let a := s.readLine v pa n
    let b := a.2.readVias t
    (a.1 ++ b.1, b.2)

/-- The address, from `va` on, of the first translated span whose read meets poisoned data, with its physical address and way (spec/20 R467). -/
def State.badSpan (s : State) (va : Nat) : List (Nat × Nat × Via) → Option (Nat × Nat × Via)
  | [] => none
  | (pa, n, v) :: t => if s.readBad v pa then some (va, pa, v) else s.badSpan (va + n) t

/-- Write translated spans. -/
def State.writeVias (s : State) (tag : StoreTag) : List (Nat × Nat × Via) → List Byte → State
  | [], _ => s
  | (pa, n, v) :: t, bs => (s.writeLine v tag pa (bs.take n)).writeVias tag t (bs.drop n)

/-- Read `n` bytes at a virtual address: cause and address, or the bytes. -/
def State.vread (s : State) (sp : Space) (va n : Nat) : Except (Nat × Nat) (List Byte) × State :=
  match s.translateSpans sp .read (lineSpans (n / 128 + 2) va n) with
  | (.error c, s) => (.error c, s)
  | (.ok l, s) =>
    match s.badSpan va l with
    | some q => (.error (0x22, q.1), s.foundError q.2.2.loc (s.poisonUnit q.2.2.loc.mod (q.2.1 / 128)) q.2.1)
    | none =>
      let r := s.readVias l
      (.ok r.1, r.2)

/-- Write bytes at a virtual address: nothing is written when any line of the range fails. -/
def State.vwrite (s : State) (sp : Space) (tag : StoreTag) (va : Nat) (bs : List Byte) : Except (Nat × Nat) Unit × State :=
  match s.translateSpans sp .write (lineSpans (bs.length / 128 + 2) va bs.length) with
  | (.error c, s) => (.error c, s)
  | (.ok l, s) => (.ok (), s.writeVias tag l bs)

/-- A doubleword read at a virtual address, 0 where it cannot be read. -/
def State.vword (s : State) (sp : Space) (va : Nat) : Except (Nat × Nat) Word × State :=
  match s.vread sp va 8 with
  | (.error c, s) => (.error c, s)
  | (.ok bs, s) => (.ok (BitVec.ofNat 64 (bytesNat bs)), s)

end Sys2Proof.Machine
end

