-- ==== Sys2Proof/Machine/Regs.lean ====
section
/-! DEFINITION. Sys2Proof/Machine/Regs.lean: the registers of the agent whose turn it is (spec/03 R62, R65; spec/02 R36 to
R38), each reached through one accessor, and the agents by handle. -/

namespace Sys2Proof.Machine

/-! ### Agents by handle -/

/-- Change the agent whose turn it is. -/
def State.upd (s : State) (f : Agent → Agent) : State := { s with me := f s.me }

/-- Every agent, the one whose turn it is first. -/
def State.agents (s : State) : List Agent := s.me :: s.others

/-- The agent of a handle. -/
def State.agent? (s : State) (uid : Nat) : Option Agent := s.agents.find? fun a => a.uid == uid

/-- Change the agent of a handle. -/
def State.updAgent (s : State) (uid : Nat) (f : Agent → Agent) : State :=
  if s.me.uid = uid then { s with me := f s.me }
  else { s with others := mapIf (fun a => a.uid == uid) f s.others }

/-- Change every agent. -/
def State.mapAgents (s : State) (f : Agent → Agent) : State := { s with me := f s.me, others := s.others.map f }

/-- The agent `b` put in the place of the first agent of handle `uid`. -/
def swapAgent (uid : Nat) (b : Agent) : List Agent → List Agent
  | [] => []
  | a :: t => if a.uid = uid then b :: t else a :: swapAgent uid b t

/-- Give the turn to the agent of a handle; no change if it is the agent's already, or if there is none. -/
def State.focus (s : State) (uid : Nat) : State :=
  if s.me.uid = uid then s
  else match s.others.find? fun a => a.uid == uid with
    | none => s
    | some a => { s with me := a, others := swapAgent uid s.me s.others }

/-- An agent that is a handler (R49). -/
def Agent.isHandler (a : Agent) : Bool := match a.kind with | .thread => false | .handler _ => true

/-! ### Scalar registers (R62) -/

/-- `x[r]`: `x0` reads zero. -/
def Agent.getX (a : Agent) (r : Reg) : Word := if r = 0 then 0 else a.x[r.toNat]'(r.isLt)

/-- A write of `x[r]`: `x0` discards it. -/
def Agent.setX (a : Agent) (r : Reg) (v : Word) : Agent := if r = 0 then a else { a with x := a.x.set r.toNat v r.isLt }

/-- `x[r]` of the agent whose turn it is. -/
def State.x (s : State) (r : Reg) : Word := s.me.getX r

/-- Write `x[r]` of the agent whose turn it is. -/
def State.setX (s : State) (r : Reg) (v : Word) : State := s.upd fun a => a.setX r v

/-- `k[r]`. -/
def State.k (s : State) (r : Reg4) : Key := s.me.k[r.toNat]'(r.isLt)

/-- Write `k[r]`. -/
def Agent.setK (a : Agent) (r : Reg4) (v : Key) : Agent := { a with k := a.k.set r.toNat v r.isLt }

/-- Write `k[r]` of the agent whose turn it is. -/
def State.setK (s : State) (r : Reg4) (v : Key) : State := s.upd fun a => a.setK r v

/-- A predicate, for fields 0 to 11 (R63); fields 12 to 15 name none and read as zero. -/
def Agent.getP (a : Agent) (r : Reg4) : BitVec 1024 := a.p[r.toNat]?.getD 0

/-- Write a predicate. -/
def Agent.setP (a : Agent) (r : Reg4) (v : BitVec 1024) : Agent := { a with p := a.p.setIfInBounds r.toNat v }

/-- The program counter: bit 0 is always zero (R62). -/
def State.setPc (s : State) (v : Word) : State := s.upd fun a => { a with pc := v &&& ~~~1 }

/-! ### Vector registers and classes (R36 to R38) -/

/-- The class MVL in 32-bit elements (R36). -/
def classMvl : Nat → Nat
  | 1 => 16 | 2 => 32 | 3 => 64 | 4 => 128 | 5 => 256 | _ => 0

/-- The number of clusters a class is granted (R36). -/
def classClusters : Nat → Nat
  | 1 => 1 | 2 => 1 | 3 => 1 | 4 => 2 | 5 => 4 | _ => 0

/-- MVL at an element width of `w` bits (R37). -/
def Agent.mvl (a : Agent) (w : Nat) : Nat := classMvl a.cls * 32 / w

/-- The granted clusters, ascending (R38). -/
def Agent.clusters (a : Agent) : List Nat := (List.range 4).filter fun c => a.cmask.getLsbD c

/-- How many clusters are granted. -/
def Agent.nclusters (a : Agent) : Nat := a.clusters.length

/-- The index of the granted cluster that holds element `i` (R38). -/
def Agent.homeCluster (a : Agent) (i : Nat) : Nat := i / 16 % max 1 a.nclusters

/-- Element `i` of `v[r]` at a width of `w` bits. -/
def Agent.elem (a : Agent) (r : Reg) (w i : Nat) : Nat := getField (a.v[r.toNat]'(r.isLt)) (w * i) w

/-- Write element `i` of `v[r]` and raise its high-water mark (R46). -/
def Agent.setElem (a : Agent) (r : Reg) (w i val : Nat) : Agent :=
  let old := a.v[r.toNat]'(r.isLt)
  let m := a.marks[r.toNat]'(r.isLt)
  { a with v := a.v.set r.toNat (setField old (w * i) w val) r.isLt,
           marks := a.marks.set r.toNat (max m (w / 8 * (i + 1))) r.isLt }

/-- Write a list of elements of one register. -/
def Agent.setElems (a : Agent) (r : Reg) (w : Nat) : List (Nat × Nat) → Agent
  | [] => a
  | (i, v) :: t => (a.setElem r w i v).setElems r w t

/-! ### Control registers as words (R65) -/

/-- `vclass` (R37). -/
def Agent.vclassWord (a : Agent) : Word := BitVec.ofNat 64 (a.cmask.toNat * 256 + a.cls)

/-- `coreid` of a core, whose module number is 0 while its module is in no domain (spec/01 R16). `DIE` has three bits and names compute dies: the spec does
not say what the Keywright's firmware on a fabric die reads there, and the model gives the die number modulo 8 (DESIGN CHOICE, log entry 55). -/
def Loc.coreid (l : Loc) : Word := BitVec.ofNat 64 (l.mod * 2 ^ 16 + l.die % 8 * 2 ^ 7 + l.core)

/-- `tid` (R33): a handler reads 0x8000_0000 plus its id. -/
def Agent.tidWord (a : Agent) : Word :=
  match a.kind with
  | .thread => BitVec.ofNat 64 a.tid
  | .handler h => BitVec.ofNat 64 (0x80000000 + h)

/-- `vfmc` of a count and a cause (R65). -/
def vfmcWord (count cause : Nat) : Word := BitVec.ofNat 64 (cause * 2 ^ 16 + count)

/-- `fpcsr` of its fields (R65). -/
def fpcsrWord (sp : Bool) (en fl : BitVec 5) (rm : BitVec 3) : Word :=
  BitVec.ofNat 64 (bnat sp * 2 ^ 13 + en.toNat * 2 ^ 8 + fl.toNat * 8 + rm.toNat)

/-- The cycle counter of a core (spec/01 R30), 0 at reset. -/
def State.cycle (s : State) (l : Loc) : Nat := ((s.clocks.find? fun c => c.loc == l).map CoreClock.cycles).getD 0

/-- The context of a core that issued last; before any has, context 15, so that context 0 comes first (log entry 60). -/
def State.lastIssued (s : State) (l : Loc) : Nat := ((s.clocks.find? fun c => c.loc == l).map CoreClock.last).getD 15

/-- A core's clock moves on. -/
def State.addCycles (s : State) (l : Loc) (n : Nat) : State :=
  { s with clocks := upsert (fun c => c.loc == l) ⟨l, (s.cycle l + n) % 2 ^ 64, s.lastIssued l⟩ s.clocks }

/-- A context of a core issues. -/
def State.issuedBy (s : State) (l : Loc) (ctx : Nat) : State :=
  { s with clocks := upsert (fun c => c.loc == l) ⟨l, s.cycle l, ctx⟩ s.clocks }

/-- The state of a module, if it has joined. -/
def State.module? (s : State) (m : Nat) : Option ModuleState := s.modules.find? fun a => a.mod == m

/-- Change the state of a module. -/
def State.updModule (s : State) (m : Nat) (f : ModuleState → ModuleState) : State :=
  { s with modules := mapIf (fun a => a.mod == m) f s.modules }

/-- Bring-up has ended: launch messages are accepted (R464). -/
def ModuleState.ready (a : ModuleState) : Bool := a.boot == 6 && a.bootFail == 0

/-- A module's count: the common count plus its offset, never below what it has already shown (spec/01 R29). -/
def ModuleState.count (a : ModuleState) (now : Nat) : Nat := max a.floor ((now : Int) + a.offset).toNat

/-- Meridian time on a module (spec/01 R29). -/
def State.meridian (s : State) (m : Nat) : Nat :=
  match s.module? m with
  | none => s.now
  | some a => a.count s.now % 2 ^ 64

/-- What a die keeps; a die not listed has no limit active and ceilings P0. -/
def State.die (s : State) (m d : Nat) : DieState :=
  (s.dies.find? fun c => c.mod == m && c.die == d).getD ⟨m, d, false, false, 0, 0, false, [], none, []⟩

/-- Change what a die keeps. -/
def State.updDie (s : State) (m d : Nat) (f : DieState → DieState) : State :=
  { s with dies := upsert (fun c => c.mod == m && c.die == d) (f (s.die m d)) s.dies }

/-! ### Voltage-frequency states (spec/20 R465) -/

/-- A region's ceiling on a core: P0 until it sets one (spec/15 R402). -/
def State.ceiling (s : State) (l : Loc) (rid : Nat) : Nat := (((s.core l).ceils.find? fun c => c.1 == rid).map Prod.snd).getD 0

/-- The state in force on a core: the slowest of the ceiling of the region whose thread was placed there last, and the platform's and the power limit's ceilings and of the thermal throttle. -/
def State.pstate (s : State) (l : Loc) : Nat :=
  let d := s.die l.mod l.die
  max (max (((s.core l).last.map (s.ceiling l)).getD 0) d.platCeil) (max d.limCeil (if d.throttle then 2 else 0))

/-- The contexts of some cores of a die that hold threads or handlers, with the states of their cores before and now. -/
def State.powerHeld (s old : State) (m d : Nat) (on : Nat → Bool) : List PowerAt :=
  (s.agents.filter fun a => a.loc.mod == m && a.loc.die == d && a.placed && a.life != .exited && on a.loc.core).map fun a =>
    ⟨a.rid, a.loc.core, a.ctx, old.pstate a.loc, s.pstate a.loc⟩

/-- A power event of a die that is still to be recorded (spec/19 R455), on the cores `on`, after the state `old`. -/
def State.powerEvent (s old : State) (m d ev core : Nat) (on : Nat → Bool) : State :=
  s.updDie m d fun x => { x with power := x.power ++ [⟨ev, core, old.pstate ⟨m, d, core⟩, s.pstate ⟨m, d, core⟩, s.meridian m, s.powerHeld old m d on⟩] }

/-- A change of what a core keeps, with the power event of a change of its state (spec/20 R465). -/
def State.coreChange (s : State) (l : Loc) (f : CoreState → CoreState) : State :=
  let t := s.updCore l f
  if t.pstate l = s.pstate l then t else t.powerEvent s l.mod l.die 5 l.core (· == l.core)

/-- A core of a die whose state differs from what it was: one that has kept something, or the first of the others. -/
def State.stateMoved (s old : State) (m d : Nat) : Option Nat :=
  let known := (s.cores.filter fun c => c.loc.mod == m && c.loc.die == d).map fun c => c.loc.core
  (((List.range 128).find? fun c => !known.contains c).toList ++ known).find? fun c => old.pstate ⟨m, d, c⟩ != s.pstate ⟨m, d, c⟩

/-- A fresh index for a free value (log entry 1). -/
def State.useFresh (s : State) : Nat × State := (s.fresh, { s with fresh := s.fresh + 1 })

/-- The region of the agent whose turn it is. -/
def State.myRegion (s : State) : Option Region := s.region? s.me.loc.mod s.me.rid

/-- Its holder id (R59); 0xFFFF, which no region has, where it has no region. -/
def State.myHolder (s : State) : Nat := (s.myRegion.map Region.holder).getD 0xFFFF

/-- The space of the data accesses of the agent whose turn it is (spec/17 R420). -/
def State.mySpace (s : State) : Space := s.space s.me.loc .core s.me.rid s.me.level

/-- The space of its instruction fetches, through the core's instruction TLB (spec/17 R420). -/
def State.codeSpace (s : State) : Space := { s.mySpace with unit := .code }

end Sys2Proof.Machine
end

