-- ==== Sys2Proof/Machine/Records.lean ====
section
/-! DEFINITION. Sys2Proof/Machine/Records.lean: trap and fault records and the queues that take them (spec/15 R378,
spec/16 R405, R413). -/

namespace Sys2Proof.Machine

/-- A trap record's fields (R378); `w28` and `w30` are the doublewords at 0x28 and 0x30. -/
structure Record where
  cause  : Nat
  stream : Bool
  sat    : Bool
  fatal  : Bool
  uta    : Bool
  conf   : Bool
  thread : Nat
  epc    : Word
  addr   : Word
  info   : Word
  time   : Nat
  w28    : Word
  w30    : Word
  rid    : Nat
  loc    : Loc
  deriving DecidableEq, Repr

/-- The eight doublewords of a record, offset 0x00 first. -/
def Record.words (r : Record) : List Word :=
  [BitVec.ofNat 64 (r.thread * 2 ^ 32 + bnat r.conf * 2 ^ 12 + bnat r.uta * 2 ^ 11 + bnat r.fatal * 2 ^ 10 + bnat r.sat * 2 ^ 9
      + bnat r.stream * 2 ^ 8 + r.cause),
    r.epc, r.addr, r.info, BitVec.ofNat 64 r.time, r.w28, r.w30,
    BitVec.ofNat 64 (r.rid * 2 ^ 48 + r.loc.mod * 2 ^ 16 + r.loc.die * 2 ^ 7 + r.loc.core)]

/-- A record as a host queue, and a queue whose owner is not confidential, receives it: of a confidential region's record only the region id, the cause, the
flags and the time are seen, and the rest is written as zero (spec/20 R459, R460). -/
def Record.sent (r : Record) : List Word :=
  if r.conf then { r with thread := 0, epc := 0, addr := 0, info := 0, w28 := 0, w30 := 0, loc := ⟨0, 0, 0⟩ }.words else r.words

/-- The root region of a virtual interface has id 0xFF00 plus the interface number (spec/16 R472). -/
def isRootRid (rid : Nat) : Bool := decide (0xFF00 ≤ rid) && decide (rid < 0xFF40)

/-- The fault domain of a region: its nearest ancestor-or-self with `FDROOT` (R405). -/
def State.faultDomain (s : State) (mod : Nat) : Nat → Nat → Option Region
  | 0, _ => none
  | f + 1, rid =>
    match s.region? mod rid with
    | none => none
    | some r => if r.fdroot || isRootRid rid then some r else s.faultDomain mod f r.parent

/-! ### Host queues (R413) -/

/-- The 320 bytes of a host-queue entry: type, region, meridian time, the message doubleword and the content. -/
def hostEntry (ty rid time msg : Nat) (content : List Byte) : List Byte :=
  natBytes 8 (rid * 256 + ty) ++ natBytes 8 time ++ natBytes 8 msg ++ List.replicate 40 0
    ++ (content ++ List.replicate 256 0).take 256

/-- The host queue of a number, empty if nothing was ever written. -/
def State.hostq (s : State) (mod vif n : Nat) : HostQueue :=
  (s.hostqs.find? fun q => q.mod == mod && q.vif == vif && q.n == n).getD ⟨mod, vif, n, 0, 0, 64, [], 0, false⟩

/-- Replace a host queue. -/
def State.setHostq (s : State) (q : HostQueue) : State :=
  { s with hostqs := upsert (fun a => a.mod == q.mod && a.vif == q.vif && a.n == q.n) q s.hostqs }

/-- Room in a host queue for one entry, and for the overflow entry that is owed first. -/
def HostQueue.room (q : HostQueue) : Bool := decide (q.entries.length + bnat q.owed < q.size)

/-- An entry is written: `TAIL` counts it (R405). -/
def HostQueue.put (q : HostQueue) (e : List Byte) : HostQueue := { q with entries := q.entries ++ [e], tail := (q.tail + 1) % 2 ^ 64 }

/-- `HEAD`: the entries consumed. -/
def HostQueue.head (q : HostQueue) : Nat := (q.tail + 2 ^ 64 - q.entries.length) % 2 ^ 64

/-- An owed overflow entry of type 4 is written, with LOST at 0x040. -/
def HostQueue.pay (q : HostQueue) (time : Nat) : HostQueue :=
  if q.owed then { q.put (hostEntry 4 0 time 0 (natBytes 8 q.lost)) with owed := false } else q

/-- An entry of a host queue with room, after an overflow entry that is owed. -/
def HostQueue.push (q : HostQueue) (time : Nat) (e : List Byte) : HostQueue := (q.pay time).put e

/-- A record that a full host queue drops; LOST stops at 0xFFFF_FFFF (R405). -/
def HostQueue.drop (q : HostQueue) : HostQueue := { q with lost := min 0xFFFFFFFF (q.lost + 1), owed := true }

/-- The threads of a region that wait at `wfi` see a record enter its fault-record queue (spec/15 R401). -/
def State.recordSeen (s : State) (mod rid : Nat) : State :=
  s.mapAgents fun a => if a.rid == rid && a.loc.mod == mod then { a with wfiSeen := true } else a

/-- A record of type 2 or 3 for a host queue: dropped, and counted in LOST, when the queue is full. Host queue 0 is the root region's fault-record queue. -/
def State.hostRecord (s : State) (mod vif n ty rid : Nat) (words : List Word) : State :=
  let q := s.hostq mod vif n
  if q.room then
    let s := s.setHostq (q.push (s.meridian mod) (hostEntry ty rid (s.meridian mod) 0 (wordsBytes words)))
    if n = 0 then s.recordSeen mod (0xFF00 + vif) else s
  else s.setHostq q.drop

/-! ### Fault-record queues (R405) -/

/-- A 64-byte record written at a region's queue: BASE + 64 × (TAIL mod SIZE), a release at scope 3, TAIL advanced; a full queue drops
it and advances LOST. A queue that cannot be reached loses the record. -/
def State.frqWrite (s : State) (r : Region) (loc : Loc) (words : List Word) : State :=
  let sp := { s.space loc .core r.rid 1 with level := 1 }
  match s.vread sp r.frq 32 with
  | (.error _, s) => s
  | (.ok bs, s) =>
    let d := bytesNat bs
    let base := bits d 0 64
    let size := bits d 64 32
    let lost := bits d 96 32
    let head := bits d 128 64
    let tail := bits d 192 64
    if (tail + 2 ^ 64 - head) % 2 ^ 64 = size then
      (s.vwrite sp .none (r.frq + 12) (natBytes 4 (min 0xFFFFFFFF (lost + 1)))).2
    else
      match s.vwrite sp .none (base + 64 * (tail % max 1 size)) (wordsBytes words) with
      | (.error _, s) => s
      | (.ok (), s) =>
        let s := s.release loc 3
        let s := (s.vwrite sp .none (r.frq + 24) (natBytes 8 ((tail + 1) % 2 ^ 64))).2
        let s := s.release loc 3
        s.recordSeen loc.mod r.rid

/-- A record goes to the queue of the fault domain of region `rid`; a root region's queue is host queue 0 of its interface (R405), where the entry has type
`ty` and the region of the record (R413). A domain whose root is confidential sees its records whole. -/
def State.recordAs (s : State) (ty : Nat) (loc : Loc) (rid : Nat) (r : Record) : State :=
  match s.faultDomain loc.mod (s.regions.length + 1) rid with
  | none => s
  | some d =>
    let s := s.updRegion loc.mod d.rid fun r => { r with frSeen := r.frSeen + 1 }
    if isRootRid d.rid then s.hostRecord loc.mod d.vif 0 ty r.rid r.sent
    else s.frqWrite d loc (if d.conf then r.words else r.sent)

/-- A fault or region record. -/
def State.record (s : State) (loc : Loc) (rid : Nat) (r : Record) : State := s.recordAs 2 loc rid r

end Sys2Proof.Machine
end

