-- ==== Sys2Proof/Machine/RegionEnd.lean ====
section
/-! DEFINITION. Sys2Proof/Machine/RegionEnd.lean: satellite slots (spec/02 R53, R55), endpoint names (spec/18 R437, R470) and the
end of a region (spec/16 R406). -/

namespace Sys2Proof.Machine

/-! ### Satellite slots (R53) -/

/-- The GEN of a slot. -/
def State.slotGen (s : State) (l : Loc) (slot : Nat) : Nat :=
  ((s.gens.find? fun g => g.loc == l && g.slot == slot).map SlotGen.gen).getD 0

/-- Free a slot: its satellite goes and its GEN rises by 1 modulo 65,536 (R53). -/
def State.reap (s : State) (sid : Nat) : State :=
  match s.sats.find? fun t => t.sid == sid with
  | none => s
  | some t =>
    { s with sats := s.sats.filter fun a => a.sid != sid,
             gens := upsert (fun g => g.loc == t.loc && g.slot == t.slot) ⟨t.loc, t.slot, (t.gen + 1) % 65536⟩ s.gens }

/-- The token of a satellite (spec/10): REGION, KIND, DIE, CORE, SLOT, GEN. `DIE` has three bits (spec/01 R14; log entry 55 for a fabric die). -/
def tokenOf (rid kind : Nat) (l : Loc) (slot gen : Nat) : Word :=
  BitVec.ofNat 64 (rid * 2 ^ 48 + kind * 2 ^ 40 + l.die % 8 * 2 ^ 31 + l.core * 2 ^ 24 + slot * 2 ^ 16 + gen)

/-- The token of a live satellite. -/
def Sat.token (t : Sat) : Word := tokenOf t.rid t.kind t.loc t.slot t.gen

/-- Status 0, 2 or 3 (R54). -/
def Sat.terminal (t : Sat) : Bool := t.status == 0 || t.status == 2 || t.status == 3

/-- Change a satellite. -/
def State.updSat (s : State) (sid : Nat) (f : Sat → Sat) : State := { s with sats := mapIf (fun t => t.sid == sid) f s.sats }

/-- The record of a detached satellite (spec/15 R378): flag [9], the token in UEPC, words 1, 2 and 3 in UADDR, UINFO and 0x28, the
promise time at 0x30. -/
def satRecord (s : State) (t : Sat) (cause : Nat) (w1 w2 w3 : Word) (conf : Bool) : Record where
  cause := cause
  stream := false
  sat := true
  fatal := false
  uta := false
  conf := conf
  thread := 0
  epc := t.token
  addr := w1
  info := w2
  time := s.meridian t.loc.mod
  w28 := w3
  w30 := BitVec.ofNat 64 (t.promise.getD 0)
  rid := t.rid
  loc := t.loc

/-- Whether a region is confidential (spec/20 R458). -/
def State.confidential (s : State) (mod rid : Nat) : Bool := ((s.region? mod rid).map Region.conf).getD false

/-- A terminal satellite without an owner: done or cancelled is reaped at once; faulted sends its record, then is reaped (R55). -/
def State.settleSat (s : State) (sid : Nat) : State :=
  match s.sats.find? fun t => t.sid == sid with
  | none => s
  | some t =>
    if t.owner.isSome || !t.terminal then s
    else if t.status = 3 then
      let r := satRecord s t ((t.record.getD 0 0).toNat % 256) (t.record.getD 1 0) (t.record.getD 2 0) (t.record.getD 3 0)
        (s.confidential t.loc.mod t.rid)
      (s.record t.loc t.rid r).reap sid
    else s.reap sid

/-! ### Endpoint names (R437, R470) -/

/-- The endpoint of a name; generation 0 and no owner where nothing is recorded. -/
def State.endpoint (s : State) (ep die kind unit granule : Nat) : Endpoint :=
  (s.endpoints.find? fun e => e.ep == ep && e.die == die && e.kind == kind && e.unit == unit && e.granule == granule).getD
    ⟨ep, die, kind, unit, granule, 0, false, false, none⟩

/-- Record an endpoint. -/
def State.setEndpoint (s : State) (e : Endpoint) : State :=
  { s with endpoints := upsert (fun a => a.ep == e.ep && a.die == e.die && a.kind == e.kind && a.unit == e.unit
                                 && a.granule == e.granule) e s.endpoints }

/-- The next generation; an endpoint at 0xFFF is retired instead (R437). -/
def Endpoint.advance (e : Endpoint) : Endpoint := if e.gen = 0xFFF then { e with retired := true, young := true } else { e with gen := e.gen + 1 }

/-- A change of owner, to none too, advances the generation (R470). -/
def Endpoint.pass (e : Endpoint) (o : Option Nat) : Endpoint := if e.owner = o then e else { e.advance with owner := o }

/-- The region that has held a scratchpad allocation on a core longest: allocations are listed in the order of their grants. -/
def State.scratchHeir (s : State) (l : Loc) : Option Nat := (s.allocs.find? fun a => a.loc == l).map Alloc.rid

/-- The kind-1 name of a core passes to the earliest allocation still held there (R470). -/
def State.passScratch (s : State) (l : Loc) : State :=
  let e := s.endpoint l.mod l.die 1 l.core 0
  if e.owner.isNone && (s.scratchHeir l).isNone then s else s.setEndpoint (e.pass (s.scratchHeir l))

/-! ### The end of a region (R406) -/

/-- Live regions below `rid`, children before their own children. -/
def State.children (s : State) (mod rid : Nat) : List Region :=
  s.regions.filter fun r => r.mod == mod && r.parent == rid && r.state == .bound && r.rid != rid

/-- A thread or handler that stops for good: its context is free at once (R35). -/
def Agent.gone (a : Agent) : Agent :=
  { a with life := .exited, placed := false, queue := [], inflight := [], pendX := 0, pendK := 0, aside := none, vstop := none,
           failures := [], late := [], preempt := false, debugStop := none, cycleLimit := false, carried := [] }

/-- A counted line leaves the home L2, with what was poisoned there; memory holds what it held before the fill (spec/05 R138, R140). -/
def State.dropCounted (s : State) (ep line : Nat) : State :=
  let s := s.dropL2 ep line
  { s with counted := s.counted.filter fun c => !(c.ep == ep && c.line == line),
           poison := s.poison.filter fun q => !(q.1 == ep && q.2.1 == line && q.2.2 == 2) }

/-- Step 3 of R406 for one region: its satellites are cancelled, and each slot is free; lines it still had to fill return to EMPTY
(spec/05 R134); its counted lines are dropped (R141). -/
def State.dropWork (s : State) (mod rid : Nat) : State :=
  let s := (s.sats.filter fun t => t.loc.mod == mod && t.rid == rid).foldl (fun s t => s.reap t.sid) s
  let s := (s.counted.filter fun c => c.ep == mod && c.rid == rid).foldl (fun s c => s.dropCounted c.ep c.line) s
  { s with saved := s.saved.filter fun c => !(c.ep == mod && c.rid == rid),
           slines := s.slines.filter fun l => !(l.loc.mod == mod && l.rid == rid),
           slices := s.slices.filter fun l => !(l.loc.mod == mod && l.rid == rid),
           barrier := s.barrier.filter fun a => !(a.loc.mod == mod
             && s.agents.any fun g => g.uid == a.uid && g.rid == rid),
           htab := s.htab.filter fun h => !(h.loc.mod == mod && h.rid == rid),
           waiting := mapIf (fun w => s.htab.any fun h => h.loc == w.loc && h.id == w.hid && h.loc.mod == mod && h.rid == rid)
             (fun w => { w with lockedAt := none }) s.waiting,
           rqueues := s.rqueues.filter fun q => !(q.mod == mod && q.rid == rid),
           tbufs := s.tbufs.filter fun b => !(b.mod == mod && b.rid == rid),
           deferred := s.deferred.filter fun d => !(d.loc.mod == mod && d.rid == rid) }

/-- A leaf's frame is backed on a die: its placed range says so, and the lines of any other frame are spread over every die (log entry 6). -/
def State.backedOn (s : State) (pa die : Nat) : Bool :=
  match s.homes.find? fun h => decide (h.1 ≤ pa / 128) && decide (pa / 128 < h.1 + h.2.1) with
  | some h => h.2.2 % 8 == die
  | none => true

/-- A valid, well-formed leaf at an entry's address with pages of 2^sh bytes, backed on a die. -/
def State.leafOn (s : State) (ep at_ sh die : Nat) : Bool :=
  let e := (s.homeWord ep at_).toNat
  bit e 0 && bit e 1 && !entryReserved e && leafFormed e sh && s.backedOn (bits e 8 44 * 256) die

/-- The next table that an entry points to. -/
def State.tableAt (s : State) (ep at_ : Nat) : Option Nat :=
  let e := (s.homeWord ep at_).toNat
  if bit e 0 && !bit e 1 && !entryReserved e && bits e 2 6 == 0 then some (bits e 8 44 * 256) else none

/-- An address space maps a page of a granule that is backed on a die (R470). -/
def State.mapsGranule (s : State) (mod vif asid granule die : Nat) : Bool :=
  match s.asRoot mod vif asid with
  | .error _ => false
  | .ok root =>
    match (s.tableAt mod (root + 8 * bits granule 18 9)).bind fun t => s.tableAt mod (t + 8 * bits granule 9 9) with
    | none => false
    | some t =>
      let at_ := t + 8 * bits granule 0 9
      s.leafOn mod at_ 30 die ||
        match s.tableAt mod at_ with
        | none => false
        | some t3 => (List.range 512).any fun i => s.leafOn mod (t3 + 8 * i) 21 die ||
          match s.tableAt mod (t3 + 8 * i) with
          | none => false
          | some t4 => (List.range 32).any fun j => s.leafOn mod (t4 + 8 * j) 16 die

/-- The live region, but `rid`, that takes a kind-0 name: the earliest bound whose address space maps such a page. -/
def State.granuleHeir (s : State) (mod die granule rid : Nat) : Option Nat :=
  (s.regions.find? fun r => r.mod == mod && r.state == .bound && r.rid != rid && s.mapsGranule mod r.vif r.asid granule die).map Region.rid

/-- Step 5 of R406 for one region: the generation of every kind-0 and kind-1 name it owns is advanced, and the name passes on. -/
def State.dropNames (s : State) (mod rid : Nat) : State :=
  let held := (s.allocs.filter fun a => a.loc.mod == mod && a.rid == rid).map Alloc.loc
  let s := { s with allocs := s.allocs.filter fun a => !(a.loc.mod == mod && a.rid == rid) }
  let s := held.foldl State.passScratch s
  let next := mapIf (fun e => e.ep == mod && e.kind == 0 && e.owner == some rid) (fun e => e.pass (s.granuleHeir mod e.die e.granule rid)) s.endpoints
  { s with endpoints := next }

/-- The memory key and the dump key of a region are destroyed (spec/20 R458): what was written under them is read by nobody any more, since each key has
a number of its own. -/
def State.destroyKeys (s : State) (mod rid : Nat) : State := s.updRegion mod rid fun r => { r with mkey := 0, dkey := 0 }

/-- Bytes that the W9 writes into a region's control block: in its parent's address space, and of a root region where the platform keeps it (R403, R472;
log entry 33). -/
def State.writeBlock (s : State) (r : Region) (off : Nat) (bs : List Byte) : State :=
  if isRootRid r.rid then s.poke r.mod (r.rcb + off) bs
  else
    let up := (s.region? r.mod r.parent).getD r
    (s.vwrite { s.space ⟨r.mod, 0, 0⟩ .core up.rid 1 with level := 1 } .none (r.rcb + off) bs).2

/-- What a core keeps for a region goes: its K-groups, its energy, which counts from a binding (spec/19 R442), and its ceiling. -/
def CoreState.forget (c : CoreState) (rid : Nat) : CoreState :=
  let other (e : Nat × Nat) : Bool := e.1 != rid
  { c with kgroups := c.kgroups.filter other, energy := c.energy.filter other, ceils := c.ceils.filter other }

/-- Every core of a module forgets what it kept for a region that ends. -/
def State.forgetRegion (s : State) (m rid : Nat) : State :=
  ((s.cores.filter fun c => c.loc.mod == m).map CoreState.loc).foldl (fun s l => s.coreChange l fun c => c.forget rid) s

/-- The end of one region without its children: threads and handlers stop without saving, its satellites, lines, entries, keys and names go, its
state becomes 2 and `USED` and the STATE doubleword of its control block are written (R403, R406 steps 2 to 6). -/
def State.endOne (s : State) (mod rid : Nat) : State :=
  match s.region? mod rid with
  | none => s
  | some r =>
    let s := s.mapAgents fun a => if a.loc.mod == mod && a.rid == rid && a.life != .exited then a.gone else a
    let s := (s.dropWork mod rid).dropNames mod rid
    let s := ((s.updRegion mod rid fun r => { r with state := .ended, liveOut := 0 }).destroyKeys mod rid).forgetRegion mod rid
    (s.writeBlock r 0x38 (natBytes 8 r.used)).writeBlock r 0x60 (natBytes 8 2)

/-- Why a region ends (R406 step 7). -/
inductive EndCause where
  | asked
  | budget (tid : Nat)
  | saveFault (addr : Word) (tid : Nat)
  | thermal
  deriving DecidableEq, Repr

/-- The single record of a region's end: flag [10], the cause, the region id in UINFO, and bit 63 for a thermal trip. For a context save fault spec/15 R390
says what UADDR and UINFO hold: the faulting address and the `tid` (log entry 60). -/
def endRecord (s : State) (loc : Loc) (rid : Nat) (conf : Bool) : EndCause → Record
  | .asked => ⟨0x00, false, false, true, false, conf, 0, 0, 0, BitVec.ofNat 64 rid, s.meridian loc.mod, 0, 0, rid, loc⟩
  | .budget t => ⟨0x24, false, false, true, false, conf, t, 0, 0, BitVec.ofNat 64 rid, s.meridian loc.mod, 0, 0, rid, loc⟩
  | .saveFault a t => ⟨0x21, false, false, true, false, conf, 0, 0, a, BitVec.ofNat 64 t, s.meridian loc.mod, 0, 0, rid, loc⟩
  | .thermal =>
    ⟨0x22, false, false, true, false, conf, 0, 0, 0, BitVec.ofNat 64 (2 ^ 63 + rid), s.meridian loc.mod, 0, 0, rid, loc⟩

/-- One region ends without its children, and its record goes to its parent's fault domain; for a root region, to its host event queue (R406). -/
def State.endWith (s : State) (loc : Loc) (rid : Nat) (why : EndCause) : State :=
  match s.region? loc.mod rid with
  | none => s
  | some r =>
    let s := s.endOne loc.mod rid
    let w := endRecord s loc rid r.conf why
    if isRootRid rid then s.hostRecord loc.mod r.vif 0 2 rid w.sent else s.record loc r.parent w

/-- The end of a region: every child first, depth first, each with a record of its own (R406), down to `depth` levels of the tree. -/
def State.endTree : Nat → State → Loc → Nat → EndCause → State
  | 0, s, loc, rid, why => s.endWith loc rid why
  | d + 1, s, loc, rid, why =>
    ((s.children loc.mod rid).foldl (fun s c => State.endTree d s loc c.rid .asked) s).endWith loc rid why

/-- A region ends by R406. The tree has no more levels than regions. -/
def State.endRegion (s : State) (loc : Loc) (rid : Nat) (why : EndCause) : State :=
  match s.region? loc.mod rid with
  | none => s
  | some r => if r.state = .ended then s else State.endTree s.regions.length s loc rid why

end Sys2Proof.Machine
end

