-- ==== Sys2Proof/Machine/Queues.lean ====
section
/-! DEFINITION. Sys2Proof/Machine/Queues.lean: the ready queues of a die and its 64 hardware queue slots (spec/16 R407, R408), and which threads a
pre-emption takes with it (spec/09 R253). -/

namespace Sys2Proof.Machine

/-- The columns that `mgang` names. -/
def Agent.columns (a : Agent) : List Nat := (List.range 16).filter fun c => a.mgang.getLsbD c

/-- The live threads of a region on a die, placed or queued. -/
def State.threadsOn (s : State) (m d r : Nat) : List Agent :=
  s.agents.filter fun a => a.loc.mod == m && a.loc.die == d && a.rid == r && !a.isHandler && a.life != .exited

/-- The die's ready queue of a region. -/
def State.rqueue? (s : State) (mod die rid : Nat) : Option RQueue :=
  s.rqueues.find? fun q => q.mod == mod && q.die == die && q.rid == rid

/-- Change that queue. -/
def State.updQueue (s : State) (m d r : Nat) (f : RQueue → RQueue) : State :=
  { s with rqueues := mapIf (fun q => q.mod == m && q.die == d && q.rid == r) f s.rqueues }

/-- The base priority of a queue's region. -/
def State.basePrio (s : State) (q : RQueue) : Nat := ((s.region? q.mod q.rid).map Region.prio).getD 0

/-- A queue has work: its region is not held by its time budget, and a thread of it on the die is placed, or queued without `HOLD` (log entry 19). -/
def State.hasWork (s : State) (q : RQueue) : Bool :=
  !((s.region? q.mod q.rid).map Region.exhausted).getD true && (s.threadsOn q.mod q.die q.rid).any fun a => a.placed || !a.hold

/-- A queue without a slot that does not wait for one. -/
def RQueue.idle (q : RQueue) (prio : Nat) : RQueue := { q with slotAt := none, waitFrom := none, aged := 0, prio := prio }

/-- A queue starts to wait for a slot (R408). -/
def RQueue.wait (q : RQueue) (prio now : Nat) : RQueue := { q with slotAt := none, waitFrom := some now, aged := 0, prio := prio }

/-- A queue is mapped (R408). -/
def RQueue.map (q : RQueue) (prio now : Nat) : RQueue := { q with slotAt := some now, waitFrom := none, aged := 0, prio := prio }

/-- The aging period of R408, in ns. -/
def agingPeriod : Nat := 250000

/-- A waiting queue whose effective priority has risen by 1, up to 7, at every aging period that it has waited (R408). -/
def RQueue.agedTo (q : RQueue) (now : Nat) : RQueue :=
  match q.waitFrom with
  | none => q
  | some t =>
    let k := (now - t) / agingPeriod
    if k ≤ q.aged then q else { q with prio := min 7 (q.prio + (k - q.aged)), aged := k }

/-- The threads of a queue that wait for a place, in queue order: those without `HOLD`. -/
def State.queueThreads (s : State) (q : RQueue) : List Agent :=
  (q.uids.filterMap s.agent?).filter fun a => a.life == .queued && !a.hold

/-- The first waiting thread of a queue is a member of a saved gang (R411). -/
def State.gangHead (s : State) (q : RQueue) : Option Agent :=
  match (s.queueThreads q).head? with
  | some a => if a.saved && 1 < a.columns.length then some a else none
  | none => none

/-- A queue that knows since when the gang at its head waits there for a row: from the first moment that its queue is mapped with it (R411). -/
def State.headed (s : State) (q : RQueue) : RQueue :=
  match (if q.slotAt.isSome then s.gangHead q else none) with
  | none => { q with gang := none }
  | some a => if q.gang.any fun g => g.1 == a.uid then q else { q with gang := some (a.uid, s.meridian q.mod) }

/-- A queue as its work has it: without work it gives up its slot at once, unless it is pinned; with work, or with a pin, it has a slot or waits for one. -/
def State.tidied (s : State) (q : RQueue) : RQueue :=
  if q.slotAt.isSome then (if q.pinned || s.hasWork q then q else q.idle (s.basePrio q))
  else if q.pinned || s.hasWork q then
    (if q.waitFrom.isSome then q.agedTo (s.meridian q.mod) else q.wait (s.basePrio q) (s.meridian q.mod))
  else q.idle (s.basePrio q)

/-- The queues of a die as their work has them. -/
def State.tidyQueues (s : State) (m d : Nat) : State :=
  { s with rqueues := mapIf (fun q => q.mod == m && q.die == d) s.tidied s.rqueues }

/-- Queue `a` is mapped before queue `b`: the higher effective priority, then the earlier wait. -/
def RQueue.before (a b : RQueue) : Bool :=
  decide (b.prio < a.prio) || (a.prio == b.prio && decide (a.waitFrom.getD 0 < b.waitFrom.getD 0))

/-- The best of some waiting queues. -/
def bestQueue : List RQueue → Option RQueue
  | [] => none
  | q :: t =>
    match bestQueue t with
    | none => some q
    | some b => if b.before q then some b else some q

/-- The queues of a die that wait for a slot. -/
def State.waiters (s : State) (m d : Nat) : List RQueue :=
  s.rqueues.filter fun q => q.mod == m && q.die == d && q.slotAt.isNone && q.waitFrom.isSome

/-- The slots of a die in use. -/
def State.slotsUsed (s : State) (m d : Nat) : Nat := countIf (fun q : RQueue => q.mod == m && q.die == d && q.slotAt.isSome) s.rqueues

/-- Free slots go to waiting queues at once. -/
def State.mapFree : Nat → State → Nat → Nat → State
  | 0, s, _, _ => s
  | n + 1, s, m, d =>
    if 64 ≤ s.slotsUsed m d then s
    else match bestQueue (s.waiters m d) with
      | none => s
      | some q => State.mapFree n (s.updQueue m d q.rid fun q => q.map (s.basePrio q) (s.meridian m)) m d

/-- The queues of a die as their work has them, and its free slots given out. -/
def State.settleQueues (s : State) (m d : Nat) : State :=
  let s := State.mapFree 64 (s.tidyQueues m d) m d
  { s with rqueues := mapIf (fun q => q.mod == m && q.die == d) s.headed s.rqueues }

/-- A queued thread enters its region's ready queue on a die at its tail (R407). -/
def State.enqueue (s : State) (mod die rid uid : Nat) : State :=
  let s := match s.rqueue? mod die rid with
    | some _ => s.updQueue mod die rid fun q => { q with uids := q.uids ++ [uid] }
    | none => { s with rqueues := s.rqueues ++ [(⟨mod, die, rid, [uid], 0, none, none, 0, false, none⟩ : RQueue)] }
  s.settleQueues mod die

/-- A thread leaves its ready queue, placed. -/
def State.dequeue (s : State) (mod die rid uid : Nat) : State :=
  s.updQueue mod die rid fun q => { q with uids := q.uids.filter fun u => u != uid }

/-! ### Gangs (spec/09 R250, R253) -/

/-- Two threads belong to one gang: threads of one region on one row, whose `mgang` is the same and names more than one column. -/
def Agent.gangMate (a b : Agent) : Bool :=
  decide (1 < a.columns.length) && a.mgang == b.mgang && a.rid == b.rid && a.loc.mod == b.loc.mod && a.loc.die == b.loc.die
    && a.loc.core / 16 == b.loc.core / 16 && !b.isHandler && b.life != .exited

/-- Every placed thread that satisfies a test is pre-empted at its next boundary. -/
def State.preemptWhere (s : State) (p : Agent → Bool) : State :=
  s.mapAgents fun a => if !a.isHandler && a.placed && a.life != .exited && p a then { a with preempt := true } else a

/-- A thread is pre-empted, and with it its gang. -/
def State.preemptThread (s : State) (a : Agent) : State := s.preemptWhere fun b => b.uid == a.uid || a.gangMate b

end Sys2Proof.Machine
end

