-- ==== Sys2Proof/Machine/Image.lean ====
section
/-! DEFINITION. Sys2Proof/Machine/Image.lean: the context image (spec/15 R379 to R387): what a save writes, in two stages, and what
a restore reads. An image of a confidential region is written under its dump key (spec/20 R458). -/

namespace Sys2Proof.Machine

/-! ### The save area -/

/-- The image of thread `tid` of a region (R379). -/
def imageBase (r : Region) (tid : Nat) : Nat := r.save + 0x20000 * tid

/-- The W9's own accesses for a region: supervisor level, and the dump key where the region is confidential. -/
def State.dumpVias (r : Region) (l : List (Nat × Nat × Via)) : List (Nat × Nat × Via) :=
  if r.conf then l.map fun a => (a.1, a.2.1, { a.2.2 with key := r.dkey }) else l

/-- Write into a region's save area: the faulting address, or the new state. -/
def State.saveBytes (s : State) (r : Region) (loc : Loc) (va : Nat) (bs : List Byte) : Except Nat Unit × State :=
  let sp := { s.space loc .core r.rid 1 with level := 1 }
  match s.translateSpans sp .write (lineSpans (bs.length / 128 + 2) va bs.length) with
  | (.error c, s) => (.error c.2, s)
  | (.ok l, s) =>
    match s.badSpan va (l.filter fun q => decide (q.2.1 < 128)) with
    | some q => (.error q.1, s.foundError q.2.2.loc (s.poisonUnit q.2.2.loc.mod (q.2.1 / 128)) q.2.1)
    | none => (.ok (), s.writeVias .none (State.dumpVias r l) bs)

/-- Write pieces at offsets from a base, up to the first that fails. -/
def State.savePieces (s : State) (r : Region) (loc : Loc) (base : Nat) : List (Nat × List Byte) → Except Nat Unit × State
  | [] => (.ok (), s)
  | (o, bs) :: t =>
    match s.saveBytes r loc (base + o) bs with
    | (.error a, s) => (.error a, s)
    | (.ok (), s) => s.savePieces r loc base t

/-- Read from a region's save area: the faulting address, or the bytes. -/
def State.loadBytes (s : State) (r : Region) (loc : Loc) (va n : Nat) : Except Nat (List Byte) × State :=
  let sp := { s.space loc .core r.rid 1 with level := 1 }
  match s.translateSpans sp .read (lineSpans (n / 128 + 2) va n) with
  | (.error c, s) => (.error c.2, s)
  | (.ok l, s) =>
    match s.badSpan va l with
    | some q => (.error q.1, s.foundError q.2.2.loc (s.poisonUnit q.2.2.loc.mod (q.2.1 / 128)) q.2.1)
    | none =>
      let x := s.readVias (State.dumpVias r l)
      (.ok x.1, x.2)

/-! ### The pieces of an image -/

/-- The restart index of each of the core's four clusters: done(c) of a granted cluster, 0 for another. -/
def restartWords (a : Agent) (done : List Nat) : Nat × Nat :=
  let at_ (c : Nat) : Nat :=
    match a.clusters.findIdx? fun k => k == c with
    | none => 0
    | some g => done.getD g 0 % 2 ^ 32
  (at_ 0 + at_ 1 * 2 ^ 32, at_ 2 + at_ 3 * 2 ^ 32)

/-- Pending events as bits by cause (R380). -/
def pendingWord (a : Agent) : Nat :=
  let cs := a.failures.map (fun f => f.trap.cause) ++ a.late.map (fun t => t.cause)
    ++ (if a.debugStop.isSome then [0x20] else []) ++ (if a.cycleLimit then [0x24] else [])
    ++ (match a.vstop with | some v => if v.taken then [] else [v.trap.cause] | none => [])
  cs.foldl (fun w c => w ||| 2 ^ c) 0

/-- A residue entry (R382). -/
def entryWords (e : Entry) (aside isF : Bool) : List Word :=
  let hw (i : Nat) : Nat := (e.halfs.getD i 0).toNat
  let n := e.halfs.length
  [e.pc, BitVec.ofNat 64 (hw 0 + hw 1 * 2 ^ 16 + hw 2 * 2 ^ 32 + hw 3 * 2 ^ 48),
    BitVec.ofNat 64 (e.seq % 2 ^ 32 * 2 ^ 32 + bnat aside * 2 ^ 31 + e.en.toNat * 2 ^ 25 + bnat e.sp * 2 ^ 24 + e.rm.toNat * 2 ^ 21
      + bnat isF * 2 ^ 20 + bnat (e.passed || e.redo) * 2 ^ 19 + n * 2 ^ 16 + (if n = 5 then hw 4 else 0)),
    BitVec.ofNat 64 (if e.passed || e.redo then e.vl else 0), e.xs.getD 0 0, e.xs.getD 1 0,
    (match e.instr with | .vappend _ _ => BitVec.ofNat 64 e.aux | _ => e.xs.getD 2 0),
    (match e.instr with | .vappend _ _ => e.tok | .mdrn _ _ => e.tok | .mdrnx _ _ => e.tok | _ => 0)]

/-- A satellite slot record (R383). -/
def slotWords (token : Word) (status : Nat) (attached pmiss : Bool) (promise : Option Nat) (rec : List Word) : List Word :=
  [token, BitVec.ofNat 64 (status + bnat attached * 8 + bnat pmiss * 16 + bnat promise.isSome * 32),
    BitVec.ofNat 64 (promise.getD 0), 0, rec.getD 0 0, rec.getD 1 0, rec.getD 2 0, rec.getD 3 0]

/-- The satellites that an agent owns on its core, in slot order of issue. -/
def State.ownSats (s : State) (uid : Nat) : List Sat := s.sats.filter fun t => t.owner == some uid

/-- The slot records of an agent: its own satellites and those carried from another core. -/
def State.slotRecords (s : State) (a : Agent) : List (List Word) :=
  (s.ownSats a.uid).map (fun t => slotWords t.token t.status true t.pmiss t.promise t.record)
    ++ (a.carried.filter fun c => c.status != 4).map fun c => slotWords c.token c.status true c.pmiss c.promise c.record

/-- The slice an agent holds (spec/09 R238). -/
def State.sliceOf (s : State) (uid : Nat) : Option Slice := s.slices.find? fun l => l.holder == some uid

/-- A matrix or drain satellite of an agent's slice is not yet terminal (R385). -/
def State.matrixBusy (s : State) (l : Loc) : Bool :=
  s.sats.any fun t => t.loc == l && (t.engine == .matrix || t.engine == .drain) && !t.terminal

/-- The three counters of a tile as `mstat` reads them (spec/04 R125). -/
def Tile.counters (t : Tile) : Word := BitVec.ofNat 64 (t.inval * 2 ^ 32 + t.nanp * 2 ^ 16 + t.ovf)

/-- The matrix areas of a slice (R379). -/
def matrixPieces (l : Slice) : List (Nat × List Byte) :=
  [(0xF000, l.acc0.rows.toList.flatMap fun r => natBytes 512 r.toNat),
   (0x17000, l.acc1.rows.toList.flatMap fun r => natBytes 512 r.toNat),
   (0x1F000, l.acc0.carries.toList.flatMap fun c => natBytes 4 c.toNat),
   (0x1F100, l.acc1.carries.toList.flatMap fun c => natBytes 4 c.toNat),
   (0x1F200, natBytes 8 l.acc0.counters.toNat ++ natBytes 8 l.acc1.counters.toNat)]

/-- The first doubleword of the header (R380). -/
def headerWord0 (complete : Bool) (tid : Nat) : Word :=
  BitVec.ofNat 64 (bnat complete * 2 ^ 63 + 0x0901 * 2 ^ 32 + tid % 2 ^ 32)

/-- The header (R380). -/
def headerWords (s : State) (a : Agent) (hold : Bool) : List Word :=
  let rs := restartWords a a.done
  let aq := (a.aside.map Aside.queue).getD []
  let ars := restartWords a ((a.aside.map Aside.done).getD [])
  let all := aq ++ a.queue
  [headerWord0 false a.tid,
    BitVec.ofNat 64 (a.rid * 2 ^ 48 + a.level * 2 ^ 16 + bnat hold * 2 ^ 15 + bnat a.uta * 2 ^ 14 + bnat a.aside.isSome * 2 ^ 13
      + bnat (s.sliceOf a.uid).isSome * 2 ^ 12 + a.cmask.toNat * 2 ^ 8 + a.cls),
    a.pc,
    BitVec.ofNat 64 (all.length * 2 ^ 32 + (all.head?.map Entry.seq).getD a.nextSeq % 2 ^ 32),
    BitVec.ofNat 64 rs.1, BitVec.ofNat 64 rs.2, BitVec.ofNat 64 ars.1, BitVec.ofNat 64 ars.2,
    BitVec.ofNat 64 ((a.aside.map Aside.f).getD 0 % 2 ^ 32 * 2 ^ 32), BitVec.ofNat 64 (pendingWord a),
    BitVec.ofNat 64 (s.slotRecords a).length, (a.aside.map Aside.pc).getD 0]

/-- The control-register area (R381). `vfmc` is what the entries before the first residue entry have left; what clusters ahead of it have found stays with
the thread (DESIGN CHOICE, log entry 27). -/
def controlWords (s : State) (a : Agent) : List Word :=
  [BitVec.ofNat 64 a.vl, a.efc.setWidth 64, fpcsrWord a.fpsp a.fpen a.fpflags a.fprm, BitVec.ofNat 64 a.slip,
    vfmcWord a.vfmcCount a.vfmcCause, a.sattr, a.sshape, a.slaunch, a.safter, a.mcfgv, a.msbase, a.mgang.setWidth 64,
    BitVec.ofNat 64 a.gangto, a.utvec, a.ucause, a.uepc, a.uaddr, a.uinfo, BitVec.ofNat 64 ((a.aside.map Aside.vl).getD 0),
    BitVec.ofNat 64 (s.meridian a.loc.mod), a.pscratch]

/-- The vector registers of an image: the bytes below each mark (R384). -/
def vectorPieces (a : Agent) : List (Nat × List Byte) :=
  (List.range 32).filterMap fun v =>
    let m := a.marks.toList.getD v 0
    if m = 0 then none else some (0x1000 + 0x400 * v, natBytes m (a.v.toList.getD v 0).toNat)

/-- Everything stage 1 writes (R379, R385). -/
def imagePieces (s : State) (a : Agent) (hold : Bool) (rec : List Word) : List (Nat × List Byte) :=
  let aq := (a.aside.map Aside.queue).getD []
  let af := (a.aside.map Aside.f)
  let fseq := a.vstop.map VStop.seq
  [(0x8, wordsBytes ((headerWords s a hold).drop 1)), (0xC0, wordsBytes rec),
   (0x100, wordsBytes ((List.range 32).map fun n => if n = 0 then 0 else a.x.toList.getD n 0)),
   (0x200, wordsBytes (controlWords s a)),
   (0x300, a.k.toList.flatMap fun k => natBytes 32 k.toNat)]
  ++ (if a.cls = 0 then [] else
   -- a predicate has one bit for each element of 8 bits of the class, and nothing beyond them is written (R379)
   a.p.toList.mapIdx (fun n p => (0x500 + 128 * n, natBytes (a.mvl 8 / 8) p.toNat)) ++ [(0xB00, natBytes (a.mvl 8 / 8) a.fmask.toNat),
    (0xB80, a.marks.toList.flatMap fun m => natBytes 4 m)] ++ vectorPieces a)
  ++ [(0x9000, (aq.flatMap fun e => wordsBytes (entryWords e true (some e.seq == af)))
        ++ a.queue.flatMap fun e => wordsBytes (entryWords e false (some e.seq == fseq))),
      (0xB000, (s.slotRecords a).flatMap wordsBytes)]
  ++ (match s.sliceOf a.uid with
      | some l => if s.matrixBusy l.loc then [] else matrixPieces l
      | none => [])
  ++ [(0, wordsBytes [headerWord0 false a.tid])]

/-! ### Stopping a thread (R385) -/

/-- A thread that has been written to its image: queued, its context and clusters free. Results of an `mfcr` whose entry is in the
residue stay pending (spec/02 R469). -/
def Agent.shelved (a : Agent) (hold : Bool) (now : Nat) : Agent :=
  { a with life := .queued, placed := false, saved := true, hold := hold, complete := false, saveTime := now, vstop := none,
           inflight := a.inflight.filter fun i => i.entry.isSome, preempt := false, pended := pendingWord a }

/-- Stage 1 of a save for the agent of a handle: its image is written, then it is queued on its die. A fault on the way is cause 0x21 and ends
the region (R390). -/
def State.shelve (s : State) (uid : Nat) (hold : Bool) (rec : List Word) : State :=
  match s.agent? uid with
  | none => s
  | some a =>
    match s.region? a.loc.mod a.rid with
    | none => s.updAgent uid Agent.gone
    | some r =>
      match s.savePieces r a.loc (imageBase r a.tid) (imagePieces s a hold rec) with
      | (.error addr, s) => s.endRegion a.loc a.rid (.saveFault (BitVec.ofNat 64 addr) a.tid)
      | (.ok (), s) =>
        let s := s.updAgent uid fun a => a.shelved hold (s.meridian a.loc.mod)
        let s := { s with barrier := s.barrier.filter fun b => b.uid != uid }
        s.enqueue a.loc.mod a.loc.die a.rid uid

end Sys2Proof.Machine
end

