-- ==== Sys2Proof/Machine/Trace.lean ====
section
/-! DEFINITION. Sys2Proof/Machine/Trace.lean: trace records as the units of a die produce them (spec/19 R448 to R457) and the debug
table's matches (R444 to R447). -/

namespace Sys2Proof.Machine

/-! ### Buffers -/

/-- The trace buffer of a region on a die. -/
def State.tbuf? (s : State) (mod die rid : Nat) : Option TraceBuf :=
  s.tbufs.find? fun b => b.mod == mod && b.die == die && b.rid == rid

/-- Change that buffer. -/
def State.updTbuf (s : State) (mod die rid : Nat) (f : TraceBuf → TraceBuf) : State :=
  { s with tbufs := mapIf (fun b => b.mod == mod && b.die == die && b.rid == rid) f s.tbufs }

/-- A record dropped at a time: `LOST` and the pending gap advance (R449). -/
def TraceBuf.drop (b : TraceBuf) (time : Nat) : TraceBuf :=
  { b with lost := min (2 ^ 64 - 1) (b.lost + 1), gapped := b.gapped + 1, gapFrom := if b.gapped = 0 then time else b.gapFrom, gapTo := time }

/-- Doubleword 0 of a record before its state bits and `DT` are known: type, context and core (R450). -/
def traceHead (ty ctx core : Nat) : Nat := ty * 2 ^ 56 + ctx % 8 * 2 ^ 48 + core % 128 * 2 ^ 41

/-- The state bits that a record carries when it is written: `PSTATE`, `PLIM`, `THERM` (R450). -/
def State.traceBits (s : State) (l : Loc) : Nat :=
  s.pstate l % 8 * 2 ^ 53 + bnat (s.die l.mod l.die).limited * 2 ^ 52 + bnat (s.die l.mod l.die).throttle * 2 ^ 51

/-- The last TIME record of a core in the buffer of a region. -/
def State.lastTime (s : State) (l : Loc) (rid : Nat) : Option Nat :=
  ((s.die l.mod l.die).lastTime.find? fun q => q.1 == rid * 128 + l.core).map Prod.snd

/-- Module meridian status of counter 0x07E (R442): running free, the reference, slewing. -/
def State.meridianStatus (s : State) (m : Nat) : Word :=
  match s.module? m with
  | none => 0
  | some a => BitVec.ofNat 64 (bnat a.freeRun + 2 * bnat a.refr + 4 * bnat a.slewing)

/-- A record joins its die's queue of 4,096, or is dropped (R449). -/
def State.traceQueue (s : State) (r : TraceRec) : State :=
  if (s.tqueue.filter fun q => q.mod == r.mod && q.die == r.die).length < 4096 then { s with tqueue := s.tqueue ++ [r] }
  else s.updTbuf r.mod r.die r.rid fun b => b.drop r.made

/-- A record of a core is written: a TIME record first where none stands, and where `DT` would pass 32 bits or, the event lying before the last TIME
record, be negative (R450; log entry 39). The TIME record stands at the event's time. `made` is when the record was produced. -/
def State.traceWrite (s : State) (l : Loc) (rid time made : Nat) (head : Nat) (w1 w2 w3 : Word) : State :=
  let bits := s.traceBits l
  let fresh : Bool := match s.lastTime l rid with
    | none => true
    | some t => decide (time < t) || decide (2 ^ 32 ≤ time - t)
  let s := if !fresh then s else
    let s := s.traceQueue ⟨l.mod, l.die, rid, time, made, [BitVec.ofNat 64 (traceHead 1 0 l.core + bits), BitVec.ofNat 64 time,
        BitVec.ofNat 64 (s.cycle l), s.meridianStatus l.mod]⟩
    s.updDie l.mod l.die fun d => { d with lastTime := upsert (fun q => q.1 == rid * 128 + l.core) (rid * 128 + l.core, time) d.lastTime }
  let dt := time - (s.lastTime l rid).getD time
  s.traceQueue ⟨l.mod, l.die, rid, time, made, [BitVec.ofNat 64 (head + bits + dt % 2 ^ 32), w1, w2, w3]⟩

/-- The capture ring of a buffer keeps the last 256 records of each core (R456). -/
def State.traceKeep (s : State) (l : Loc) (r : TraceRec) : State :=
  let mine (q : TraceRec) : Bool := q.mod == r.mod && q.die == r.die && q.rid == r.rid && bits (q.words.getD 0 0).toNat 41 7 == l.core
  let all := s.tcapture ++ [r]
  if (all.filter mine).length ≤ 256 then { s with tcapture := all }
  else { s with tcapture := all.eraseP mine }

/-- A record of type `ty` that a unit of core `l` produces for a region, timed from `time`: written as the region's control word selects
(R448, R456), in the form that an outside observer of a confidential region sees (R457). -/
def State.trace (s : State) (l : Loc) (ctx rid ty time : Nat) (w1 w2 w3 : Word) : State :=
  match s.tbuf? l.mod l.die rid with
  | none => s
  | some b =>
    let outside := b.masked && s.confidential l.mod rid
    if outside && ty != 1 && ty != 6 && ty != 7 && ty != 9 then s
    else
      let w3 := if outside && ty == 6 then 0 else w3
      let head := traceHead ty ctx l.core
      let now := s.meridian l.mod
      if ty == 2 && !bit b.ctl 3 then s
      else if ty == 4 || ty == 5 || ty == 6 then
        let open_ : Bool := match (s.die l.mod l.die).captureEnd with
          | some t => decide (s.meridian l.mod < t)
          | none => false
        if bit b.ctl 2 || (bit b.ctl 1 && open_) then s.traceWrite l rid time now head w1 w2 w3
        else if bit b.ctl 1 then s.traceKeep l ⟨l.mod, l.die, rid, time, now, [BitVec.ofNat 64 head, w1, w2, w3]⟩
        else s
      else s.traceWrite l rid time now head w1 w2 w3

/-- The restart indices of an agent's four clusters, low 16 bits each (R451). -/
def restartLow (a : Agent) : Word :=
  let w := restartWords a a.done
  BitVec.ofNat 64 (bits w.1 0 16 + bits w.1 32 16 * 2 ^ 16 + bits w.2 0 16 * 2 ^ 32 + bits w.2 32 16 * 2 ^ 48)

/-- A STATE record of an agent (R454): 0 placed, 1 parked, 2 woken, 3 pre-empted, 4 stopped, 5 exited, 6 handler start, 7 handler end. -/
def State.traceState (s : State) (a : Agent) (st cause : Nat) : State :=
  s.trace a.loc a.ctx a.rid 6 (s.meridian a.loc.mod) a.tidWord (BitVec.ofNat 64 (st + cause * 256)) (restartLow a)

/-- A STATE record of a park that ends (R454). -/
def State.wakes (s : State) (a : Agent) : State := match a.life with | .parked _ => s.traceState a 2 0 | _ => s

/-- A SAT record of a satellite that ended (R454), timed from its issue. Its hardware context is that of the thread that issued it, while it stands on that
core, and otherwise 0 (DEDUCED, log entry 39). -/
def State.traceSat (s : State) (t : Sat) (cause : Nat) : State :=
  let now := s.meridian t.loc.mod
  let ctx := (((s.agent? t.issuer).filter fun a => a.placed && a.loc == t.loc).map Agent.ctx).getD 0
  s.trace t.loc ctx t.rid 5 t.issuedAt t.token (BitVec.ofNat 64 ((now - t.issuedAt) % 2 ^ 32 * 2 ^ 32 + t.units % 2 ^ 32)) (BitVec.ofNat 64 cause)

/-! ### The debug table (R444) -/

/-- An entry of a debug table. -/
structure DebugEntry where
  num  : Nat
  tid  : Nat
  all  : Bool
  watch : Bool
  clusters : Nat
  wr   : Bool
  rd   : Bool
  ty   : Nat
  low  : Nat
  high : Nat
  deriving DecidableEq, Repr

/-- The entries of a table's doublewords, numbered from `n`. -/
def debugEntries : Nat → List Word → List DebugEntry
  | n, w0 :: w1 :: w2 :: _ :: t =>
    let d := w0.toNat
    ⟨n, bits d 32 32, bit d 14, bit d 13, bits d 8 4, bit d 5, bit d 4, bits d 0 4, w1.toNat, w2.toNat⟩ :: debugEntries (n + 1) t
  | _, _ => []

/-- The entries that name an agent, in the table bound to its region on its die. -/
def State.debugFor (s : State) (a : Agent) : List DebugEntry :=
  match s.tbuf? a.loc.mod a.loc.die a.rid with
  | none => []
  | some b => (debugEntries 0 b.debug).filter fun e => e.tid == 0xFFFFFFFF || e.tid == a.tidWord.toNat

/-- A debug table is bound to the agent's region (R445). -/
def State.debugBound (s : State) (a : Agent) : Bool :=
  match s.tbuf? a.loc.mod a.loc.die a.rid with
  | none => false
  | some b => !(TraceBuf.debug b).isEmpty

/-- Some byte of `n` from `addr` lies in an entry's range. -/
def DebugEntry.hits (e : DebugEntry) (addr n : Nat) : Bool := decide (addr < e.high) && decide (e.low < addr + n)

/-- Every other thread of an agent's region takes cause 0x20 at its next boundary (R447). -/
def State.stopAll (s : State) (a : Agent) : State :=
  s.mapAgents fun b =>
    if b.uid != a.uid && b.loc.mod == a.loc.mod && b.rid == a.rid && !b.isHandler && b.life != .exited then
      { b with debugStop := some ⟨0x20, 0, 0, 0, false, 0⟩ }
    else b

/-- A WATCH record for each entry (R447). -/
def State.watches (s : State) (a : Agent) (addr : Word) (elem : Nat) : List DebugEntry → State
  | [] => s
  | e :: t =>
    (s.trace a.loc a.ctx a.rid 8 (s.meridian a.loc.mod) addr (BitVec.ofNat 64 (elem * 2 ^ 32 + e.num)) a.tidWord).watches a addr elem t

end Sys2Proof.Machine
end

