-- ==== Sys2Proof/Machine/Ops.lean ====
section
/-! DEFINITION. Sys2Proof/Machine/Ops.lean: what every instruction shares: the hazard check, issue, the wait marker, long-latency
results (spec/03 R86 to R90), and taking a trap, once for the whole model (spec/15 R368 to R377), with its return beside it
(R371). -/

namespace Sys2Proof.Machine

/-! ### Reports of failed stores (spec/06 R171, spec/08 R215) -/

/-- The failure that a report gives its thread: `uaddr` the chain address of the store, `uinfo` the data address, or for a vector store the
failing element in [63:32]. -/
def Report.failure (r : Report) : Failure :=
  ⟨r.tag.order, ⟨r.cause, 0, r.tag.pc, if r.tag.entry then BitVec.ofNat 64 (r.tag.elem * 2 ^ 32) else r.tag.data, false, 0⟩, true⟩

/-- One more failure in issue order; one instruction's failing elements are one failure, of the lowest (R215). -/
def addFailure (f : Failure) : List Failure → List Failure
  | [] => [f]
  | g :: t =>
    if g.order = f.order then (if f.trap.info.ult g.trap.info then f else g) :: t
    else if f.order < g.order then f :: g :: t
    else g :: addFailure f t

/-- The record of a failure that no thread takes any more: its cause, the chain address and the data address (log entry 14). -/
def storeRecord (s : State) (r : Report) : Record :=
  ⟨r.cause, false, false, false, false, s.confidential r.tag.loc.mod r.tag.rid, r.tag.tid, 0, r.failure.trap.addr, r.tag.data,
    s.meridian r.tag.loc.mod, 0, 0, r.tag.rid, r.tag.loc⟩

/-- The record of a failure of an agent that ends before taking it (spec/06 R171, spec/11 R330). -/
def failureRecord (s : State) (a : Agent) (t : Trap) : Record :=
  ⟨t.cause, false, false, false, a.uta, s.confidential a.loc.mod a.rid, a.tidWord.toNat, 0, t.addr, t.info, s.meridian a.loc.mod, 0, 0,
    a.rid, a.loc⟩

/-- The agent waits for results before a trap is taken (spec/03 R89): what comes in that wait is found by it (spec/15 R370 step 2). -/
def Agent.waitsToTrap (a : Agent) : Bool := match a.life with | .trapping _ => true | _ => false

/-- A report reaches the core: the storing thread has one failure more, or, if it has exited, the region's queue gets a record; nobody is told of
a write that the W9 made for itself. -/
def State.deliver (s : State) (r : Report) : State :=
  if r.tag.uid = 0 then s
  else match s.agent? r.tag.uid with
    | some a =>
      if a.life = .exited then s.record r.tag.loc r.tag.rid (storeRecord s r)
      else s.updAgent r.tag.uid fun a => { a with failures := addFailure { r.failure with armed := !a.waitsToTrap } a.failures }
    | none => s.record r.tag.loc r.tag.rid (storeRecord s r)

/-- The reports of one vector entry are one failure, of its lowest element (R215): a report joins one of the same entry that came before it. -/
def joinReport (r : Report) : List Report → List Report
  | [] => [r]
  | q :: t =>
    if q.tag.entry && r.tag.entry && q.tag.uid == r.tag.uid && q.tag.order == r.tag.order then (if r.tag.elem < q.tag.elem then r else q) :: t
    else q :: joinReport r t

/-- A report of a store that an agent itself made, not a satellite of it. -/
def Report.ofAgent (r : Report) (uid : Nat) : Bool := r.tag.uid == uid && r.tag.sid == 0

/-- Some cluster has still to complete the vector entry that a report comes from: its other writes can fail too, and the report names the lowest failing
element of the entry (spec/08 R215). -/
def State.entryRuns (s : State) (r : Report) : Bool :=
  r.tag.entry && (s.agent? r.tag.uid).any fun a => (a.queue ++ (a.aside.map Aside.queue).getD []).any fun e => e.order == r.tag.order

/-- Every report of an agent's stores that is on its way reaches the core, but for those of an entry that some cluster has still to complete. -/
def State.deliverAll (s : State) (uid : Nat) : State :=
  let mine (r : Report) : Bool := r.ofAgent uid && !s.entryRuns r
  ((s.reports.filter mine).foldl (fun l r => joinReport r l) []).foldl State.deliver { s with reports := s.reports.filter fun r => !mine r }

/-! ### Taking a trap (spec/15) -/

/-- The delegable causes (R375). -/
def delegable (c : Nat) : Bool :=
  c == 0x11 || c == 0x12 || c == 0x13 || c == 0x14 || c == 0x15 || c == 0x16 || c == 0x19 || c == 0x26

/-- A trap is taken at `utvec` (R368). -/
def Agent.takesAtUtvec (a : Agent) (t : Trap) : Bool :=
  decide (a.level < 2) && delegable t.cause && a.utvec &&& ~~~1 != 0 && !a.uta && (!t.stream || a.aside.isNone)

/-- A precise trap of an instruction at issue (spec/06 R159). -/
def issueTrap (cause : Nat) (pc addr info : Word) : Trap := ⟨cause, pc, addr, info, false, 0⟩

/-- An entry that is an `mfcr` of a value of the stream (spec/03 R67). -/
def Entry.isRead (e : Entry) : Bool := match e.instr with | .mfcrStream _ _ => true | _ => false

/-- A result that an agent waits for before a trap is taken (spec/03 R89): every result in flight, with the one exception of an `mfcr` whose
dispatch-queue entry stays in the residue of a stop (spec/02 R469). A `vmvx` is not excepted: where its entry stands at or behind a stopped one, the wait
does not end (log entry 58). -/
def Agent.mustWait (a : Agent) (t : Trap) : Bool :=
  a.inflight.any fun i =>
    match i.entry with
    | none => true
    | some q =>
      match (a.queue ++ (a.aside.map Aside.queue).getD []).find? fun e => e.seq == q with
      | none => true
      | some e => !e.isRead || (!t.stream && (a.queue.any fun e => e.seq == q) && (a.vstop.all fun v => decide (q < v.seq)) && a.takesAtUtvec t)

/-! ### `vfmc` and the vector fault mask (spec/07 R196) -/

/-- `vfmc` after a change. -/
def vfmcStep (c : Nat × Nat) (l : VfmcLog) : Nat × Nat :=
  if l.clear then (0, 0)
  else if l.count = 0 then c
  else (min 2047 (c.1 + l.count), if c.1 = 0 then l.cause else c.2)

/-- `vfmc` as an entry of sequence number `seq` reads it: every earlier entry's changes are in. -/
def Agent.vfmcAt (a : Agent) (seq : Nat) : Nat × Nat :=
  (a.vfmcLog.filter fun l => decide (l.seq < seq)).foldl vfmcStep (a.vfmcCount, a.vfmcCause)

/-- The vector fault mask after a change. -/
def maskStep (m : BitVec 1024) (l : VfmcLog) : BitVec 1024 := (m ||| l.sets) &&& ~~~l.clears

/-- The vector fault mask as an entry of sequence number `seq` reads it: every earlier entry's changes are in (R196). -/
def Agent.maskAt (a : Agent) (seq : Nat) : BitVec 1024 :=
  (a.vfmcLog.filter fun l => decide (l.seq < seq)).foldl maskStep a.fmask

/-- The changes of entries before `seq` become part of the two registers. -/
def Agent.foldVfmc (a : Agent) (seq : Nat) : Agent :=
  let c := a.vfmcAt seq
  { a with vfmcCount := c.1, vfmcCause := c.2, fmask := a.maskAt seq, vfmcLog := a.vfmcLog.filter fun l => !decide (l.seq < seq) }

/-- The pending bits of results that stay in flight (spec/02 R469). -/
def Agent.keptPending (a : Agent) : BitVec 32 × BitVec 16 :=
  a.inflight.foldl (fun p i => if i.isK then (p.1, p.2 ||| BitVec.ofNat 16 (2 ^ i.reg)) else (p.1 ||| BitVec.ofNat 32 (2 ^ i.reg), p.2))
    (0, 0)

/-- The pending set emptied, but for results whose entries stay in a residue (R88, R89, R469). -/
def Agent.clearPending (a : Agent) : Agent :=
  let p := a.keptPending
  { a with pendX := p.1 &&& ~~~1, pendK := p.2, marked := a.marked && a.inflight.any (fun i => i.entry.isSome),
           failures := a.failures.map fun f => { f with armed := true } }

/-- Entry at `utvec` (R370): the user trap registers, `UTA`, for a vector-stream trap the residue set aside, and the program
counter at `utvec`. -/
def Agent.enterUser (a : Agent) (t : Trap) : Agent :=
  let a := a.clearPending
  let a := { a with ucause := BitVec.ofNat 64 t.cause, uepc := t.epc &&& ~~~1, uaddr := t.addr, uinfo := t.info, uta := true, life := .ready, userSeq := a.nextSeq }
  let a := if t.stream then
      -- what clusters that completed entry F have done to the mask is done (spec/07 R198); what clusters beyond it have done is set aside
      let a := a.foldVfmc (t.seq + 1)
      { a with aside := some ⟨a.queue, a.done, t.seq, a.vl, a.pc, a.fpera, a.marked, a.vfmcLog⟩, queue := [], done := a.done.map fun _ => a.nextSeq,
                vstop := none, marked := false, vfmcLog := [] }
    else a
  { a with pc := a.utvec &&& ~~~1 }

/-- A trap of the firmware of a fabric die goes to the firmware vector of its die, or at level M to the machine-check path, and to no image and no record
(spec/15 R366, spec/18 R438). The spec does not give the vector's address, nor where such a trap is seen; the model uses the registers of a user trap (log
entry 59). -/
def Agent.enterFirmware (a : Agent) (t : Trap) : Agent := { a.enterUser t with pc := Config.firmwareVector a.loc.mod a.loc.die a.level }

/-- The trap record of an agent (R378). -/
def trapRecord (s : State) (a : Agent) (t : Trap) : Record :=
  let first := ((((a.aside.map Aside.queue).getD [] ++ a.queue).head?).map Entry.seq).getD a.nextSeq % 2 ^ 32
  let rs := if t.stream then restartWords a a.done else (first + first * 2 ^ 32, first + first * 2 ^ 32)
  ⟨t.cause, t.stream, false, false, a.uta, s.confidential a.loc.mod a.rid, a.tidWord.toNat, t.epc, t.addr, t.info, s.meridian a.loc.mod,
    BitVec.ofNat 64 rs.1, BitVec.ofNat 64 rs.2, a.rid, a.loc⟩

/-- An entry that is a message. -/
def Entry.isSend (e : Entry) : Bool := match e.instr with | .send _ _ | .sendR _ _ | .sendr _ _ => true | _ => false

/-- A send entry of a residue passes the address stage once more, where it reserves anew, with the `vl` it had (spec/11 R319). -/
def Entry.resend (e : Entry) : Entry := if e.isSend && e.passed then { e with passed := false, redo := true } else e

/-- Reservations of an agent's unsent messages are free again: those of which `which` holds of the dispatch-queue entry. -/
def State.freeSends (s : State) (uid : Nat) (which : Nat → Bool) : State :=
  let goes (q : SendEntry) : Bool := q.uid == uid && !q.sent && which q.entry
  let mine := s.sendq.filter goes
  { s with sendq := s.sendq.filter fun q => !goes q,
           rslots := s.rslots.map fun r => if mine.any (fun q => q.loc == r.loc && q.slot == some r.slot) then { r with used := false } else r }

/-- The send entries in the residue of a stop hold no reservation: the queue entries and reply slots of an agent's sends that have not
been sent are free again (spec/11 R319). -/
def State.releaseSends (s : State) (uid : Nat) : State :=
  (s.freeSends uid fun _ => true).updAgent uid fun a => { a with queue := a.queue.map Entry.resend }

/-- A detached satellite has no owner (spec/02 R55). -/
def State.detachAll (s : State) (uid : Nat) : State :=
  let mine := (s.ownSats uid).map Sat.sid
  let s := { s with sats := mapIf (fun t => t.owner == some uid) (fun t => { t with owner := none }) s.sats }
  mine.foldl State.settleSat s

/-- The answers of remote loads that a stop abandons are thrown away (spec/18 R434), and their elements are asked for again when the entries run again (R43,
spec/11 R316). -/
def State.abandonRemote (s : State) (uid : Nat) : State :=
  let gone (q : Request) : Bool := match q.use with
    | .element u _ _ _ => u == uid && q.pkt.op == 1
    | _ => false
  -- an abandoned entry leaves no trace in the cluster: what had arrived is asked for again too
  let lane (l : Lane) : Lane := { l with sent := false, val := none, cause := 0 }
  let entry (e : Entry) : Entry := match e.instr with
    | .rvld _ _ => { e with lanes := e.lanes.map lane }
    | _ => e
  { s with reqs := mapIf gone (fun q => { q with use := .dropped }) s.reqs }.updAgent uid fun a => { a with queue := a.queue.map entry }

/-- What a stop of an agent's stream gives back: the reservations of its unsent messages and its remote loads in flight. -/
def State.stopStream (s : State) (uid : Nat) : State := (s.releaseSends uid).abandonRemote uid

/-- An entry that is abandoned for good: it does nothing more. -/
def Entry.husk (e : Entry) : Entry := { e with passed := true, n := 0, vl := 0, mask := 0, lanes := [] }

/-- An entry of an agent is abandoned for good: a message loses its reservation (spec/11 R319). -/
def State.abandonEntry (s : State) (uid f : Nat) : State :=
  (s.freeSends uid (· == f)).updAgent uid fun a => { a with queue := mapIf (fun e => e.seq == f) Entry.husk a.queue, vstop := none }

/-- The entries of a queue up to the last message among them that has not been abandoned. -/
def upToSends : List Entry → List Entry
  | [] => []
  | e :: t => if (e :: t).any Entry.isSend then e :: upToSends t else []

/-- A handler that ends, with the messages that it has still to send and the entries before them, which decide what the messages carry (R374; log entry
63). -/
def Agent.goneSending (a : Agent) : Agent := { a.gone with queue := upToSends a.queue }

/-- A handler ends: a message that it had reserved a queue entry for goes on, but not the entry `cut` at which its stream has stopped; failures of its stores
go to the region's queue (spec/06 R171), its satellites become detached and its context is free (spec/02 R50, R374). -/
def State.endHandler (s : State) (uid : Nat) (cut : Option Nat := none) : State :=
  match s.agent? uid with
  | none => s
  | some a =>
    let s := match cut with
      | some f => s.abandonEntry uid f
      | none => s
    let s := (a.failures.filter Failure.armed).foldl (fun s f => s.record a.loc a.rid (failureRecord s a f.trap)) s
    (s.detachAll uid).updAgent uid Agent.goneSending

/-- A trap taken by the supervisor in a thread (R373): the image with `HOLD` set, then a copy of the record to the fault domain. A debug stop of a gang's
member pre-empts the others (spec/19 R447). -/
def State.supervisorTrap (s : State) (t : Trap) : State :=
  let a := s.me
  let r := trapRecord s a t
  let s := if t.cause = 0x20 then s.preemptWhere a.gangMate else s
  let s := (s.traceState a 4 t.cause).stopStream a.uid
  let s := if t.stream then s.upd fun a => { a with vstop := a.vstop.map fun v => { v with taken := true } } else s
  let s := s.shelve a.uid true r.words
  if s.me.saved && s.me.life == .queued then s.record a.loc a.rid r else s

/-- A trap taken by the supervisor in a handler ends it, and its record is sent (R374). -/
def State.handlerTrap (s : State) (t : Trap) : State :=
  let a := s.me
  let r := trapRecord s a t
  ((s.traceState a 7 t.cause).endHandler a.uid (if t.stream then some t.seq else none)).record a.loc a.rid r

/-- A trap is taken: no result is waited for any more (R368). -/
def State.enterTrap (s : State) (t : Trap) : State :=
  if s.me.takesAtUtvec t then
    let s := if t.stream then s.stopStream s.me.uid else s
    { s with barrier := s.barrier.filter fun b => b.uid != s.me.uid }.upd fun a => a.enterUser t
  else if 2 ≤ s.me.level then
    let s := if t.stream then s.stopStream s.me.uid else s
    s.upd fun a => a.enterFirmware t
  else if s.me.isHandler then s.handlerTrap t
  else s.supervisorTrap t

/-- A trap reported with the next chain to issue. -/
def Agent.hereTrap (a : Agent) (t : Trap) : Trap := { t with epc := a.pc }

/-- One entry less of a list. -/
def dropOne {α : Type} [DecidableEq α] (x : α) : List α → List α
  | [] => []
  | y :: t => if y = x then t else y :: dropOne x t

/-- The pending event that a trap comes from is pending no more as the trap is taken (R377): the handler's cycle limit, a debug stop, 0x26 or 0x13. -/
def Agent.dropEvent (a : Agent) (t : Trap) : Agent :=
  let same (q : Trap) : Bool := q.cause == t.cause && q.addr == t.addr && q.info == t.info
  { a with cycleLimit := a.cycleLimit && t.cause != 0x24,
           debugStop := if a.debugStop.any same then none else a.debugStop,
           late := match a.late.find? same with
             | some q => dropOne q a.late
             | none => a.late }

/-- A trap that comes before the failures of earlier instructions that are due: a debug stop and a vector-stream trap (R377 steps 1 and 2). -/
def Trap.beforeFailures (t : Trap) : Bool := t.stream || t.cause == 0x20

/-- The failure that is taken in place of a trap, in issue order: `due` are the agent's failures before this point of R89, and now every report is there,
and every failed result (R90, R171). A trap of step 1 or 2 of R377 comes before those that were due already; where it goes to `utvec`, or to the firmware's
vector, one that this wait has found is taken instead (R370 step 2), and where it goes to the supervisor all of them stay pending. -/
def State.foundFailure (s : State) (due : List Failure) (t : Trap) : Option Failure :=
  if !t.beforeFailures then s.me.failures.head?
  else if s.me.takesAtUtvec t || decide (2 ≤ s.me.level) then s.me.failures.find? fun f => !due.contains f
  else none

/-- Every report of the agent whose turn it is has reached the core, and its failures are due: a point of R89. -/
def State.dueFailures (s : State) : State :=
  (s.deliverAll s.me.uid).upd fun a => { a with failures := a.failures.map fun f => { f with armed := true } }

/-- TAKING A TRAP, for the agent whose turn it is: where results are in flight they are waited for first (spec/03 R89), and the trap is
taken at the boundary at which they have arrived (`EVENT_BOUNDARY`); otherwise it is taken now. A failure found at this point is taken instead
(`State.foundFailure`); what it displaces stays pending, or comes up again with its chain. -/
def State.takeTrap (s : State) (t : Trap) : State :=
  if s.me.mustWait t then s.upd fun a => { a with life := .trapping t }
  else
    let due := s.me.failures.filter Failure.armed
    let s := s.dueFailures.upd fun a => { a with life := .ready }
    match s.foundFailure due t with
    | none => (s.upd fun a => a.dropEvent t).enterTrap t
    | some f =>
      let g := s.me.hereTrap f.trap
      if s.me.mustWait g then s.upd fun a => { a with life := .trapping g }
      else (s.upd fun a => { a with failures := dropOne f a.failures }).enterTrap g

/-! ### Returning from a user trap (spec/15 R371) -/

/-- Entry F of a restored residue takes the rounding mode, `SP` and the trap enables as they now stand; the others keep what they captured. -/
def Agent.refreshF (a : Agent) (f : Nat) (e : Entry) : Entry := if e.seq = f then { e with rm := a.fprm, sp := a.fpsp, en := a.fpen } else e

/-- An asynchronous cause that was held while `UTA` was set (R372) is marked as such: those are taken in their arrival order (R377). -/
def Trap.held (t : Trap) : Trap := { t with seq := 1 }

/-- A residue entry that comes back raises its flags after what the handler wrote to `fpcsr`, where no `mtcr` of the interrupted stream followed
it: cluster 0 of the example after R402 runs entry F again and sets OF (spec/15 R371). -/
def Agent.resumeEra (a : Agent) (era : Nat) (e : Entry) : Entry := if e.era = era then { e with era := a.fpera } else e

/-- THE RETURN FROM A USER TRAP: a residue set aside comes back with its `vl`, its restart indices and the scalar program counter; otherwise the
program counter is `uepc`. `UTA` is clear. A park of a wait marker that the stop ended goes on (spec/02 R469). -/
def Agent.leaveUser (a : Agent) : Agent :=
  let b := { a with uta := false, late := a.late.map Trap.held }
  match a.aside with
  | none => { b with pc := a.uepc &&& ~~~1 }
  | some r =>
    { b with queue := r.queue.map fun e => a.resumeEra r.era (a.refreshF r.f e), done := r.done, vl := r.vl, pc := r.pc, aside := none,
             vfmcLog := r.log,
             life := if r.marked then .parked .marker else b.life, marked := r.marked,
             nextSeq := (r.queue.getLast?.map fun e => e.seq + 1).getD a.nextSeq }

/-! ### Hazards (spec/03 R87) -/

/-- The registers an instruction reads and writes: `x` and `k`. -/
structure Needs where
  xr : List Reg := []
  xw : List Reg := []
  kr : List Reg4 := []
  kw : List Reg4 := []
  deriving DecidableEq, Repr

/-- The first pending register, as `uinfo` names it: [5] for `k`, [4:0] the number. Where an instruction meets several, the spec does not say which one
`uinfo` holds; the model takes the `x` registers read, then the `x` registers written, then the `k` registers (DESIGN CHOICE, log entry 55). -/
def Agent.hazard (a : Agent) (n : Needs) : Option Nat :=
  match (n.xr ++ n.xw).find? fun r => a.pendX.getLsbD r.toNat with
  | some r => some r.toNat
  | none => ((n.kr ++ n.kw).find? fun r => a.pendK.getLsbD r.toNat).map fun r => 32 + r.toNat

/-! ### Issue -/

/-- What the body of an instruction gives. -/
inductive Res where
  /-- The effect; the program counter goes on to the next chain. -/
  | ok (s : State)
  /-- The effect; the program counter goes to this address. -/
  | goto (s : State) (pc : Word)
  /-- The thread parks at this chain, which runs again when the park ends. -/
  | parkHere (s : State) (why : Park)
  /-- The instruction does not issue yet. -/
  | hold (s : State)
  /-- A trap at issue; the state is the one before the instruction. -/
  | trap (t : Trap)
  /-- The instruction ends the agent, or moves it by itself. -/
  | gone (s : State)

/-- A wait marker waits for every result in flight whose entry is not set aside (R88). -/
def Agent.markerWaits (a : Agent) : Bool :=
  a.inflight.any fun i =>
    match i.entry with
    | none => true
    | some q => !(((a.aside.map Aside.queue).getD []).any fun e => e.seq == q)

/-- The end of an instruction that issued (R88): the chain is counted (spec/19 R442), and with W = 1 the thread parks until every pending
register is written, or goes on at once with an empty pending set when none is awaited. -/
def Agent.retireChain (a : Agent) (wait : Bool) : Agent :=
  let a := { a with issued := (a.issued + 1) % 2 ^ 64, order := a.order + 1 }
  if !wait then a else if a.markerWaits then { a with life := .parked .marker, marked := true } else a.clearPending

/-- The address of the next chain: `next` of spec/06 R158. -/
def State.nextPc (s : State) (h : Hdr) : Word := s.me.pc + BitVec.ofNat 64 (2 * h.len)

/-- Finish an instruction from what its body gave. -/
def State.finish (s : State) (h : Hdr) : Res → State
  | .ok t => (t.setPc (s.nextPc h)).upd fun a => a.retireChain h.wait
  | .goto t pc => (t.setPc pc).upd fun a => a.retireChain h.wait
  | .parkHere t why => t.upd fun a => { a with life := .parked why }
  | .hold t => t
  | .trap t => s.takeTrap t
  | .gone t => t

/-- A trap of the issuing instruction with zero `uaddr` and `uinfo` (spec/06 R159). -/
def State.fail (s : State) (cause : Nat) : Res := .trap (issueTrap cause s.me.pc 0 0)

/-- A trap of the issuing instruction with an address. -/
def State.failAt (s : State) (cause : Nat) (addr : Word) : Res := .trap (issueTrap cause s.me.pc addr 0)

/-- A trap at issue of an access whose checks have led to the state: page walks, and an uncorrectable error that they met (spec/20 R467), have happened. -/
def State.failSeen (s : State) (cause : Nat) (addr : Word) : Res := .gone (s.takeTrap (issueTrap cause s.me.pc addr 0))

/-- ISSUE of one instruction: the hazard check of R87 with cause 0x03, then its body. -/
def State.issue (s : State) (h : Hdr) (n : Needs) (body : State → Res) : Host.Outcome State Fault Refusal :=
  match s.me.hazard n with
  | some r => .next (s.takeTrap (issueTrap 0x03 s.me.pc 0 (BitVec.ofNat 64 r)))
  | none => .next (s.finish h (body s))

/-! ### Long-latency results (R86, R90) -/

/-- A result known at issue that will be written later: its register is pending until then, but `x0` never is (R63, R87). -/
def Agent.post (a : Agent) (isK : Bool) (reg : Nat) (i : Inflight) : Agent :=
  let a := { a with inflight := a.inflight ++ [{ i with isK := isK, reg := reg, order := a.order, pc := a.pc }] }
  if isK then { a with pendK := a.pendK ||| BitVec.ofNat 16 (2 ^ reg) }
  else { a with pendX := (a.pendX ||| BitVec.ofNat 32 (2 ^ reg)) &&& ~~~1 }

/-- A result whose value is known. -/
def Inflight.known (v : Key) : Inflight := ⟨false, 0, v, true, false, none, 0, 0, 0, 0, none, none⟩

/-- A result that waits for a dispatch-queue entry. -/
def Inflight.ofEntry (seq : Nat) : Inflight := ⟨false, 0, 0, false, false, none, 0, 0, 0, 0, some seq, none⟩

/-- A result that waits for a remote request. -/
def Inflight.ofReq (req : Nat) : Inflight := ⟨false, 0, 0, false, false, none, 0, 0, 0, 0, none, some req⟩

/-- A known result that fails with a cause (R90): `uaddr` holds the failed instruction's chain address, `uinfo` names the register. -/
def Inflight.failed (cause : Nat) (pc : Word) (info : Word) : Inflight :=
  { Inflight.known 0 with fail := some ⟨cause, 0, pc, info, false, 0⟩ }

/-- A long-latency `x` result; one addressed to `x0` is discarded (R63). -/
def State.postX (s : State) (r : Reg) (i : Inflight) : State :=
  if r = 0 && i.fail.isNone && i.req.isNone && i.entry.isNone && i.flags == 0 then s else s.upd fun a => a.post false r.toNat i

/-- Four free words as one free value of a register. -/
def freeKey (n : Nat) : Key :=
  (Config.freeWord (n + 3)).setWidth 256 <<< 192 ||| (Config.freeWord (n + 2)).setWidth 256 <<< 128
    ||| (Config.freeWord (n + 1)).setWidth 256 <<< 64 ||| (Config.freeWord n).setWidth 256

/-- A long-latency result that fails with a cause: its register becomes unpredictable, and the failure is taken at the point of R90. `info`
names the register as R87 does. -/
def State.postFailed (s : State) (isK : Bool) (reg : Nat) (cause : Nat) : State :=
  let info : Word := BitVec.ofNat 64 (bnat isK * 32 + reg)
  { s with fresh := s.fresh + 4 }.upd fun a => a.post isK reg { Inflight.failed cause a.pc info with val := freeKey s.fresh }

/-- A long-latency `k` result. -/
def State.postK (s : State) (r : Reg4) (i : Inflight) : State := s.upd fun a => a.post true r.toNat i

/-- The store values of a store of the agent whose turn it is (spec/06 R171). -/
def State.storeTag (s : State) (data : Word) : StoreTag := ⟨s.me.uid, s.me.loc, s.me.rid, s.me.tid, s.me.order, s.me.pc, data, false, 0, 0, 7, 0⟩

end Sys2Proof.Machine
end

