-- ==== Sys2Proof/Machine/Debug.lean ====
section
/-! DEFINITION. Sys2Proof/Machine/Debug.lean: debug stops of the scalar stream (spec/19 R445 to R447). -/

namespace Sys2Proof.Machine

/-- A debug stop of the agent whose turn it is, by the entries that match with `ACTION` 0: every other thread of the region stops too
where one has `ALL` set. -/
def State.debugStop (s : State) (es : List DebugEntry) (t : Trap) : State :=
  (if es.any DebugEntry.all then s.stopAll s.me else s).takeTrap t

/-- A scalar, key or page-6 scalar access of `n` bytes that has passed its checks (R446), matched by `RD` entries as a read and by `WR` entries as a write
or an atomic (R444): a matching type-2 entry stops the instruction
before the access, or writes a WATCH record; otherwise `k` makes the access. -/
def State.watched (s : State) (addr : Word) (n : Nat) (rd wr : Bool) (k : State → Res) : Res :=
  let es := (s.debugFor s.me).filter fun e => e.ty == 2 && ((rd && e.rd) || (wr && e.wr)) && e.hits addr.toNat n
  let stops := es.filter fun e => !e.watch
  let s := s.watches s.me addr 0 (es.filter DebugEntry.watch)
  if !stops.isEmpty then .gone (s.debugStop stops (issueTrap 0x20 s.me.pc addr 0)) else k s

/-- The code entries that match the chain at the program counter (R445). -/
def State.codeMatches (s : State) : List DebugEntry :=
  (s.debugFor s.me).filter fun e => e.ty == 1 && e.hits s.me.pc.toNat 1

/-- WATCH records of the code entries that match the chain, once for each time that it is reached (spec/19 R447). -/
def State.watchCode (s : State) : State :=
  if s.me.debugSkip then s
  else
    let es := s.codeMatches.filter DebugEntry.watch
    if es.isEmpty then s else (s.watches s.me s.me.pc 0 es).upd fun a => { a with debugSkip := true }

end Sys2Proof.Machine
end

