-- ==== Sys2Proof/Machine/Fp.lean ====
section
/-! DEFINITION. Sys2Proof/Machine/Fp.lean: the binary floating-point formats of spec/04 and rounding into them (R103 to R106,
R112, R114). A finite value is exact: a sign, a natural number and a power of two. -/

namespace Sys2Proof.Machine

/-- A format of R103: exponent bits, fraction bits, bias, and whether it has infinities. `top` is 0 for an IEEE format, 1 for E4M3 (one
NaN per sign in the top exponent) and 2 for E2M1 (no NaN). -/
structure Fmt where
  e    : Nat
  f    : Nat
  bias : Nat
  top  : Nat
  deriving DecidableEq, Repr

def Fmt.fp64 : Fmt := ⟨11, 52, 1023, 0⟩
def Fmt.fp32 : Fmt := ⟨8, 23, 127, 0⟩
def Fmt.bf16 : Fmt := ⟨8, 7, 127, 0⟩
def Fmt.fp16 : Fmt := ⟨5, 10, 15, 0⟩
def Fmt.e5m2 : Fmt := ⟨5, 2, 15, 0⟩
def Fmt.e4m3 : Fmt := ⟨4, 3, 7, 1⟩
def Fmt.e2m1 : Fmt := ⟨2, 1, 1, 2⟩

/-- The bits of a format. -/
def Fmt.bits (t : Fmt) : Nat := 1 + t.e + t.f

/-- A value: NaN, an infinity, or ± m × 2^e. -/
inductive Val where
  | nan (signalling : Bool)
  | inf (neg : Bool)
  | fin (neg : Bool) (m : Nat) (e : Int)
  deriving DecidableEq, Repr

/-- The value of a pattern (R103). -/
def Fmt.val (t : Fmt) (x : Nat) : Val :=
  let s := bit x (t.e + t.f)
  let ex := Machine.bits x t.f t.e
  let fr := Machine.bits x 0 t.f
  let topE := 2 ^ t.e - 1
  if ex = topE && t.top = 0 then (if fr = 0 then .inf s else .nan (!bit fr (t.f - 1)))
  else if ex = topE && t.top = 1 && fr = 2 ^ t.f - 1 then .nan false
  else if ex = 0 then .fin s fr (1 - (t.bias : Int) - t.f)
  else .fin s (2 ^ t.f + fr) ((ex : Int) - t.bias - t.f)

/-- The canonical NaN (R105). -/
def Fmt.nan (t : Fmt) : Nat :=
  if t.top = 0 then (2 ^ t.e - 1) * 2 ^ t.f + 2 ^ (t.f - 1) else 2 ^ (t.e + t.f) - 1

/-- The sign bit. -/
def Fmt.sign (t : Fmt) (neg : Bool) : Nat := if neg then 2 ^ (t.e + t.f) else 0

/-- An infinity. -/
def Fmt.infinity (t : Fmt) (neg : Bool) : Nat := t.sign neg + (2 ^ t.e - 1) * 2 ^ t.f

/-- The largest finite magnitude, as a pattern (R103). -/
def Fmt.maxPat (t : Fmt) : Nat :=
  match t.top with
  | 0 => (2 ^ t.e - 1) * 2 ^ t.f - 1
  | 1 => 2 ^ (t.e + t.f) - 2
  | _ => 2 ^ (t.e + t.f) - 1

/-- The exponent of the smallest normal. -/
def Fmt.emin (t : Fmt) : Int := 1 - (t.bias : Int)

/-! ### Flags (R114): NV 16, DZ 8, OF 4, UF 2, NX 1 -/

def flagNV : BitVec 5 := 16
def flagDZ : BitVec 5 := 8
def flagOF : BitVec 5 := 4
def flagUF : BitVec 5 := 2
def flagNX : BitVec 5 := 1

/-- A pattern with the flags its operation raises. -/
structure FpRes where
  bits : Nat
  flags : BitVec 5
  deriving DecidableEq, Repr

/-- Round `m` shifted right by `s` places by mode `rm` (R112; 101 rounds as RNE, R113): the quotient and whether it is inexact. -/
def roundShift (rm : Nat) (neg : Bool) (m s : Nat) : Nat × Bool :=
  let q := m / 2 ^ s
  let r := m % 2 ^ s
  if r = 0 then (q, false)
  else
    let half := 2 ^ (s - 1)
    let up : Bool :=
      match rm with
      | 1 => false
      | 2 => neg
      | 3 => !neg
      | 4 => decide (half ≤ r)
      | _ => decide (half < r) || (r == half && q % 2 == 1)
    (if up then q + 1 else q, true)

/-- `m` × 2^`e` as a whole number of units 2^`q`, rounded. -/
def roundAt (rm : Nat) (neg : Bool) (m : Nat) (e q : Int) : Nat × Bool :=
  if q ≤ e then (m * 2 ^ (e - q).toNat, false) else roundShift rm neg m (q - e).toNat

/-- The pattern of `m` × 2^`q`, which is a value of the format: `q` is the quantum of its binade. -/
def Fmt.pack (t : Fmt) (neg : Bool) (m : Nat) (q : Int) : Nat :=
  let l := m.log2
  if m < 2 ^ t.f then t.sign neg + m
  else t.sign neg + ((q + l + t.bias).toNat * 2 ^ t.f + (if l ≤ t.f then m * 2 ^ (t.f - l) else m / 2 ^ (l - t.f)) - 2 ^ t.f)

/-- Whether a magnitude `m` × 2^`q` is beyond the largest finite value. -/
def Fmt.over (t : Fmt) (m : Nat) (q : Int) : Bool :=
  match t.val t.maxPat with
  | .fin _ mm me => if q ≤ me then decide (mm * 2 ^ (me - q).toNat < m) else decide (mm < m * 2 ^ (q - me).toNat)
  | _ => false

/-- What an overflow gives (R112 step 3, R106, R109). -/
def Fmt.overflow (t : Fmt) (rm : Nat) (sp neg : Bool) : Nat :=
  let toMax : Bool := match rm with | 1 => true | 2 => !neg | 3 => neg | _ => false
  if toMax || t.top = 2 then t.sign neg + t.maxPat
  else if t.top = 1 then (if sp then t.sign neg + t.maxPat else t.nan)
  else t.infinity neg

/-- `round_to` (R112) of ± m × 2^e, with the flags of R114: tininess is judged after rounding with unbounded exponent range. -/
def Fmt.round (t : Fmt) (rm : Nat) (sp neg : Bool) (m : Nat) (e : Int) : FpRes :=
  if m = 0 then ⟨t.sign neg, 0⟩
  else
    let top : Int := e + m.log2
    let q := max top t.emin - t.f
    let r := roundAt rm neg m e q
    let u := roundAt rm neg m e (top - t.f)
    let tiny : Bool := decide (top < t.emin) && !(decide (u.1 = 2 ^ (t.f + 1)) && decide (top + 1 = t.emin))
    if t.over r.1 q then ⟨t.overflow rm sp neg, flagOF ||| flagNX⟩
    else ⟨t.pack neg r.1 q, (if r.2 then flagNX else 0) ||| (if r.2 && tiny then flagUF else 0)⟩

/-- The integer square root of `v`, bit by bit from bit `n` down. -/
def isqrtFrom (v : Nat) : Nat → Nat → Nat
  | 0, r => if (r + 1) * (r + 1) ≤ v then r + 1 else r
  | n + 1, r =>
    let c := r + 2 ^ (n + 1)
    isqrtFrom v n (if c * c ≤ v then c else r)

/-- The integer square root. -/
def isqrt (v : Nat) : Nat := isqrtFrom v (v.log2 / 2 + 1) 0

/-! ### Operations (R193, R178) -/

/-- The NV that signalling operands raise (R105). -/
def Val.snan : Val → Bool
  | .nan s => s
  | _ => false

def Val.isNan : Val → Bool
  | .nan _ => true
  | _ => false

/-- NV where any operand is a signalling NaN. -/
def nvOf (vs : List Val) : BitVec 5 := if vs.any Val.snan then flagNV else 0

/-- The sum of two exact signed values at a common exponent; an exact zero sum has the sign of IEEE 754 for the mode (R104). -/
def addExact (rm : Nat) (n1 : Bool) (m1 : Nat) (e1 : Int) (n2 : Bool) (m2 : Nat) (e2 : Int) : Bool × Nat × Int :=
  let e := min e1 e2
  let a : Int := (m1 * 2 ^ (e1 - e).toNat : Nat)
  let b : Int := (m2 * 2 ^ (e2 - e).toNat : Nat)
  let v := (if n1 then -a else a) + (if n2 then -b else b)
  if v = 0 then
    let neg : Bool := if m1 = 0 && m2 = 0 && n1 = n2 then n1 else rm == 2
    (neg, 0, e)
  else (decide (v < 0), v.natAbs, e)

/-- An invalid operation: the canonical NaN and NV. -/
def Fmt.invalid (t : Fmt) : FpRes := ⟨t.nan, flagNV⟩

/-- A NaN result, with the NV of signalling operands. -/
def Fmt.quiet (t : Fmt) (vs : List Val) : FpRes := ⟨t.nan, nvOf vs⟩

/-- Negation of a value. -/
def Val.neg : Val → Val
  | .nan s => .nan s
  | .inf n => .inf (!n)
  | .fin n m e => .fin (!n) m e

/-- a + b. -/
def Fmt.addV (t : Fmt) (rm : Nat) (sp : Bool) (a b : Val) : FpRes :=
  match a, b with
  | .nan _, _ => t.quiet [a, b]
  | _, .nan _ => t.quiet [a, b]
  | .inf n, .inf k => if n = k then ⟨t.infinity n, 0⟩ else t.invalid
  | .inf n, .fin _ _ _ => ⟨t.infinity n, 0⟩
  | .fin _ _ _, .inf k => ⟨t.infinity k, 0⟩
  | .fin n m e, .fin k l f =>
    let r := addExact rm n m e k l f
    t.round rm sp r.1 r.2.1 r.2.2

/-- a × b. -/
def Fmt.mulV (t : Fmt) (rm : Nat) (sp : Bool) (a b : Val) : FpRes :=
  match a, b with
  | .nan _, _ => t.quiet [a, b]
  | _, .nan _ => t.quiet [a, b]
  | .inf n, .inf k => ⟨t.infinity (n != k), 0⟩
  | .inf n, .fin k m _ => if m = 0 then t.invalid else ⟨t.infinity (n != k), 0⟩
  | .fin n m _, .inf k => if m = 0 then t.invalid else ⟨t.infinity (n != k), 0⟩
  | .fin n m e, .fin k l f => t.round rm sp (n != k) (m * l) (e + f)

/-- c + a × b with one rounding; 0 × ∞ raises NV even where the addend is a quiet NaN (R193). -/
def Fmt.fmaV (t : Fmt) (rm : Nat) (sp : Bool) (c a b : Val) : FpRes :=
  let bad : Bool := match a, b with
    | .inf _, .fin _ m _ => m == 0
    | .fin _ m _, .inf _ => m == 0
    | _, _ => false
  if bad then t.invalid
  else if a.isNan || b.isNan || c.isNan then t.quiet [a, b, c]
  else
    match a, b with
    | .fin n m e, .fin k l f =>
      match c with
      | .fin cn cm ce =>
        let r := addExact rm cn cm ce (n != k) (m * l) (e + f)
        t.round rm sp r.1 r.2.1 r.2.2
      | .inf cn => ⟨t.infinity cn, 0⟩
      | .nan _ => t.quiet [c]
    | _, _ =>
      let pn : Bool := (match a with | .inf n => n | .fin n _ _ => n | .nan _ => false)
        != (match b with | .inf n => n | .fin n _ _ => n | .nan _ => false)
      match c with
      | .inf cn => if cn = pn then ⟨t.infinity cn, 0⟩ else t.invalid
      | _ => ⟨t.infinity pn, 0⟩

/-- a / b: enough quotient bits, and one more that says whether a remainder is left. -/
def Fmt.divV (t : Fmt) (rm : Nat) (sp : Bool) (a b : Val) : FpRes :=
  match a, b with
  | .nan _, _ => t.quiet [a, b]
  | _, .nan _ => t.quiet [a, b]
  | .inf _, .inf _ => t.invalid
  | .inf n, .fin k _ _ => ⟨t.infinity (n != k), 0⟩
  | .fin n _ _, .inf k => ⟨t.sign (n != k), 0⟩
  | .fin n m e, .fin k l f =>
    if l = 0 then (if m = 0 then t.invalid else ⟨t.infinity (n != k), flagDZ⟩)
    else if m = 0 then ⟨t.sign (n != k), 0⟩
    else
      let s := t.f + 4 + l.log2
      let q := m * 2 ^ s / l
      let r := m * 2 ^ s % l
      t.round rm sp (n != k) (2 * q + (if r = 0 then 0 else 1)) (e - f - s - 1)

/-- √a. -/
def Fmt.sqrtV (t : Fmt) (rm : Nat) (sp : Bool) (a : Val) : FpRes :=
  match a with
  | .nan _ => t.quiet [a]
  | .inf n => if n then t.invalid else ⟨t.infinity false, 0⟩
  | .fin n m e =>
    if m = 0 then ⟨t.sign n, 0⟩
    else if n then t.invalid
    else
      let s0 := 2 * t.f + 8
      let s := if (e - s0) % 2 = 0 then s0 else s0 + 1
      let v := m * 2 ^ s
      let r := isqrt v
      t.round rm sp false (2 * r + (if r * r = v then 0 else 1)) ((e - s) / 2 - 1)

/-- Compare two values that are not NaN: −1, 0 or 1; −0 equals +0. -/
def cmpVal (a b : Val) : Int :=
  match a, b with
  | .inf n, .inf k => if n = k then 0 else if n then -1 else 1
  | .inf n, _ => if n then -1 else 1
  | _, .inf k => if k then 1 else -1
  | .fin n m e, .fin k l f =>
    let q := min e f
    let x : Int := (m * 2 ^ (e - q).toNat : Nat)
    let y : Int := (l * 2 ^ (f - q).toNat : Nat)
    let x := if n then -x else x
    let y := if k then -y else y
    if x < y then -1 else if x = y then 0 else 1
  | _, _ => 0

/-- Whether a value has its sign bit set. -/
def Val.isNeg : Val → Bool
  | .nan _ => false
  | .inf n => n
  | .fin n _ _ => n

/-- The lesser, or with `gt` the greater, of two patterns (R194): −0 is less than +0, one NaN gives the other operand, two give the
canonical NaN, and a signalling NaN raises NV. -/
def Fmt.minMax (t : Fmt) (gt : Bool) (x y : Nat) : FpRes :=
  let a := t.val x
  let b := t.val y
  let fl := nvOf [a, b]
  if a.isNan && b.isNan then ⟨t.nan, fl⟩
  else if a.isNan then ⟨y, fl⟩
  else if b.isNan then ⟨x, fl⟩
  else
    let c := cmpVal a b
    let less : Bool := decide (c < 0) || (c == 0 && a.isNeg && !b.isNeg)
    ⟨if less != gt then x else y, fl⟩

/-! ### 2^x (R195) -/

/-- The fraction bits kept of 2^x before rounding. -/
def expBits : Nat := 320

/-- The product of 2^(2^−i) over the set bits of a fraction, most significant bit first, each factor the square root of the one before,
all with `expBits` fraction bits: `n` bits from bit `k` of `fr` downwards. -/
def expFrac (fr : Nat) : Nat → Nat → Nat → Nat
  | 0, _, acc => acc
  | k + 1, root, acc =>
    let root := isqrt (root * 2 ^ expBits)
    expFrac fr k root (if fr.testBit k then acc * root / 2 ^ expBits else acc)

/-- 2^x correctly rounded; an integer x gives a power of two, and every other finite x an irrational number, so that its truncation with
one more bit set rounds as the number does. -/
def Fmt.exp2V (t : Fmt) (rm : Nat) (sp : Bool) (a : Val) : FpRes :=
  match a with
  | .nan _ => t.quiet [a]
  | .inf n => ⟨if n then 0 else t.infinity false, 0⟩
  | .fin n m e =>
    if m = 0 then t.round rm sp false 1 0
    else if 14 < e + m.log2 then t.round rm sp false 1 (if n then -(2 ^ 15 : Int) else 2 ^ 15)
    else if e + m.log2 < -((t.f : Int) + 6) then
      (if n then t.round rm sp false (2 ^ (t.f + 8) - 1) (-((t.f : Int) + 8)) else t.round rm sp false (2 ^ (t.f + 8) + 1) (-((t.f : Int) + 8)))
    else if 0 ≤ e then
      let v : Int := (m * 2 ^ e.toNat : Nat)
      t.round rm sp false 1 (if n then -v else v)
    else
      let k := (-e).toNat
      let v : Int := if n then -(m : Int) else m
      let ip : Int := v / (2 : Int) ^ k
      let fr := (v % (2 : Int) ^ k).toNat
      if fr = 0 then t.round rm sp false 1 ip
      else
        let r := expFrac fr k (2 * 2 ^ expBits) (2 ^ expBits)
        t.round rm sp false (2 * r + 1) (ip - expBits - 1)

/-! ### Classes (R205) -/

/-- The one-hot class of a pattern. -/
def Fmt.classOf (t : Fmt) (x : Nat) : Nat :=
  match t.val x with
  | .nan s => if s then 2 ^ 8 else 2 ^ 9
  | .inf n => if n then 1 else 2 ^ 7
  | .fin n m _ =>
    if m = 0 then (if n then 2 ^ 3 else 2 ^ 4)
    else if m < 2 ^ t.f then (if n then 2 ^ 2 else 2 ^ 5)
    else if n then 2 ^ 1 else 2 ^ 6

/-! ### Conversions (R117) -/

/-- From one format's value into another format. -/
def Fmt.convV (t : Fmt) (rm : Nat) (sp : Bool) (a : Val) : FpRes :=
  match a with
  | .nan _ => t.quiet [a]
  | .inf n => if t.top = 0 then ⟨t.infinity n, 0⟩ else ⟨t.overflow 0 sp n, flagOF ||| flagNX⟩
  | .fin n m e => t.round rm sp n m e

/-- From a value to an integer of `w` bits: rounded by mode, the nearest bound beyond the range with NV, NaN to 0 with NV. -/
def toIntV (w rm : Nat) (a : Val) : Int × BitVec 5 :=
  let hi : Int := (2 : Int) ^ (w - 1) - 1
  let lo : Int := -(2 : Int) ^ (w - 1)
  match a with
  | .nan _ => (0, flagNV)
  | .inf n => (if n then lo else hi, flagNV)
  | .fin n m e =>
    if 80 < e + m.log2 then (if m = 0 then (0, 0) else (if n then lo else hi, flagNV))
    else
      let r := roundAt rm n m e 0
      let v : Int := if n then -(r.1 : Int) else r.1
      if v < lo then (lo, flagNV) else if hi < v then (hi, flagNV) else (v, if r.2 then flagNX else 0)

/-- From an integer into a format. -/
def Fmt.ofInt (t : Fmt) (rm : Nat) (sp : Bool) (v : Int) : FpRes := t.round rm sp (decide (v < 0)) v.natAbs 0

/-- Saturate to the range of `w` bits, signed (R110). -/
def saturate (w : Nat) (v : Int) : Int := max (-(2 : Int) ^ (w - 1)) (min ((2 : Int) ^ (w - 1) - 1) v)

/-- The format of a code of R101, if it is one of the six floating-point formats. -/
def fmtOf (c : Nat) : Fmt :=
  match c with
  | 0 => .fp32 | 1 => .bf16 | 2 => .fp16 | 3 => .e4m3 | 4 => .e5m2 | _ => .fp64

/-- The element bits of a format code (R101), as it stands in a register element: MX and TERN codes one to a byte (R119). -/
def codeBits (c : Nat) : Nat :=
  match c with
  | 0 => 32 | 1 => 16 | 2 => 16 | 3 => 8 | 4 => 8 | 5 => 8 | 6 => 8 | 7 => 8 | 8 => 32 | 9 => 8 | 10 => 64 | 11 => 16 | _ => 8

/-- A code that names an integer format: INT8, INT32, INT16. -/
def codeInt (c : Nat) : Bool := c == 7 || c == 8 || c == 11

/-- One conversion between two codes that are not MX (R116, R117, R111). -/
def convert (src dst rm : Nat) (sp : Bool) (x : Nat) : FpRes :=
  if src = 9 then
    let v : Int := match x % 4 with | 1 => 1 | 3 => -1 | _ => 0
    ⟨umod (codeBits dst) v, if x % 4 = 2 then flagNV else 0⟩
  else if codeInt src then
    let v := sval (codeBits src) x
    if dst = 9 then ⟨if v < 0 then 3 else if v = 0 then 0 else 1, 0⟩
    else if codeInt dst then ⟨umod (codeBits dst) (saturate (codeBits dst) v), 0⟩
    else (fmtOf dst).ofInt rm sp v
  else
    let a := (fmtOf src).val (x % 2 ^ codeBits src)
    if codeInt dst then
      let r := toIntV (codeBits dst) rm a
      ⟨umod (codeBits dst) r.1, r.2⟩
    else (fmtOf dst).convV rm sp a

end Sys2Proof.Machine
end

