-- ==== Sys2Proof/Machine/Operands.lean ====
section
/-! DEFINITION. Sys2Proof/Machine/Operands.lean: the operand forms of the scalar classes (spec/03 R72, R76, R78, spec/06 R161,
R168). -/

namespace Sys2Proof.Machine

/-- The value of a register-or-immediate operand. -/
def State.val (s : State) : RegImm → Word
  | .reg r => s.x r
  | .imm i => i.word

/-- The register it reads, if any. -/
def RegImm.regs : RegImm → List Reg
  | .reg r => [r]
  | .imm _ => []

/-- The register that an optional EXT names, or `d` without one: the first source of RRI and FRR (R161, R179). -/
def firstReg (e : Option Ext) (d : Reg) : Reg :=
  match e with
  | some x => x.c
  | none => d

/-- The registers of an ADR address (R168): xB or none, and xC with EXT. -/
def ADR.regs (o : ADR) : List Reg :=
  RegImm.regs o.t ++ (match o.ext with | some e => [e.c] | none => [])

/-- The address of an ADR operand: (imm ? i : xB) + (EXT ? xC : 0) modulo 2^64 (R168). -/
def State.addr (s : State) (o : ADR) : Word :=
  s.val o.t + (match o.ext with | some e => s.x e.c | none => 0)

/-- The bytes of a scalar memory width (R78). -/
def scalarBytes (w : BitVec 3) : Nat :=
  match w.toNat with
  | 0 => 4 | 1 => 2 | 2 => 1 | 3 => 8 | 4 => 4 | 5 => 2 | _ => 1

/-- A loaded value extended as its width states (R78). -/
def scalarExtend (w : BitVec 3) (v : Nat) : Word :=
  match w.toNat with
  | 0 => sext 32 v
  | 1 => sext 16 v
  | 2 => sext 8 v
  | _ => BitVec.ofNat 64 v

/-- Bits of an FP operand: FP32 in the low half, FP64 whole (spec/06 R178). -/
def fpBits (w : BitVec 3) (x : Word) : Nat := if w = 3 then x.toNat else x.toNat % 2 ^ 32

/-- The format of a scalar FP width: 000 FP32, 011 FP64. -/
def fpFmt (w : BitVec 3) : Fmt := if w = 3 then .fp64 else .fp32

end Sys2Proof.Machine
end

