-- ==== Sys2Proof/Machine/Flow.lean ====
section
/-! DEFINITION. Sys2Proof/Machine/Flow.lean: branches, jumps, fences and deliberate traps (spec/06 R172 to R175, R185, R186). -/

namespace Sys2Proof.Machine

/-- The target of a branch or `jal`: the chain address plus 2 × i (R172, R173). -/
def State.target (s : State) (off : List Byte) : Word := s.me.pc + BitVec.ofInt 64 (2 * branchOffset off)

/-- A branch on a condition of x[A] and x[B] (R172). -/
def branch (cond : Word → Word → Bool) (h : Hdr) (o : BR) (s : State) : Host.Outcome State Fault Refusal :=
  s.issue h { xr := [o.a, o.b] } fun s => if cond (s.x o.a) (s.x o.b) then .goto s (s.target o.off) else .ok s

def execBeq (h : Hdr) (o : BR) (s : State) := branch (fun a b => a == b) h o s
def execBne (h : Hdr) (o : BR) (s : State) := branch (fun a b => a != b) h o s
def execBlt (h : Hdr) (o : BR) (s : State) := branch (fun a b => a.slt b) h o s
def execBge (h : Hdr) (o : BR) (s : State) := branch (fun a b => !a.slt b) h o s
def execBltu (h : Hdr) (o : BR) (s : State) := branch (fun a b => a.ult b) h o s
def execBgeu (h : Hdr) (o : BR) (s : State) := branch (fun a b => !a.ult b) h o s

/-- `jal` (R173). -/
def execJal (h : Hdr) (o : JL) (s : State) : Host.Outcome State Fault Refusal :=
  s.issue h { xw := [o.a] } fun s => .goto (s.setX o.a (s.nextPc h)) (s.target o.off)

/-- `jalr` (R174): the target is computed before xA is written; bit 0 set raises 0x04 with the target in `uaddr`. -/
def execJalr (h : Hdr) (o : ADR) (s : State) : Host.Outcome State Fault Refusal :=
  s.issue h { xr := ADR.regs o, xw := [o.a] } fun s =>
    let t := s.addr o
    if t.getLsbD 0 then s.failAt 0x04 t else .goto (s.setX o.a (s.nextPc h)) t

/-! ### Fences (R150, R175) -/

/-- Every dispatch-queue entry has made its accesses (R143). -/
def Agent.streamDone (a : Agent) : Bool := a.queue.isEmpty

/-- Every dispatch-queue entry issued since the last user trap has completed in every cluster (spec/15 R371). -/
def Agent.userDone (a : Agent) : Bool := a.queue.all fun e => decide (e.seq < a.userSeq)

/-- Every read and atomic of both streams has returned (R150). -/
def Agent.readsBack (a : Agent) : Bool := a.inflight.all fun i => i.ready || i.entry.isSome

/-- Every remote write, atomic and send of an agent has been acknowledged (R150). -/
def State.remotesAcked (s : State) (uid : Nat) : Bool :=
  (s.reqs.all fun r => match r.use with
    | .result u _ _ _ => u != uid
    | .addn u _ _ => u != uid
    | .probe u _ => u != uid
    | .store t => t.uid != uid
    | .element u _ _ _ => u != uid
    | .message m _ => m.uid != uid
    | .unit _ => true
    | .notice _ => true
    | .dropped => true)
  && s.sendq.all fun q => q.uid != uid || q.sent

/-- The remote writes and atomics of the threads of a module among the first `n` requests have been acknowledged: a release of scope 4 is cumulative, and
which of them happen before it is not seen (R150; log entry 61). -/
def State.writesAcked (s : State) (mod n : Nat) : Bool :=
  s.reqs.all fun r => r.loc.mod != mod || decide (n ≤ r.req) || !(r.pkt.op == 2 || r.pkt.op == 3) || match r.use with
    | .unit _ => true
    | .dropped => true
    | _ => false

/-- The conditions of a fence of kind `kind` and scope `sc`, but for the write-backs that complete with it. -/
def State.fenceReady (s : State) (a : Agent) (kind sc : Nat) : Bool :=
  a.streamDone && (kind == 2 || a.readsBack) && (kind == 1 || sc < 4 ||
    (s.remotesAcked a.uid && s.writesAcked a.loc.mod (if a.life = .fencing then a.fenceAt else s.nextReq)))

/-- What a fence of the agent makes happen (R150): the release first, by whose completion the failures of its stores are reported
(R171), then the acquire. -/
def State.fenceEffect (s : State) (uid : Nat) (loc : Loc) (kind sc : Nat) : State :=
  let s := if kind == 1 then s else (s.release loc sc).deliverAll uid
  if kind == 2 then s else s.acquire loc sc

/-- `fence` (R175): where its conditions hold the thread goes on at once; otherwise it issues nothing more until they do (FENCE_COMPLETE). A
stop of the stream meanwhile leaves the program counter at the fence. -/
def execFence (h : Hdr) (o : FEN) (s : State) : Host.Outcome State Fault Refusal :=
  s.issue h {} fun s =>
    let sc := (extSel o.ext).toNat
    if s.fenceReady s.me o.kind.toNat sc then .ok (s.fenceEffect s.me.uid s.me.loc o.kind.toNat sc)
    else .hold (s.upd fun a => { a with life := .fencing, fenceAt := s.nextReq })

/-! ### Deliberate traps (R185, R186) -/

/-- `brk`: cause 0x1B, or the debug stop 0x20 while a debug table is bound to the region (spec/19 R445). -/
def execBrk (h : Hdr) (o : COD) (s : State) : Host.Outcome State Fault Refusal :=
  s.issue h {} fun s =>
    .trap ⟨if s.debugBound s.me then 0x20 else 0x1B, s.me.pc, s.nextPc h, BitVec.ofNat 64 o.i.nat, false, 0⟩

/-- `ecall`: cause 0x1C. -/
def execEcall (h : Hdr) (o : COD) (s : State) : Host.Outcome State Fault Refusal :=
  s.issue h {} fun s => .trap ⟨0x1C, s.me.pc, s.nextPc h, BitVec.ofNat 64 o.i.nat, false, 0⟩

/-- `udf`: cause 0x01 whatever its fields (R186). -/
def execUdf (_c : Chain) (s : State) : Host.Outcome State Fault Refusal :=
  .next (s.takeTrap (issueTrap 0x01 s.me.pc 0 0))

/-- FENCE_COMPLETE: the conditions of the fence at which the agent `n` waits have come to hold, and it goes on. -/
def execFenceComplete (n : Nat) (s : State) : Host.Outcome State Fault Refusal :=
  match s.agent? n with
  | some a =>
    if a.life = .fencing then
      match parseChain a.ir with
      | .error _ => .next s
      | .ok c =>
        match c.asFEN with
        | none => .next s
        | some o =>
          let sc := (extSel o.ext).toNat
          if s.fenceReady a o.kind.toNat sc then
            let s := s.fenceEffect n a.loc o.kind.toNat sc
            .next (s.updAgent n fun a =>
              { a with pc := a.pc + BitVec.ofNat 64 (2 * c.len), life := .ready }.retireChain c.wait)
          else .next s
    else .next s
  | none => .next s

end Sys2Proof.Machine
end

