-- ==== Sys2Proof/Machine/Flags.lean ====
section
/-! DEFINITION. Sys2Proof/Machine/Flags.lean: the sticky flags of `fpcsr` and floating-point traps (spec/03 R67, spec/04 R113 to R115).
A write of `fpcsr` begins a new era: flags of entries issued in an earlier era are overwritten by the value it wrote. -/

namespace Sys2Proof.Machine

/-- The rounding mode of scalar and vector instructions: mode 101 rounds by RNE (R113). -/
def effRm (rm : BitVec 3) : Nat := if rm = 5 then 0 else rm.toNat

/-- OR flags of era `era` into `fpcsr`, and into every `mfcr` of `fpcsr` issued after sequence number `seq` in the same era that has
still to complete. -/
def Agent.raiseFlags (a : Agent) (era seq : Nat) (fl : BitVec 5) : Agent :=
  let upd (e : Entry) : Entry :=
    if e.era = era && decide (seq < e.seq) then { e with aux := e.aux ||| fl.toNat } else e
  { a with fpflags := if era = a.fpera then a.fpflags ||| fl else a.fpflags,
           queue := a.queue.map fun e => match e.instr with | .mfcrStream _ o => if o.i.nat = 6 then upd e else e | _ => e }

/-- OR flags of a scalar instruction into `fpcsr` (R114). -/
def State.raiseFlags (s : State) (fl : BitVec 5) : State := s.upd fun a => { a with fpflags := a.fpflags ||| fl }

/-- The flags among `fl` whose traps are enabled (R115). -/
def enabledFlags (en fl : BitVec 5) : BitVec 5 := en &&& fl

/-- `uinfo` of a floating-point trap: the element index in [63:32] and the enabled flags in [4:0] (R115). -/
def fpInfo (elem : Nat) (fl : BitVec 5) : Word := BitVec.ofNat 64 (elem * 2 ^ 32 + fl.toNat)

/-- The end of a scalar floating-point instruction: cause 0x15 where an enabled flag would be raised, with no register changed and no flag
raised; otherwise the flags and the result (R115, R178). -/
def State.fpDone (s : State) (fl : BitVec 5) (t : State → State) : Res :=
  let e := enabledFlags s.me.fpen fl
  if e != 0 then .trap (issueTrap 0x15 s.me.pc 0 (fpInfo 0 e)) else .ok (t (s.raiseFlags fl))

/-- The end of `fdiv` or `fsqrt`, whose flags are decided when the result is produced (spec/06 R180): an enabled flag keeps the destination,
raises nothing and is reported as a failed result. -/
def State.fpLater (s : State) (rd : Reg) (r : FpRes) : Res :=
  let e := enabledFlags s.me.fpen r.flags
  let base := Inflight.known (BitVec.ofNat 256 r.bits)
  if e != 0 then
    .ok (s.postX rd { base with keep := true, fail := some ⟨0x15, 0, s.me.pc, fpInfo 0 e, false, 0⟩ })
  else .ok (s.postX rd { base with flags := r.flags, era := s.me.fpera })

end Sys2Proof.Machine
end

