-- ==== Sys2Proof/Machine/Stream.lean ====
section
/-! DEFINITION. Sys2Proof/Machine/Stream.lean: the dispatch queue (spec/02 R39): how an instruction becomes an entry of it. -/

namespace Sys2Proof.Machine

/-- An entry of the agent whose turn it is, with its captured operands (R39, spec/03 R67): the chain's program counter and halfwords come
from the latch of the fetch. -/
def State.newEntry (s : State) (i : Instr) (xs : List Word) (key : Key) : Entry where
  seq := s.me.nextSeq
  order := s.me.order
  pc := s.me.pc
  halfs := s.me.ir
  instr := i
  xs := xs
  key := key
  rm := s.me.fprm
  sp := s.me.fpsp
  en := s.me.fpen
  slip := s.me.slip
  era := s.me.fpera
  passed := false
  redo := false
  stepped := false
  vl := 0
  n := 0
  mask := 0
  lanes := []
  tok := 0
  aux := 0
  src := none

/-- The dispatch queue is full (R39). -/
def Agent.queueFull (a : Agent) : Bool := decide (64 ≤ a.queue.length)

/-- An entry joins the queue. -/
def Agent.enqueued (a : Agent) (e : Entry) : Agent := { a with queue := a.queue ++ [e], nextSeq := a.nextSeq + 1 }

/-- An instruction takes an entry, or waits to issue while the queue is full (R39). -/
def State.dispatch (s : State) (e : Entry) (k : State → State) : Res :=
  if s.me.queueFull then .hold s else .ok (k (s.upd fun a => a.enqueued e))

/-- A vector instruction: 0x01 in a class-0 thread (R37), then issue with its captured scalar operands. -/
def vissue (i : Instr) (h : Hdr) (n : Needs) (xs : State → List Word) (s : State) : Host.Outcome State Fault Refusal :=
  if s.me.cls = 0 then .next (s.takeTrap (issueTrap 0x01 s.me.pc 0 0))
  else s.issue h n fun s => s.dispatch (s.newEntry i (xs s) 0) id

end Sys2Proof.Machine
end

