-- ==== Sys2Proof/Machine/Control.lean ====
section
/-! DEFINITION. Sys2Proof/Machine/Control.lean: control registers and time (spec/03 R65 to R67, spec/06 R182 to R184) and the
counters (spec/19 R442). -/

namespace Sys2Proof.Machine

/-! ### Counters 0x070 to 0x07F (spec/19 R442) -/

/-- The lines of a slice of the reader's die: of every class, of other classes, of the reader's class. -/
def State.sliceCounter (s : State) (l : Loc) (cls slice : Nat) : Word :=
  let here := s.l2.filter fun e => e.ep == l.mod && e.die == l.die && e.slice == slice
  let mine := countIf (fun e : L2Line => e.cls == cls) here
  BitVec.ofNat 64 (here.length * 2 ^ 48 + (here.length - mine) * 2 ^ 16 + mine)

/-- A counter as an agent reads it. -/
def State.counterWord (s : State) (a : Agent) (n : Nat) : Word :=
  let l := a.loc
  let cls := ((s.region? l.mod a.rid).map Region.pclass).getD 0
  let look (q : List (Nat × Nat)) : Nat := ((q.find? fun e => e.1 == a.rid).map Prod.snd).getD 0
  if n < 0x76 then s.sliceCounter l cls (6 * l.core + (n - 0x70))
  else if n = 0x76 then
    BitVec.ofNat 64 (countIf (fun c : Counted => c.ep == l.mod && c.rid == a.rid && s.homeDie c.line == l.die) s.counted * 2 ^ 32
      + countIf (fun e : L2Line => e.ep == l.mod && e.die == l.die && e.cls == cls) s.l2)
  else if n = 0x77 then BitVec.ofNat 64 (a.issued + 1)
  else if n = 0x78 then BitVec.ofNat 64 a.retired
  else if n = 0x79 then BitVec.ofNat 64 (look (s.core l).kgroups)
  else if n = 0x7A then
    BitVec.ofNat 64 (((s.fills.find? fun q => q.1 == l.mod && q.2.1 == l.die && q.2.2.1 == cls).map fun q => q.2.2.2).getD 0)
  else if n = 0x7B then BitVec.ofNat 64 (((s.outHits.find? fun q => q.1 == l).map Prod.snd).getD 0)
  else if n = 0x7C then BitVec.ofNat 64 (look (s.core l).energy)
  else if n = 0x7D then BitVec.ofNat 64 (((s.tbuf? l.mod l.die a.rid).map TraceBuf.lost).getD 0)
  else if n = 0x7E then s.meridianStatus l.mod
  else
    let d := s.die l.mod l.die
    BitVec.ofNat 64 (bnat d.throttle * 2 ^ 9 + bnat d.limited * 2 ^ 8 + d.platCeil % 16 * 2 ^ 4 + s.pstate l % 16)

/-- The energy that a region has been charged on all dies of its module. -/
def State.regionEnergy (s : State) (mod rid : Nat) : Nat :=
  ((s.cores.filter fun c => c.loc.mod == mod).map fun c => ((c.energy.filter fun q => q.1 == rid).map Prod.snd).sum).sum

/-- A counter of a region as a reader sees it that is neither the region nor a confidential ancestor of it, on whatever core of the module: for a
confidential region, zero from 0x070 to 0x07B, and 0x07C as its total over all dies (spec/20 R459). -/
def State.counterOutside (s : State) (a : Agent) (n : Nat) : Word :=
  if !s.confidential a.loc.mod a.rid then s.counterWord a n
  else if 0x70 ≤ n && n ≤ 0x7B then 0
  else if n = 0x7C then BitVec.ofNat 64 (s.regionEnergy a.loc.mod a.rid)
  else s.counterWord a n

/-! ### Reading (R182) -/

/-- The registers whose value `mfcr` writes at once; reserved fields read as zero. -/
def State.crWord (s : State) (n : Nat) : Word :=
  let a := s.me
  match n with
  | 0x001 => BitVec.ofNat 64 (classMvl a.cls)
  | 0x002 => a.vclassWord
  | 0x004 => BitVec.ofNat 64 a.slip
  | 0x010 => a.sattr
  | 0x011 => a.sshape
  | 0x012 => a.slaunch
  | 0x013 => a.safter
  | 0x020 => a.mcfgv
  | 0x021 => a.msbase
  | 0x022 => a.mgang.setWidth 64
  | 0x030 => a.utvec
  | 0x031 => a.ucause
  | 0x032 => a.uepc
  | 0x033 => a.uaddr
  | 0x034 => a.uinfo
  | 0x040 => a.tidWord
  | 0x041 => ({ a.loc with mod := if (s.module? a.loc.mod).any ModuleState.up then a.loc.mod else 0 } : Loc).coreid
  | 0x042 => BitVec.ofNat 64 a.rid
  | 0x043 => BitVec.ofNat 64 s.myHolder
  | 0x050 => BitVec.ofNat 64 a.gangto
  | 0x060 => BitVec.ofNat 64 (s.cycle a.loc)
  | 0x061 => BitVec.ofNat 64 (s.meridian a.loc.mod)
  | _ => 0

/-- The stream registers as they stand now. -/
def Agent.streamWord (a : Agent) (n : Nat) : Word :=
  match n with
  | 0 => BitVec.ofNat 64 a.vl
  | 3 => vfmcWord a.vfmcCount a.vfmcCause
  | 5 => a.efc.setWidth 64
  | _ => fpcsrWord a.fpsp a.fpen a.fpflags a.fprm

/-- The region of the agent whose turn it is holds the observe right (R66). -/
def State.observes (s : State) : Bool := (s.myRegion.map Region.observe).getD false

/-- `mfcr` of a register that is not read in stream order (R182): a counter needs the observe right (0x06) and is long-latency; a number
that R65 does not list raises 0x01. -/
def execMfcr (h : Hdr) (o : CRN) (s : State) : Host.Outcome State Fault Refusal :=
  s.issue h { xw := [o.a] } fun s =>
    let n := o.i.nat
    if !crListed n then s.fail 0x01
    else if 0x70 ≤ n then
      if s.observes then .ok (s.postX o.a (Inflight.known ((s.counterWord s.me n).setWidth 256))) else s.fail 0x06
    else .ok (s.setX o.a (s.crWord n))

/-- `mfcr` of `vl`, `vfmc`, `efc` or `fpcsr` (R67): an entry whose value comes at its own position in the stream; none in a class-0
thread. The entry of `fpcsr` gathers the flags from those of its issue on. -/
def execMfcrStream (h : Hdr) (o : CRN) (s : State) : Host.Outcome State Fault Refusal :=
  s.issue h { xw := [o.a] } fun s =>
    let n := o.i.nat
    if s.me.cls = 0 then .ok (s.postX o.a (Inflight.known ((s.me.streamWord n).setWidth 256)))
    else
      let seq := s.me.nextSeq
      s.dispatch { s.newEntry (.mfcrStream h o) [] 0 with aux := s.me.fpflags.toNat } fun s => s.postX o.a (Inflight.ofEntry seq)

/-! ### Writing (R183) -/

/-- Write a control register that has no rule of its own, or nothing for a read-only one. -/
def Agent.writeCr (a : Agent) (n : Nat) (v : Word) : Option Agent :=
  match n with
  | 0x011 => some { a with sshape := v }
  | 0x012 => some { a with slaunch := v }
  | 0x013 => some { a with safter := v }
  | 0x030 => some { a with utvec := v &&& ~~~1 }
  | 0x031 => some { a with ucause := v &&& 0xFF }
  | 0x032 => some { a with uepc := v &&& ~~~1 }
  | 0x033 => some { a with uaddr := v }
  | 0x034 => some { a with uinfo := v }
  | _ => none

/-- An `mtcr` whose body needs the value read (R183). -/
def mtcr (h : Hdr) (o : CRN) (f : State → Word → Res) (s : State) : Host.Outcome State Fault Refusal :=
  s.issue h { xr := [o.a] } fun s => f s (s.x o.a)

/-- `mtcr`: a read-only register raises 0x01 (R183). -/
def execMtcr (h : Hdr) (o : CRN) (s : State) : Host.Outcome State Fault Refusal :=
  mtcr h o (fun s v => match s.me.writeCr o.i.nat v with
    | some a => .ok { s with me := a }
    | none => s.fail 0x01) s

/-- `mtcr vl` and `mtcr efc`: one dispatch-queue entry; 0x01 in a class-0 thread (R183). -/
def mtcrStream (i : Instr) (h : Hdr) (o : CRN) (s : State) : Host.Outcome State Fault Refusal :=
  mtcr h o (fun s v => if s.me.cls = 0 then s.fail 0x01 else s.dispatch (s.newEntry i [v] 0) id) s

def execMtcrVl (h : Hdr) (o : CRN) (s : State) := mtcrStream (.mtcrVl h o) h o s
def execMtcrEfc (h : Hdr) (o : CRN) (s : State) := mtcrStream (.mtcrEfc h o) h o s

/-- `mtcr fpcsr` (R67, R113): modes 110 and 111 raise 0x01; the write begins a new era of the sticky flags. -/
def execMtcrFpcsr (h : Hdr) (o : CRN) (s : State) : Host.Outcome State Fault Refusal :=
  mtcr h o (fun s v =>
    if bits v.toNat 0 3 = 6 ∨ bits v.toNat 0 3 = 7 then s.fail 0x01
    else .ok (s.upd fun a => { a with fprm := BitVec.ofNat 3 (bits v.toNat 0 3), fpflags := BitVec.ofNat 5 (bits v.toNat 3 5),
                                      fpen := BitVec.ofNat 5 (bits v.toNat 8 5), fpsp := bit v.toNat 13, fpera := a.fpera + 1 })) s

/-- `mtcr slip` (R40): 33 to 63 are stored as 32. -/
def execMtcrSlip (h : Hdr) (o : CRN) (s : State) : Host.Outcome State Fault Refusal :=
  mtcr h o (fun s v => .ok (s.upd fun a => { a with slip := min 32 (bits v.toNat 0 6) })) s

/-- `mtcr sattr` (spec/10 R267): 0x01 if a bit of [63:33] is set. -/
def execMtcrSattr (h : Hdr) (o : CRN) (s : State) : Host.Outcome State Fault Refusal :=
  mtcr h o (fun s v => if bits v.toNat 33 31 != 0 then s.fail 0x01 else .ok (s.upd fun a => { a with sattr := v })) s

/-- `mtcr gangto` (spec/09 R240): below 1,024 is stored as 1,024. -/
def execMtcrGangto (h : Hdr) (o : CRN) (s : State) : Host.Outcome State Fault Refusal :=
  mtcr h o (fun s v => .ok (s.upd fun a => { a with gangto := max 1024 (bits v.toNat 0 32) })) s

/-- `rdtime` (R184). -/
def execRdtime (h : Hdr) (o : LI) (s : State) : Host.Outcome State Fault Refusal :=
  s.issue h { xw := [o.a] } fun s =>
    if o.i.int = 0 then .ok (s.setX o.a (BitVec.ofNat 64 (s.cycle s.me.loc)))
    else if o.i.int = 1 then .ok (s.setX o.a (BitVec.ofNat 64 (s.meridian s.me.loc.mod)))
    else s.fail 0x01

end Sys2Proof.Machine
end

