-- ==== Sys2Proof/Machine/ScalarMem.lean ====
section
/-! DEFINITION. Sys2Proof/Machine/ScalarMem.lean: scalar loads, stores and atomics (spec/06 R168 to R171, R176, R177). -/

namespace Sys2Proof.Machine

/-- The checks of R169 at issue, in their order: alignment to `n` (0x04), translation and permission (0x05, 0x06), and then the debug
table; `k` continues with the physical address and the way to it. -/
def State.accessAt (s : State) (addr : Word) (n : Nat) (acc : Acc) (rd wr : Bool) (k : Nat → Via → State → Res) : Res :=
  if addr.toNat % n != 0 then s.failAt 0x04 addr
  else match s.translate s.mySpace addr.toNat acc with
    | (.error c, t) => t.failSeen c addr
    | (.ok (pa, v), t) => t.watched addr n rd wr (k pa v)

/-- `n` bytes read for a long-latency result: the bytes as a number, or the failure of a read that meets poisoned data (R90). -/
def State.loadTo (s : State) (v : Via) (pa n : Nat) (bad : State → State) (good : Nat → State → State) : State :=
  if s.readBad v pa then bad (s.foundError v.loc (s.poisonUnit v.loc.mod (pa / 128)) pa)
  else
    let r := s.readLine v pa n
    good (bytesNat r.1) r.2

/-- `ld` (R169). -/
def execLd (h : Hdr) (o : ADR) (s : State) : Host.Outcome State Fault Refusal :=
  s.issue h { xr := ADR.regs o, xw := [o.a] } fun s =>
    let w := extSel o.ext
    let n := scalarBytes w
    s.accessAt (s.addr o) n .read true false fun pa v s =>
      .ok (s.loadTo v pa n (fun s => s.postFailed false o.a.toNat 0x22)
        fun d s => (s.keepData v.loc v.loc.mod (pa / 128)).postX o.a (Inflight.known ((scalarExtend w d).setWidth 256)))

/-- `st` (R170): the write is performed at its home after issue; in this model at issue (log entry 12). -/
def execSt (h : Hdr) (o : ADR) (s : State) : Host.Outcome State Fault Refusal :=
  s.issue h { xr := o.a :: ADR.regs o } fun s =>
    let n := scalarBytes (extSel o.ext)
    let a := s.addr o
    s.accessAt a n .write false true fun pa v s => .ok (s.writeLine v (s.storeTag a) pa (natBytes n (s.x o.a).toNat))

/-- One atomic read and write of `n` bytes at the home (R176, R177): `f` gives the new value, or none for no write. A counted line refuses it
with 0x25, poisoned data with 0x22; the old value comes back sign-extended. -/
def State.atomicAt (s : State) (v : Via) (pa n : Nat) (f : Nat → Option Nat) (bad : Nat → State → State) (good : Nat → State → State) : State :=
  let ep := v.loc.mod
  let line := pa / 128
  let s := s.reachHome v line
  if (s.counted? ep line).isSome then bad 0x25 s
  else if s.poisoned ep line then bad 0x22 (s.foundError v.loc (s.poisonUnit ep line) pa)
  else
    let old := bytesNat (s.homeSeen ep v.key pa n)
    match f old with
    | none => good old s
    | some new => good old (s.pokeAs ep v.key pa (natBytes n new))

/-- An AMO instruction (R176): `f` takes the old value, `x[C]` and `x[A]`, each of 8n bits. -/
def amo (needA : Bool) (f : Nat → Nat → Nat → Nat → Option Nat) (h : Hdr) (o : AMO) (s : State) : Host.Outcome State Fault Refusal :=
  s.issue h { xr := o.b :: o.ext.c :: (if needA then [o.a] else []), xw := [o.a] } fun s =>
    let n := if o.ext.sel = 3 then 8 else 4
    let c := (s.x o.ext.c).toNat % 2 ^ (8 * n)
    let a := (s.x o.a).toNat % 2 ^ (8 * n)
    s.accessAt (s.x o.b) n .write false true fun pa v s =>
      .ok (s.atomicAt v pa n (fun old => f n old c a) (fun cause s => s.postFailed false o.a.toNat cause)
        fun old s => s.postX o.a (Inflight.known ((sext (8 * n) old).setWidth 256)))

def execAmoadd (h : Hdr) (o : AMO) (s : State) := amo false (fun n old c _ => some ((old + c) % 2 ^ (8 * n))) h o s
def execAmoswap (h : Hdr) (o : AMO) (s : State) := amo false (fun _ _ c _ => some c) h o s
def execAmocas (h : Hdr) (o : AMO) (s : State) := amo true (fun _ old c a => if old = a then some c else none) h o s
def execAmomax (h : Hdr) (o : AMO) (s : State) :=
  amo false (fun n old c _ => some (if sval (8 * n) old < sval (8 * n) c then c else old)) h o s
def execAmoor (h : Hdr) (o : AMO) (s : State) := amo false (fun _ old c _ => some (old ||| c)) h o s
def execAmoand (h : Hdr) (o : AMO) (s : State) := amo false (fun _ old c _ => some (old &&& c)) h o s

end Sys2Proof.Machine
end

