-- ==== Sys2Proof/Machine/Keys.lean ====
section
/-! DEFINITION. Sys2Proof/Machine/Keys.lean: keys (spec/11 R299 to R301), their tags (spec/18 R436), and the key instructions of page 6
(R306 to R309). -/

namespace Sys2Proof.Machine

/-! ### Fields (R299) -/

def kGen (k : Key) : Nat := getField k 52 12
def kKind (k : Key) : Nat := getField k 48 4
def kUnit (k : Key) : Nat := getField k 40 8
def kDie (k : Key) : Nat := getField k 36 4
def kVout (k : Key) : Nat := getField k 24 10
def kStride (k : Key) : Nat := getField k 16 8
def kPaths (k : Key) : Nat := getField k 8 8
def kEgr (k : Key) : Nat := getField k 0 8
def kBase (k : Key) : Nat := getField k 64 64
def kLen (k : Key) : Nat := getField k 128 40
def kRights (k : Key) : Nat := getField k 168 8
def kHolder (k : Key) : Nat := getField k 176 16
def kTag (k : Key) : Nat := getField k 192 64

/-- A key of four doublewords, K0 first. -/
def keyOf (w0 w1 w2 w3 : Nat) : Key := BitVec.ofNat 256 (w0 % 2 ^ 64 + w1 % 2 ^ 64 * 2 ^ 64 + w2 % 2 ^ 64 * 2 ^ 128 + w3 % 2 ^ 64 * 2 ^ 192)

/-- A right by its bit: 0 read, 1 write, 2 atomic, 3 send, 4 cache, 5 delegate, 6 observe, 7 launch. -/
def kHas (k : Key) (bit : Nat) : Bool := (kRights k).testBit bit

/-- Routing is well formed for a key used on module `mod` (R301). -/
def kRouted (k : Key) (mod : Nat) : Bool :=
  (if kEgr k = 255 then kVout k == mod
   else decide (kEgr k ≤ 143) && decide (1 ≤ kPaths k) && decide (kPaths k ≤ 144) && kVout k != mod)
  && decide (kStride k ≤ 143) && (decide (kVout k < 512) || (kPaths k == 1 && kEgr k + 512 == kVout k)) && decide (kKind k ≤ 5)

/-- The path set of a key (R304). -/
def kPort (k : Key) (j : Nat) : Nat := (kEgr k + j * kStride k) % 144

/-- The hash of R304 for a line number or a shifted base. -/
def pathHash (l : Nat) : Nat := l ^^^ (l >>> 17) ^^^ (l >>> 34)

/-! ### AES-128 and CMAC (R436) -/

/-- The AES substitution table, 16 entries to a row, entry 0 of a row lowest. -/
def aesRows : List Nat :=
  [0x76abd7fe2b670130c56f6bf27b777c63,
   0xc072a49cafa2d4adf04759fa7dc982ca,
   0x1531d871f1e5a534ccf73f362693fdb7,
   0x75b227ebe28012079a059618c323c704,
   0x842fe329b3d63b52a05a6e1b1a2c8309,
   0xcf584c4a39becb6a5bb1fc20ed00d153,
   0xa89f3c507f02f94585334d43fbaaefd0,
   0xd2f3ff1021dab6bcf5389d928f40a351,
   0x73195d643d7ea7c41744975fec130ccd,
   0xdb0b5ede14b8ee4688902a22dc4f8160,
   0x79e4959162acd3c25c2406490a3a32e0,
   0x08ae7a65eaf4566ca94ed58d6d37c8e7,
   0x8a8bbd4b1f74dde8c6b4a61c2e2578ba,
   0x9e1dc186b95735610ef6034866b53e70,
   0xdf2855cee9871e9b948ed9691198f8e1,
   0x16bb54b00f2d99416842e6bf0d89a18c]

/-- One entry of the table. -/
def aesSub (b : Nat) : Nat := aesRows.getD (b / 16) 0 / 256 ^ (b % 16) % 256

/-- A byte doubled in the AES field. -/
def aesDouble (b : Nat) : Nat := (2 * b % 256) ^^^ (if 128 ≤ b then 0x1B else 0)

/-- Bytes combined by exclusive or. -/
def xorBytes (a b : List Nat) : List Nat := List.zipWith (fun x y => x ^^^ y) a b

/-- One column mixed. -/
def aesMix : List Nat → List Nat
  | [a, b, c, d] =>
    let m (p q r s : Nat) : Nat := aesDouble p ^^^ (aesDouble q ^^^ q) ^^^ r ^^^ s
    [m a b c d, m b c d a, m c d a b, m d a b c]
  | l => l

/-- Rows shifted: byte i of column c comes from column c + i. -/
def aesShift (s : List Nat) : List Nat := (List.range 16).map fun i => s.getD ((i + 4 * (i % 4)) % 16) 0

/-- The four columns mixed. -/
def aesMixAll (s : List Nat) : List Nat :=
  aesMix (s.take 4) ++ aesMix ((s.drop 4).take 4) ++ aesMix ((s.drop 8).take 4) ++ aesMix (s.drop 12)

/-- The next round key. -/
def aesNextKey (rcon : Nat) (k : List Nat) : List Nat :=
  let g := (List.range 4).map fun i => aesSub (k.getD (12 + (i + 1) % 4) 0)
  let w0 := xorBytes (k.take 4) (xorBytes g [rcon, 0, 0, 0])
  let w1 := xorBytes ((k.drop 4).take 4) w0
  let w2 := xorBytes ((k.drop 8).take 4) w1
  w0 ++ w1 ++ w2 ++ xorBytes (k.drop 12) w2

/-- `n` rounds with the key schedule made on the way; the last one mixes no columns. -/
def aesRounds : Nat → Nat → List Nat → List Nat → List Nat
  | 0, _, _, s => s
  | n + 1, rcon, k, s =>
    let k' := aesNextKey rcon k
    let t := aesShift (s.map aesSub)
    aesRounds n (aesDouble rcon) k' (xorBytes (if n = 0 then t else aesMixAll t) k')

/-- AES-128 of a block under a key, bytes in order. -/
def aes (k block : List Nat) : List Nat := aesRounds 10 1 k (xorBytes block k)

/-- A CMAC subkey from the one before it: doubled in the field of 128 bits, byte 0 most significant. -/
def cmacDouble (b : List Nat) : List Nat :=
  let v := b.foldl (fun n x => n * 256 + x) 0
  let d := (2 * v % 2 ^ 128) ^^^ (if 2 ^ 127 ≤ v then 0x87 else 0)
  (List.range 16).map fun i => d / 256 ^ (15 - i) % 256

/-- The CMAC of 24 bytes: one whole block and a padded one. -/
def cmac24 (k m : List Nat) : List Nat :=
  let k2 := cmacDouble (cmacDouble (aes k (List.replicate 16 0)))
  aes k (xorBytes (aes k (m.take 16)) (xorBytes (m.drop 16 ++ [0x80, 0, 0, 0, 0, 0, 0, 0]) k2))

/-- The bytes of a number as numbers. -/
def numBytes (n v : Nat) : List Nat := (natBytes n v).map BitVec.toNat

/-- The tag of a key's first three doublewords under a secret (R436). -/
def tagOf (secret : BitVec 128) (k : Key) : Nat :=
  ((cmac24 (numBytes 16 secret.toNat) (numBytes 24 k.toNat)).take 8).foldr (fun b n => b + 256 * n) 0

/-- The tag check: under the current secret, or under the one before it while its grace period runs (R439). The null key passes none (R299). -/
def State.tagOk (s : State) (k : Key) : Bool :=
  k != 0 && (tagOf s.secret.cur k == kTag k ||
    match s.secret.old with
    | some o => tagOf o k == kTag k
    | none => false)

/-- A key with a new tag (R300). -/
def State.signed (s : State) (k : Key) : Key := setField k 192 64 (tagOf s.secret.cur k)

/-! ### `kld`, `kst`, `kmov` (R306, R307) -/

/-- The `k` register that a 5-bit field names. -/
def keyReg (r : Reg) : Reg4 := BitVec.ofNat 4 r.toNat

/-- `kld`. -/
def execKld (h : Hdr) (o : ADR) (s : State) : Host.Outcome State Fault Refusal :=
  s.issue h { xr := ADR.regs o, kw := [keyReg o.a] } fun s =>
    s.accessAt (s.addr o) 32 .read true false fun pa v s =>
      .ok (s.loadTo v pa 32 (fun s => s.postFailed true (keyReg o.a).toNat 0x22)
        fun d s => s.postK (keyReg o.a) (Inflight.known (BitVec.ofNat 256 d)))

/-- `kst`. -/
def execKst (h : Hdr) (o : ADR) (s : State) : Host.Outcome State Fault Refusal :=
  s.issue h { xr := ADR.regs o, kr := [keyReg o.a] } fun s =>
    let a := s.addr o
    s.accessAt a 32 .write false true fun pa v s =>
      .ok (s.writeLine v (s.storeTag a) pa (natBytes 32 (s.k (keyReg o.a)).toNat))

/-- `kmov`. -/
def execKmov (h : Hdr) (o : KK) (s : State) : Host.Outcome State Fault Refusal :=
  s.issue h { kr := [o.b], kw := [o.a] } fun s => .ok (s.setK o.a (s.k o.b))

/-! ### Derivations (R308, R309) -/

/-- The common checks of a derivation, then its own: a cause, or the new key before its tag. -/
def derive (f : State → Key → Word → Except Nat Key) (more : List Reg) (h : Hdr) (o : KKX) (s : State) :
    Host.Outcome State Fault Refusal :=
  s.issue h { xr := o.ext.c :: more, kr := [o.b], kw := [o.a] } fun s =>
    let k := s.k o.b
    if !s.tagOk k then s.fail 0x07
    else if kHolder k != s.myHolder then s.fail 0x0A
    else if 5 < kKind k then s.fail 0x09
    else match f s k (s.x o.ext.c) with
      | .error c => s.fail c
      | .ok k => .ok (s.setK o.a (s.signed k))

/-- `knarrow`. -/
def execKnarrow (h : Hdr) (o : KKX) (s : State) : Host.Outcome State Fault Refusal :=
  derive (fun s k v =>
    let l := (s.x (o.ext.c + 1)).toNat
    if kLen k < v.toNat + l then .error 0x08
    else .ok (setField (setField k 64 64 ((kBase k + v.toNat) % 2 ^ 64)) 128 40 l)) [o.ext.c + 1] h o s

/-- `krights`. -/
def execKrights (h : Hdr) (o : KKX) (s : State) : Host.Outcome State Fault Refusal :=
  derive (fun _ k v =>
    if 256 ≤ v.toNat then .error 0x01 else .ok (setField k 168 8 (kRights k &&& v.toNat))) [] h o s

/-- `kgive`. -/
def execKgive (h : Hdr) (o : KKX) (s : State) : Host.Outcome State Fault Refusal :=
  derive (fun _ k v =>
    let d := v.toNat
    if !kHas k 5 then .error 0x09
    else if bits d 0 16 = 0xFFFF || 2 ^ 17 ≤ d then .error 0x01
    else .ok (setField (setField k 176 16 (bits d 0 16)) 168 8 (if bit d 16 then kRights k else kRights k &&& 0xDF))) [] h o s

/-- `kpaths`. -/
def execKpaths (h : Hdr) (o : KKX) (s : State) : Host.Outcome State Fault Refusal :=
  derive (fun _ k v =>
    let d := v.toNat
    let f := bits d 0 8
    let c := bits d 8 8
    let m := bits d 16 8
    if kEgr k = 255 || c = 0 || m = 0 || decide (kPaths k ≤ f + (c - 1) * m) || decide (2 ^ 24 ≤ d) then .error 0x01
    else .ok (setField (setField (setField k 0 8 ((kEgr k + f * kStride k) % 144)) 8 8 c) 16 8 (m * kStride k % 144))) [] h o s

end Sys2Proof.Machine
end

