-- ==== Sys2Proof/Machine/Counted.lean ====
section
/-! DEFINITION. Sys2Proof/Machine/Counted.lean: counted lines at their home: fills, consuming reads, drops, and the counted save list
(spec/05 R136 to R142, spec/15 R389). -/

namespace Sys2Proof.Machine

/-- Change a counted line. -/
def State.updCounted (s : State) (ep line : Nat) (f : Counted → Counted) : State :=
  { s with counted := mapIf (fun c => c.ep == ep && c.line == line) f s.counted }

/-- A line that becomes counted is held in no RDC but for bytes still dirty there, and in no data cache; no answer on its way is kept (R136, R137, spec/06
R160). -/
def State.unshare (s : State) (ep line : Nat) : State :=
  { s with rdc := s.rdc.filterMap (fun l => if l.ep == ep && l.line == line then l.discarded else some l),
           dcache := s.dcache.filter fun d => !(d.ep == ep && d.line == line),
           reqs := mapIf (fun q => q.target == ep && q.line == some line) (fun q => { q with keep := false }) s.reqs }

/-- The way in which a counted line of a region is pinned: the one where it already is, if the mask has it, else as a fill takes one (R136). -/
def State.pinWay (s : State) (v : Via) (ep line : Nat) : Option Nat :=
  let ways := s.waysOn v (s.homeDie line)
  match s.l2.find? fun l => l.ep == ep && l.line == line && ways.testBit l.way with
  | some l => some l.way
  | none => s.victim ep (s.homeDie line) (l2Slot line) ways

/-- The line stands in that way of its slot; a line that gives way leaves the data caches of the die too (spec/06 R160). -/
def State.pinLine (s : State) (v : Via) (ep line way : Nat) : State :=
  let die := s.homeDie line
  let slot := l2Slot line
  let goes (l : L2Line) : Bool := l.ep == ep && (l.line == line || (l.die == die && l.slice * 64 + l.set == slot && l.way == way))
  let s := (s.l2.filter goes).foldl (fun s l => s.dropData ep die ep l.line) s
  let kept := s.l2.filter fun l => !goes l
  { s with l2clock := s.l2clock + 1, l2 := ⟨ep, line, die, slot / 64, slot % 64, way, v.cls, s.l2clock + 1⟩ :: kept }

/-! ### The counted save list (spec/15 R389) -/

/-- The bytes of one record of the list. R389 puts the line address in [51:7] and the count in [7:0]: bit 7 is the count's, which can be 255, and the W9
knows the line of each record (DESIGN CHOICE, log entry 62). -/
def savedRecord (pa count : Nat) (data : BitVec 1024) : List Byte :=
  natBytes 8 (pa / 256 * 256 + count % 256) ++ natBytes 8 0 ++ natBytes 128 data.toNat

/-- A region's saved lines, in the order of its list. -/
def State.savedOf (s : State) (mod rid : Nat) : List SavedLine := s.saved.filter fun q => q.ep == mod && q.rid == rid

/-- A counted line goes to its region's list: its record is appended, the count advanced, and the line leaves the L2 (R141). The address of a
fault ends the attempt (R390). -/
def State.saveCounted (s : State) (r : Region) (loc : Loc) (c : Counted) : Except Nat Unit × State :=
  let n := (s.savedOf c.ep r.rid).length
  match s.saveBytes r loc (r.cslist + 8 + 144 * n) (savedRecord (c.line * 128) c.count c.data) with
  | (.error a, s) => (.error a, s)
  | (.ok (), s) =>
    match s.saveBytes r loc r.cslist (natBytes 8 (n + 1)) with
    | (.error a, s) => (.error a, s)
    | (.ok (), s) => (.ok (), { (s.dropCounted c.ep c.line) with saved := s.saved ++ [⟨c.ep, c.line, r.rid, c.key⟩] })

/-- The record of index `k` leaves a region's list: the last record takes its place. -/
def State.unlist (s : State) (r : Region) (loc : Loc) (q : SavedLine) (k : Nat) : Except Nat (List Byte) × State :=
  let mine := s.savedOf q.ep q.rid
  let last := mine.length - 1
  match s.loadBytes r loc (r.cslist + 8 + 144 * k) 144 with
  | (.error a, s) => (.error a, s)
  | (.ok rec, s) =>
    match s.loadBytes r loc (r.cslist + 8 + 144 * last) 144 with
    | (.error a, s) => (.error a, s)
    | (.ok tail, s) =>
      match s.savePieces r loc r.cslist [(8 + 144 * k, tail), (0, natBytes 8 last)] with
      | (.error a, s) => (.error a, s)
      | (.ok (), s) =>
        let keep := match mine.getLast? with
          | some l => if k = last then mine.dropLast else (mine.dropLast).set k l
          | none => []
        (.ok rec, { s with saved := (s.saved.filter fun w => !(w.ep == q.ep && w.rid == q.rid)) ++ keep })

/-- A counted access to a line of a save list reinstates it first (R141): its count and bytes come from the list. A fault on the list ends
its region (R390). The spec does not say where the line goes when counted lines hold every way of its set, nor what the quota then does: the model puts it in
way 0 and leaves the quota aside. Nor does it say whether a plain access (R139) reinstates: the model's does not (DESIGN CHOICE, log entry 55). -/
def State.reinstate (s : State) (loc : Loc) (line : Nat) : State :=
  match s.saved.find? fun q => q.ep == loc.mod && q.line == line with
  | none => s
  | some q =>
    match s.region? loc.mod q.rid with
    | none => s
    | some r =>
      let k := (s.savedOf q.ep q.rid).findIdx fun w => w.line == line
      match s.unlist r loc q k with
      | (.error a, s) => s.endRegion loc q.rid (.saveFault (BitVec.ofNat 64 a) 0)
      | (.ok rec, s) =>
        let v := s.via loc q.rid
        let way := (s.pinWay v q.ep line).getD 0
        let s := (s.pinLine v q.ep line way).unshare q.ep line
        { s with counted := s.counted ++ [⟨q.ep, line, (rec.getD 0 0).toNat, q.rid, lineOf (rec.drop 16), way, q.key⟩] }

/-! ### Fills and consuming reads -/

/-- A counted fill of a whole line by an agent of `v` with a reader count from 1 to 255 (R137): 0x0F on a counted line, 0x10 where the quota
is spent or every way is pinned. -/
def State.countedFill (s : State) (v : Via) (pa : Nat) (data : BitVec 1024) (count : Nat) : Except Nat Unit × State :=
  let ep := v.loc.mod
  let line := pa / 128
  let s := s.reinstate v.loc line
  if (s.counted? ep line).isSome then (.error 0x0F, s)
  else
    let quota := ((s.region? ep v.rid).map fun r => s.left r Region.counted).getD 0
    if quota ≤ (s.counted.filter fun c => c.ep == ep && c.rid == v.rid).length then (.error 0x10, s)
    else match s.pinWay v ep line with
      | none => (.error 0x10, s)
      | some w =>
        let s := ((s.countAcc v 2).pinLine v ep line w).unshare ep line
        (.ok (), { s with counted := s.counted ++ [⟨ep, line, count, v.rid, data, w, v.key⟩] })

/-- A consuming read of a line (R138): its bytes, with the count lowered by one and the line dropped at 0; 0x0E for a line that is not
counted at its home. -/
def State.consume (s : State) (v : Via) (pa : Nat) : Except Nat (BitVec 1024) × State :=
  let ep := v.loc.mod
  let line := pa / 128
  let s := (s.reinstate v.loc line).reachHome v line
  match s.counted? ep line with
  | none => (.error 0x0E, s)
  | some c =>
    let d := underKey c.key v.key line c.data
    (.ok d, if c.count ≤ 1 then s.dropCounted ep line else s.updCounted ep line fun c => { c with count := c.count - 1 })

/-- `cdrain` of one line for a region (R140, spec/10 R298): a line of its own is dropped whatever its count, here or in its save list; 1 if it
was an under-read. -/
def State.drainLine (s : State) (loc : Loc) (rid line : Nat) : Nat × State :=
  let s := if s.saved.any fun q => q.ep == loc.mod && q.line == line && q.rid == rid then s.reinstate loc line else s
  match s.counted? loc.mod line with
  | none => (0, s)
  | some c => if c.rid = rid then (if c.count = 0 then 0 else 1, s.dropCounted loc.mod line) else (0, s)

end Sys2Proof.Machine
end

