-- ==== Sys2Proof/Machine/Scratch.lean ====
section
/-! DEFINITION. Sys2Proof/Machine/Scratch.lean: a core's scratchpad: allocations, lines and their fill states (spec/05 R132 to R135). -/

namespace Sys2Proof.Machine

/-- The bytes that a region holds in each lane slice of a core (R132), 0 without an allocation. -/
def State.laneBytes (s : State) (l : Loc) (rid : Nat) : Nat :=
  ((s.allocs.find? fun a => a.loc == l && a.rid == rid).map Alloc.bytes).getD 0

/-- Line `m` of a lane slice; a line not listed is EMPTY and zero (R134). -/
def State.sline (s : State) (l : Loc) (rid slice m : Nat) : SLine :=
  (s.slines.find? fun a => a.loc == l && a.rid == rid && a.slice == slice && a.m == m).getD ⟨l, rid, slice, m, 0, 0, 0, false, 0, 0⟩

/-- Record a line. -/
def State.setSline (s : State) (a : SLine) : State :=
  { s with slines := upsert (fun b => b.loc == a.loc && b.rid == a.rid && b.slice == a.slice && b.m == a.m) a s.slines }

/-- A line is PENDING. -/
def SLine.pending (a : SLine) : Bool := a.st == 1

/-- A line is FULL with readers left. -/
def SLine.full (a : SLine) : Bool := a.st == 2 && a.count != 0

/-- The cause that a plain store meets at a line (R134): 0x0D where PENDING, 0x25 where FULL with a count. -/
def SLine.storeCause (a : SLine) : Option Nat := if a.pending then some 0x0D else if a.full then some 0x25 else none

/-- The cause that a posted fill meets (R134): 0x0D where PENDING, 0x0F where FULL with a count. -/
def SLine.postCause (a : SLine) : Option Nat := if a.pending then some 0x0D else if a.full then some 0x0F else none

/-- One consuming load of a line (R134): FULL(n) becomes FULL(n − 1), and EMPTY at 0; bytes kept. -/
def SLine.consumed (a : SLine) : SLine := if a.count ≤ 1 then { a with st := 0, count := 0 } else { a with count := a.count - 1 }

/-- `n` bytes from offset `o` of a lane slice, within one line. -/
def State.scrRead (s : State) (l : Loc) (rid slice o n : Nat) : Nat :=
  bytesNat (lineBytes (s.sline l rid slice (o / 128)).data (o % 128) n)

/-- Bytes written at an offset of a lane slice, within one line, whatever its state; a line written whole is poisoned no more (spec/20 R467). -/
def State.scrWrite (s : State) (l : Loc) (rid slice o : Nat) (bs : List Byte) : State :=
  let a := s.sline l rid slice (o / 128)
  s.setSline { a with data := mergeLine (maskSpan (o % 128) bs.length) (lineAt (o % 128) bs) a.data, bad := a.bad && bs.length != 128 }

/-- The lane slice of a thread's lane `j` (R132). -/
def Agent.laneSlice (a : Agent) (j : Nat) : Nat := 16 * a.clusters.getD (j / 16) 0 + j % 16

/-- The lane slice that element `i` of an agent uses. -/
def Agent.elemSlice (a : Agent) (i : Nat) : Nat := a.laneSlice (i % (16 * max 1 a.nclusters))

end Sys2Proof.Machine
end

