-- ==== Sys2Proof/Machine/Units.lean ====
section
/-! DEFINITION. Sys2Proof/Machine/Units.lean: the attributes that a satellite captures (spec/10 R266) and what one unit of a transfer does at its
destination: plain writes, counted fills and reductions at the home (R275, R278), and fills of scratchpad lines (spec/05 R134). -/

namespace Sys2Proof.Machine

/-! ### Fields of `sattr` (R266) -/

def saPromise (w : Word) : Bool := bit w.toNat 32
def saElem (w : Word) : Nat := 2 ^ bits w.toNat 30 2
def saLayout (w : Word) : Nat := bits w.toNat 29 1
def saReaders (w : Word) : Nat := bits w.toNat 21 8
def saOrdered (w : Word) : Bool := bit w.toNat 20
def saRedfmt (w : Word) : Nat := bits w.toNat 16 4
def saRedop (w : Word) : Nat := bits w.toNat 12 4
def saDetach (w : Word) : Bool := bit w.toNat 11
def saPrio (w : Word) : Nat := bits w.toNat 8 3

/-- The scope of the release, if it is enabled. -/
def saRel (w : Word) : Option Nat := if bit w.toNat 7 then some (bits w.toNat 4 3) else none

/-- The scope of the acquire, if it is enabled. -/
def saAcq (w : Word) : Option Nat := if bit w.toNat 3 then some (bits w.toNat 0 3) else none

/-- `sattr` with `REDOP` taken as 0 (R284). -/
def saPlain (w : Word) : Word := w &&& ~~~(0xF000 : Word)

/-! ### Reductions (R278) -/

/-- The formats that a reduction accepts (R267). -/
def redFormat (f : Nat) : Bool := f == 0 || f == 1 || f == 2 || f == 7 || f == 8 || f == 10 || f == 11

/-- One element combined. -/
def redElem (op fmt d x : Nat) : Nat :=
  let w := codeBits fmt
  if codeInt fmt then
    if op = 1 then (d + x) % 2 ^ w
    else if op = 2 then (if sval w d ≤ sval w x then x else d)
    else (if sval w d ≤ sval w x then d else x)
  else
    let t := fmtOf fmt
    if op = 1 then (t.addV 0 false (t.val d) (t.val x)).bits else (t.minMax (op == 2) d x).bits

/-- Elements combined one after the other. -/
def redBytes (op fmt : Nat) : Nat → List Byte → List Byte → List Byte
  | 0, _, _ => []
  | n + 1, d, x =>
    let w := codeBits fmt / 8
    natBytes w (redElem op fmt (bytesNat (d.take w)) (bytesNat (x.take w))) ++ redBytes op fmt n (d.drop w) (x.drop w)

/-! ### A unit at its home -/

/-- What a plain write of a unit meets at the home: a counted line (R139), or poisoned data that it does not cover whole. -/
def State.unitCause (s : State) (ep line n : Nat) : Option Nat :=
  if (s.counted? ep line).isSome then some 0x25 else if s.poisoned ep line && n != 128 then some 0x22 else none

/-- Bytes of one line written by a unit. On the line's home die, and for a unit performed at its target, they reach the home as the unit completes; a line
homed elsewhere takes them in the die's RDC, and what the home makes of them is decided when they arrive there (R129, R131, R139). -/
def State.unitWrite (s : State) (v : Via) (tag : StoreTag) (pa : Nat) (bs : List Byte) : Except Nat Unit × State :=
  let ep := v.loc.mod
  let line := pa / 128
  if s.homeDie line != v.loc.die then (.ok (), s.writeLine v tag pa bs)
  else
    let s := s.reachHome v line
    match s.unitCause ep line bs.length with
    | some c =>
      (.error c, if c = 0x25 then s
        else { ((s.foundError v.loc (s.poisonUnit ep line) pa).pokeAs ep v.key pa (freeBytes s.fresh bs.length)) with fresh := s.fresh + 1 })
    | none => (.ok (), s.homeStore tag ep v.key pa bs)

/-- Bytes of one line reduced into their destination (R278): with `ORDERED` in one step at the home; without it read and written back through the die's
RDC, where the line is homed on another die. A counted line refuses either form. -/
def State.unitReduce (s : State) (v : Via) (tag : StoreTag) (ordered : Bool) (pa op fmt : Nat) (bs : List Byte) : Except Nat Unit × State :=
  let ep := v.loc.mod
  let line := pa / 128
  let n := bs.length * 8 / codeBits fmt
  if (s.counted? ep line).isSome then (.error 0x25, s)
  else if !ordered && s.homeDie line != v.loc.die then
    if s.readBad v pa then (.error 0x22, s.foundError v.loc (s.poisonUnit ep line) pa)
    else
      let old := s.readLine v pa bs.length
      old.2.unitWrite v tag pa (redBytes op fmt n old.1 bs)
  else
    let s := s.reachHome v line
    match s.unitCause ep line 0 with
    | some c => (.error c, if c = 0x25 then s else s.foundError v.loc (s.poisonUnit ep line) pa)
    | none => (.ok (), s.homeStore tag ep v.key pa (redBytes op fmt n (s.homeSeen ep v.key pa bs.length) bs))

/-- Bytes of one line put by a unit with the attributes `sattr`: reduced, filled with a reader count, or written. -/
def State.unitPut (s : State) (v : Via) (tag : StoreTag) (sattr : Word) (pa : Nat) (bs : List Byte) : Except Nat Unit × State :=
  if saRedop sattr != 0 then s.unitReduce v tag (saOrdered sattr) pa (saRedop sattr) (saRedfmt sattr) bs
  else if saReaders sattr != 0 then s.countedFill v (pa / 128 * 128) (lineAt (pa % 128) bs) (saReaders sattr)
  else s.unitWrite v tag pa bs

/-- Translated spans put one after the other: the cause of the first that fails, with its index among the spans. -/
def State.unitSpans (s : State) (tag : StoreTag) (sattr : Word) : List (Nat × Nat × Via) → List Byte → Except Nat Unit × State
  | [], _ => (.ok (), s)
  | (pa, n, v) :: t, bs =>
    match s.unitPut v tag sattr pa (bs.take n) with
    | (.error c, s) => (.error c, s)
    | (.ok (), s) => s.unitSpans tag sattr t (bs.drop n)

/-- A unit put at a virtual address of a space; `fix` gives the way from which the home is reached. -/
def State.unitAt (s : State) (sp : Space) (fix : Nat → Via → Via) (tag : StoreTag) (sattr : Word) (va : Nat) (bs : List Byte) :
    Except (Nat × Nat) Unit × State :=
  match s.translateSpans sp .write (lineSpans (bs.length / 128 + 2) va bs.length) with
  | (.error c, s) => (.error c, s)
  | (.ok l, s) =>
    match s.unitSpans tag sattr (l.map fun q => (q.1, q.2.1, fix q.1 q.2.2)) bs with
    | (.error c, s) => (.error (c, va), s)
    | (.ok (), s) => (.ok (), s)

/-! ### A core's scratchpad as one window (spec/11 R305) -/

/-- The lane slice and lane offset of a scratchpad address. -/
def windowPlace (a : Nat) : Nat × Nat := (a / 128 % 64, 128 * (a / 8192) + a % 128)

/-- The lines of `n` bytes from a scratchpad address: slice, lane offset, count. -/
def windowSpans (a n : Nat) : List (Nat × Nat × Nat) :=
  (lineSpans (n / 128 + 2) a n).map fun q => ((windowPlace q.1).1, (windowPlace q.1).2, q.2)

/-- Bytes of consecutive lines of a window. -/
def State.windowRead (s : State) (l : Loc) (rid : Nat) (spans : List (Nat × Nat × Nat)) : List Byte :=
  spans.flatMap fun q => natBytes q.2.2 (s.scrRead l rid q.1 q.2.1 q.2.2)

/-- Bytes written to consecutive lines of a window. -/
def State.windowWrite (s : State) (l : Loc) (rid : Nat) : List (Nat × Nat × Nat) → List Byte → State
  | [], _ => s
  | (sl, o, n) :: t, bs => (s.scrWrite l rid sl o (bs.take n)).windowWrite l rid t (bs.drop n)

/-- Set the fill state of a line; the bytes of a fill that did not end are gone (spec/05 R134). -/
def State.setFill (s : State) (l : Loc) (rid slice m st count : Nat) : State :=
  s.setSline { s.sline l rid slice m with st := st, count := count, part := 0, partMask := 0 }

/-- Bytes of a fill that come to a PENDING line, from offset `o` of the line; with its last ones it is FULL with `readers` (spec/05 R134). A line written
whole is poisoned no more (spec/20 R467). -/
def State.fillPart (s : State) (l : Loc) (rid slice m o : Nat) (bs : List Byte) (last : Bool) (readers : Nat) : State :=
  let q := s.sline l rid slice m
  let mask := q.partMask ||| maskSpan o bs.length
  let part := mergeLine (maskSpan o bs.length) (lineAt o bs) q.part
  if last then
    s.setSline { q with data := mergeLine mask part q.data, st := 2, count := readers, bad := q.bad && mask != BitVec.allOnes 128, part := 0, partMask := 0 }
  else s.setSline { q with st := 1, count := 0, part := part, partMask := mask }

end Sys2Proof.Machine
end

