-- ==== Sys2Proof/Machine/VecElem.lean ====
section
/-! DEFINITION. Sys2Proof/Machine/VecElem.lean: what a vector instruction gives for one element (spec/07, and the local instructions of
spec/08 that touch no memory), and what a lane cluster does with its elements of an entry. -/

namespace Sys2Proof.Machine

/-! ### Fields of vector instructions -/

/-- The MASK of a vector instruction, if it has one. -/
def Instr.maskOf : Instr → Option Mask
  | .vadd _ o | .vsub _ o | .vmul _ o | .vmulh _ o | .vand _ o | .vor _ o | .vxor _ o | .vsll _ o | .vsrl _ o | .vsra _ o
  | .vmin _ o | .vmax _ o | .vminu _ o | .vmaxu _ o | .vaddsat _ o | .vfadd _ o | .vfsub _ o | .vfmul _ o | .vfdiv _ o
  | .vfma _ o | .vfmin _ o | .vfmax _ o | .vsel _ o | .vperm _ o => o.mask
  | .vfsqrt _ o | .vfexp2 _ o | .vmerge _ o | .vclass _ o | .vredsum _ o | .vredmax _ o | .vredmin _ o | .vfredsum _ o
  | .vscan _ o | .vcompress _ o | .vappend _ o | .vmvv _ o => o.mask
  | .vcmp _ o | .vfcmp _ o => o.mask
  | .vbcast _ o | .vid _ o => o.mask
  | .vld _ o | .vst _ o | .vlsp _ o | .vssp _ o | .vlspc _ o | .vldc _ o => o.mask
  | .vlds _ o | .vldx _ o | .vsts _ o | .vstx _ o | .vlspx _ o | .vsspx _ o | .vstc _ o => o.mask
  | .vslide _ o => o.mask
  | .vcvt _ o | .vcvtef _ o => o.mask
  | .pcnt _ o | .pfirst _ o => o.mask
  | .rvld _ o | .rvst _ o => o.mask
  | _ => none

/-- The element width in bits by which a vector instruction counts its elements (R187, spec/08 R230, R233). -/
def Instr.vwidth : Instr → Nat
  | .vadd _ o | .vsub _ o | .vmul _ o | .vmulh _ o | .vand _ o | .vor _ o | .vxor _ o | .vsll _ o | .vsrl _ o | .vsra _ o
  | .vmin _ o | .vmax _ o | .vminu _ o | .vmaxu _ o | .vaddsat _ o | .vfadd _ o | .vfsub _ o | .vfmul _ o | .vfdiv _ o
  | .vfma _ o | .vfmin _ o | .vfmax _ o | .vsel _ o | .vperm _ o => widthBits (extSel o.ext)
  | .vfsqrt _ o | .vfexp2 _ o | .vmerge _ o | .vclass _ o | .vredsum _ o | .vredmax _ o | .vredmin _ o | .vfredsum _ o
  | .vscan _ o | .vcompress _ o | .vappend _ o | .vmvv _ o => widthBits (extSel o.ext)
  | .vcmp _ o | .vfcmp _ o => widthBits o.ext.sel
  | .vbcast _ o | .vid _ o => widthBits (extSel o.ext)
  | .vld _ o | .vst _ o | .vlsp _ o | .vssp _ o | .vlspc _ o | .vldc _ o => widthBits (extSel o.ext)
  | .vlds _ o | .vldx _ o | .vsts _ o | .vstx _ o | .vlspx _ o | .vsspx _ o | .vstc _ o => widthBits o.ext.sel
  | .vslide _ o | .vmvx _ o => widthBits o.ext.sel
  | .vcvt _ o | .vcvtef _ o => max (codeBits o.src.toNat) (codeBits o.dst.toNat)
  | .pcnt _ _ | .pfirst _ _ => 8
  | .rvld _ o | .rvst _ o => widthBits o.ext.sel
  | _ => 32

/-- The vector registers that an entry reads and writes: register, element width in bits, and whether it is written (R187, R188, spec/04 R119, spec/08
R208 to R236, spec/09 R261, spec/11 R319). -/
def Instr.vuses : Instr → List (Reg × Nat × Bool)
  | .vadd _ o | .vsub _ o | .vmul _ o | .vmulh _ o | .vand _ o | .vor _ o | .vxor _ o | .vsll _ o | .vsrl _ o | .vsra _ o
  | .vmin _ o | .vmax _ o | .vminu _ o | .vmaxu _ o | .vaddsat _ o | .vfadd _ o | .vfsub _ o | .vfmul _ o | .vfdiv _ o
  | .vfma _ o | .vfmin _ o | .vfmax _ o | .vsel _ o | .vperm _ o =>
    let w := widthBits (extSel o.ext)
    (firstReg o.ext o.a, w, false) :: (o.a, w, true) :: (RegImm.regs o.t).map fun r => (r, w, false)
  | .vfsqrt _ o | .vfexp2 _ o | .vmerge _ o | .vclass _ o | .vmvv _ o | .vredsum _ o | .vredmax _ o | .vredmin _ o | .vfredsum _ o
  | .vscan _ o | .vcompress _ o =>
    let w := widthBits (extSel o.ext)
    [(o.b, w, false), (o.a, w, true)]
  | .vappend _ o => [(o.a, widthBits (extSel o.ext), false)]
  | .vcmp _ o | .vfcmp _ o => [(o.ext.c, widthBits o.ext.sel, false), (o.i.low, widthBits o.ext.sel, false)]
  | .vbcast _ o | .vid _ o => [(o.a, widthBits (extSel o.ext), true)]
  | .vld _ o | .vlsp _ o | .vlspc _ o | .vldc _ o => [(o.a, widthBits (extSel o.ext), true)]
  | .vst _ o | .vssp _ o => [(o.a, widthBits (extSel o.ext), false)]
  | .vlds _ o => [(o.a, widthBits o.ext.sel, true)]
  | .vsts _ o | .vstc _ o => [(o.a, widthBits o.ext.sel, false)]
  | .vldx _ o | .vlspx _ o => [(o.a, widthBits o.ext.sel, true), (o.ext.c, widthBits o.ext.sel, false)]
  | .vstx _ o | .vsspx _ o => [(o.a, widthBits o.ext.sel, false), (o.ext.c, widthBits o.ext.sel, false)]
  | .vslide _ o => [(o.ext.c, widthBits o.ext.sel, false), (o.a, widthBits o.ext.sel, true)]
  | .vmvx _ o => [(o.ext.c, widthBits o.ext.sel, false)]
  | .vcvt _ o =>
    if fmtMx o.dst then [(o.b, codeBits o.src.toNat, false), (o.a, 8, true), (o.a + 1, 8, true)]
    else if fmtMx o.src then [(o.b, 8, false), (o.b + 1, 8, false), (o.a, codeBits o.dst.toNat, true)]
    else [(o.b, codeBits o.src.toNat, false), (o.a, codeBits o.dst.toNat, true)]
  | .vcvtef _ o => [(o.b, codeBits o.src.toNat, false), (o.a, codeBits o.dst.toNat, true)]
  | .pcnt _ o | .pfirst _ o => [(o.a, 32, true)]
  | .rvld _ o => [(o.a, widthBits o.ext.sel, true)]
  | .rvst _ o => [(o.a, widthBits o.ext.sel, false)]
  | .send _ o | .sendR _ o | .sendr _ o => [(o.a, 32, false)]
  | .mdrnx _ o => [(BitVec.ofNat 5 (o.i.field 1 5), 32, false)]
  | _ => []

/-- Two entries that touch one register at two widths, and one of them writes it: a register is one byte sequence (spec/15 R384), so what one cluster holds
of it at one width another holds at the other, and the later entry waits for the earlier one in every cluster (log entry 26). -/
def Instr.widthChange (i j : Instr) : Bool :=
  (Instr.vuses i).any fun u => (Instr.vuses j).any fun v => u.1 == v.1 && u.2.1 != v.2.1 && (u.2.2 || v.2.2)

/-- A conversion whose destination is its own source at another width: every source element is read before any element is written (R188), so the first
cluster to write keeps the source for the others (log entry 26). -/
def Instr.selfWidth : Instr → Bool
  | .vcvt _ o => o.a == o.b && codeBits o.src.toNat != codeBits o.dst.toNat
  | _ => false

/-- The cross-cluster entries (spec/02 R41, spec/04 R119, spec/09 R261). -/
def Instr.cross : Instr → Bool
  | .vredsum _ _ | .vredmax _ _ | .vredmin _ _ | .vfredsum _ _ | .vperm _ _ | .vslide _ _ | .vscan _ _ | .vcompress _ _
  | .vappend _ _ | .vcvtef _ _ | .pcnt _ _ | .pfirst _ _ | .vldx _ _ | .vstx _ _ | .vlspx _ _ | .vsspx _ _
  | .mdrn _ _ | .mdrnx _ _ => true
  | .vcvt _ o => fmtMx o.src || fmtMx o.dst
  | _ => false

/-- The predicate that an entry writes. -/
def Instr.predDest : Instr → Option Reg4
  | .vcmp _ o | .vfcmp _ o => some o.p
  | .plog _ o => some o.a
  | .vfault _ o => some o.p
  | _ => none

/-- The pipe that does an entry's own work (spec/19 R453), none where that is the cross-cluster network's. -/
def Instr.ownPipe : Instr → Option Nat
  | .vadd _ _ | .vsub _ _ | .vmul _ _ | .vmulh _ _ | .vand _ _ | .vor _ _ | .vxor _ _ | .vsll _ _ | .vsrl _ _ | .vsra _ _
  | .vmin _ _ | .vmax _ _ | .vminu _ _ | .vmaxu _ _ | .vaddsat _ _ | .vcmp _ _ | .vfcmp _ _ | .vid _ _ => some 0
  | .vfadd _ _ | .vfsub _ _ | .vfmul _ _ | .vfma _ _ | .vfmin _ _ | .vfmax _ _ | .vclass _ _ => some 1
  | .vfdiv _ _ | .vfsqrt _ _ | .vfexp2 _ _ => some 2
  | .vld _ _ | .vlds _ _ | .vlsp _ _ | .vlspc _ _ | .vldc _ _ | .rvld _ _ | .vldx _ _ | .vlspx _ _ => some 3
  | .vst _ _ | .vsts _ _ | .vssp _ _ | .vstc _ _ | .rvst _ _ | .mdrn _ _ | .mdrnx _ _ | .send _ _ | .sendR _ _ | .sendr _ _
  | .vstx _ _ | .vsspx _ _ | .vappend _ _ => some 4
  | .vcvt _ _ | .vcvtef _ _ => some 6
  | .vredsum _ _ | .vredmax _ _ | .vredmin _ _ | .vfredsum _ _ | .vperm _ _ | .vslide _ _ | .vscan _ _ | .vcompress _ _
  | .pcnt _ _ | .pfirst _ _ => none
  | _ => some 7

/-- The pipes that work on an entry, in the table's order, each with a PIPE record of its own (spec/19 R453; log entry 39): its own, and the network for
the entries of spec/02 R41. -/
def Instr.pipes (i : Instr) : List Nat :=
  match Instr.ownPipe i with
  | none => [5]
  | some p => if !Instr.cross i then [p] else if p < 5 then [p, 5] else [5, p]

/-- The floating-point format of a vector width: `.w`, `.h`, `.d`, `.bh` (spec/04 R102). -/
def vFmt (w : BitVec 3) : Fmt :=
  match w.toNat with
  | 0 => .fp32 | 1 => .fp16 | 3 => .fp64 | _ => .bf16

/-- An element is selected by the entry's mask (spec/03 R74). -/
def Entry.active (e : Entry) (i : Nat) : Bool := e.mask.getLsbD i

/-- Zeroing (R188). -/
def Entry.zeroing (e : Entry) : Bool := ((Instr.maskOf e.instr).map Mask.zero).getD false

/-- The speculative form (R197). -/
def Entry.speculates (e : Entry) : Bool := ((Instr.maskOf e.instr).map Mask.spec).getD false

/-- The elements below `n` that a cluster holds (spec/02 R38). -/
def Agent.clusterElems (a : Agent) (g n : Nat) : List Nat := (List.range n).filter fun i => a.homeCluster i == g

/-- A second operand: an element of `vT`, or the low bits of the immediate (R191). -/
def Agent.elemOr (a : Agent) (t : RegImm) (w k : Nat) : Nat :=
  match t with
  | .reg r => a.elem r w k
  | .imm i => umod w i.int

/-! ### One element -/

/-- An integer VRR operation (R191). -/
def vint (f : Nat → Nat → Nat → Nat) (o : VRR) (a : Agent) (k : Nat) : FpRes :=
  let w := widthBits (extSel o.ext)
  ⟨f w (a.elem (firstReg o.ext o.a) w k) (a.elemOr o.t w k) % 2 ^ w, 0⟩

/-- A floating-point VRR operation (R193), of patterns. -/
def vfp (f : Fmt → Nat → Bool → Nat → Nat → FpRes) (o : VRR) (a : Agent) (e : Entry) (k : Nat) : FpRes :=
  let w := widthBits (extSel o.ext)
  f (vFmt (extSel o.ext)) (effRm e.rm) e.sp (a.elem (firstReg o.ext o.a) w k) (a.elemOr o.t w k)

/-- A floating-point VU operation (R193). -/
def vfu (f : Fmt → Nat → Bool → Nat → FpRes) (o : VU) (a : Agent) (e : Entry) (k : Nat) : FpRes :=
  f (vFmt (extSel o.ext)) (effRm e.rm) e.sp (a.elem o.b (widthBits (extSel o.ext)) k)

/-- An element of an entry's source, as it was before any cluster wrote. -/
def Agent.source (a : Agent) (e : Entry) (r : Reg) (w k : Nat) : Nat :=
  match e.src with
  | some v => getField v (w * k) w
  | none => a.elem r w k

/-- The shift amount of R192: the low bits of b; an immediate within its limits is itself. -/
def shiftBy (w b : Nat) : Nat := b % w

/-- The value that an entry gives element `k`, with the flags it raises. -/
def laneVal (a : Agent) (e : Entry) (k : Nat) : FpRes :=
  match e.instr with
  | .vadd _ o => vint (fun _ x y => x + y) o a k
  | .vsub _ o => vint (fun w x y => x + 2 ^ w - y) o a k
  | .vmul _ o => vint (fun _ x y => x * y) o a k
  | .vmulh _ o => vint (fun w x y => umod w (sval w x * sval w y / (2 : Int) ^ w)) o a k
  | .vand _ o => vint (fun _ x y => x &&& y) o a k
  | .vor _ o => vint (fun _ x y => x ||| y) o a k
  | .vxor _ o => vint (fun _ x y => x ^^^ y) o a k
  | .vsll _ o => vint (fun w x y => x * 2 ^ shiftBy w y) o a k
  | .vsrl _ o => vint (fun w x y => x / 2 ^ shiftBy w y) o a k
  | .vsra _ o => vint (fun w x y => umod w (sval w x / (2 : Int) ^ shiftBy w y)) o a k
  | .vmin _ o => vint (fun w x y => if sval w x ≤ sval w y then x else y) o a k
  | .vmax _ o => vint (fun w x y => if sval w x ≤ sval w y then y else x) o a k
  | .vminu _ o => vint (fun _ x y => min x y) o a k
  | .vmaxu _ o => vint (fun _ x y => max x y) o a k
  | .vaddsat _ o => vint (fun w x y => umod w (saturate w (sval w x + sval w y))) o a k
  | .vfadd _ o => vfp (fun t rm sp x y => t.addV rm sp (t.val x) (t.val y)) o a e k
  | .vfsub _ o => vfp (fun t rm sp x y => t.addV rm sp (t.val x) (t.val y).neg) o a e k
  | .vfmul _ o => vfp (fun t rm sp x y => t.mulV rm sp (t.val x) (t.val y)) o a e k
  | .vfdiv _ o => vfp (fun t rm sp x y => t.divV rm sp (t.val x) (t.val y)) o a e k
  | .vfma _ o =>
    let w := widthBits (extSel o.ext)
    vfp (fun t rm sp x y => t.fmaV rm sp (t.val (a.elem o.a w k)) (t.val x) (t.val y)) o a e k
  | .vfmin _ o => vfp (fun t _ _ x y => t.minMax false x y) o a e k
  | .vfmax _ o => vfp (fun t _ _ x y => t.minMax true x y) o a e k
  | .vfsqrt _ o => vfu (fun t rm sp x => t.sqrtV rm sp (t.val x)) o a e k
  | .vfexp2 _ o => vfu (fun t rm sp x => t.exp2V rm sp (t.val x)) o a e k
  | .vbcast _ o =>
    let w := widthBits (extSel o.ext)
    ⟨match o.t with
     | .reg _ => (e.xs.getD 0 0).toNat % 2 ^ w
     | .imm i => umod w i.int, 0⟩
  | .vid _ o => ⟨k % 2 ^ widthBits (extSel o.ext), 0⟩
  | .vmerge _ o => ⟨a.elem o.b (widthBits (extSel o.ext)) k, 0⟩
  | .vmvv _ o => ⟨a.elem o.b (widthBits (extSel o.ext)) k, 0⟩
  | .vclass _ o => ⟨(vFmt (extSel o.ext)).classOf (a.elem o.b (widthBits (extSel o.ext)) k), 0⟩
  | .vcvt _ o => convert o.src.toNat o.dst.toNat (effRm e.rm) e.sp (a.source e o.b (codeBits o.src.toNat) k)
  | _ => ⟨0, 0⟩

/-- The destination of a local entry that writes elements: its register and element width. -/
def Instr.vdest : Instr → Option (Reg × Nat)
  | .vadd _ o | .vsub _ o | .vmul _ o | .vmulh _ o | .vand _ o | .vor _ o | .vxor _ o | .vsll _ o | .vsrl _ o | .vsra _ o
  | .vmin _ o | .vmax _ o | .vminu _ o | .vmaxu _ o | .vaddsat _ o | .vfadd _ o | .vfsub _ o | .vfmul _ o | .vfdiv _ o
  | .vfma _ o | .vfmin _ o | .vfmax _ o => some (o.a, widthBits (extSel o.ext))
  | .vfsqrt _ o | .vfexp2 _ o | .vmerge _ o | .vclass _ o | .vmvv _ o => some (o.a, widthBits (extSel o.ext))
  | .vbcast _ o | .vid _ o => some (o.a, widthBits (extSel o.ext))
  | .vcvt _ o => some (o.a, codeBits o.dst.toNat)
  | _ => none

/-! ### Compares (R200, R201) -/

/-- An integer condition (spec/03 R80). -/
def intCond (w cond x y : Nat) : Bool :=
  match cond with
  | 0 => x == y
  | 1 => x != y
  | 2 => decide (sval w x < sval w y)
  | 3 => decide (sval w y ≤ sval w x)
  | 4 => decide (x < y)
  | _ => decide (y ≤ x)

/-- A floating-point condition and its NV (R201). -/
def fpCond (cond : Nat) (a b : Val) : Bool × BitVec 5 :=
  let nan := a.isNan || b.isNan
  let s := nvOf [a, b]
  let c := cmpVal a b
  match cond with
  | 0 => (!nan && c == 0, s)
  | 1 => (nan || c != 0, s)
  | 2 => (!nan && decide (c < 0), if nan then flagNV else 0)
  | 3 => (!nan && decide (c ≤ 0), if nan then flagNV else 0)
  | 4 => (!nan && decide (0 < c), if nan then flagNV else 0)
  | 5 => (!nan && decide (0 ≤ c), if nan then flagNV else 0)
  | 6 => (nan, s)
  | _ => (!nan, s)

/-- The bit that a compare gives element `k`, with its flags. -/
def lanePred (a : Agent) (e : Entry) (k : Nat) : Bool × BitVec 5 :=
  match e.instr with
  | .vcmp _ o =>
    let w := widthBits o.ext.sel
    (intCond w (o.i.field 5 4) (a.elem o.ext.c w k) (a.elem o.i.low w k), 0)
  | .vfcmp _ o =>
    let w := widthBits o.ext.sel
    let t := vFmt o.ext.sel
    fpCond (o.i.field 5 4) (t.val (a.elem o.ext.c w k)) (t.val (a.elem o.i.low w k))
  | _ => (false, 0)

/-- A predicate with some bits written. -/
def Agent.setPBits (a : Agent) (p : Reg4) (l : List (Nat × Bool)) : Agent :=
  a.setP p (l.foldl (fun v b => setField v b.1 1 (bnat b.2)) (a.getP p))

/-- A predicate operation on one bit (spec/03 R81). -/
def plogBit (f : BitVec 3) (b c : Bool) : Bool :=
  match f.toNat with
  | 0 => b && c | 1 => b || c | 2 => b != c | 3 => b && !c | 4 => b || !c | 5 => !(b && c) | 6 => !(b || c) | _ => b == c

/-! ### The vector fault mask and `vfmc` (R196 to R199) -/

/-- One more change of `vfmc` or of the mask, in stream order. -/
def addLog (l : VfmcLog) : List VfmcLog → List VfmcLog
  | [] => [l]
  | m :: t => if l.seq < m.seq || (l.seq == m.seq && decide (l.elem < m.elem)) then l :: m :: t else m :: addLog l t

/-- Record a fault in an element (R196). -/
def Agent.recordFault (a : Agent) (e : Entry) (i cause : Nat) : Agent :=
  if (a.maskAt e.seq).getLsbD i then a
  else { a with vfmcLog := addLog ⟨e.seq, i, 1, cause, false, BitVec.ofNat 1024 (2 ^ i), 0⟩ a.vfmcLog }

/-- The fault-mask bits of a cluster, of all 1,024. -/
def Agent.maskBits (a : Agent) (g : Nat) : BitVec 1024 :=
  (a.clusterElems g 1024).foldl (fun m i => m ||| BitVec.ofNat 1024 (2 ^ i)) 0

/-- A cluster's bits of the fault mask cleared by an entry (R198, R199). -/
def Agent.clearFaults (a : Agent) (e : Entry) (g : Nat) : Agent :=
  { a with vfmcLog := addLog ⟨e.seq, 1024, 0, 0, false, 0, a.maskBits g⟩ a.vfmcLog }

/-! ### A cluster's part of a local entry -/

/-- A vector-stream trap of an entry at an element. -/
def Entry.trap (e : Entry) (cause : Nat) (addr info : Word) : Trap := ⟨cause, e.pc, addr, info, true, e.seq⟩

/-- The floating-point trap of an element (spec/04 R115). -/
def Entry.fpTrap (e : Entry) (i : Nat) (fl : BitVec 5) : Trap := e.trap 0x15 0 (fpInfo i (enabledFlags e.en fl))

/-- The lowest of some elements whose flags are enabled. -/
def fpTrapping (e : Entry) (l : List (Nat × BitVec 5)) : Option (Nat × BitVec 5) := l.find? fun q => enabledFlags e.en q.2 != 0

/-- The sum of flags. -/
def orFlags (l : List (BitVec 5)) : BitVec 5 := l.foldl (fun a b => a ||| b) 0

/-- What a cluster's part of an entry comes to: the agent after it, or the trap with its element. -/
abbrev LaneRes := Except (Nat × Trap) Agent

/-- Element writes under R188, or the trap of R189. -/
def runWrites (a : Agent) (e : Entry) (rd : Reg) (w : Nat) (els : List Nat) : LaneRes :=
  let act := els.filter fun i => e.active i
  let rs := act.map fun i => (i, laneVal a e i)
  match fpTrapping e (rs.map fun r => (r.1, r.2.flags)) with
  | some q => .error (q.1, e.fpTrap q.1 q.2)
  | none =>
    let zs := if e.zeroing then (els.filter fun i => !e.active i).map fun i => (i, 0) else []
    .ok ((a.setElems rd w ((rs.map fun r => (r.1, r.2.bits)) ++ zs)).raiseFlags e.era e.seq (orFlags (rs.map fun r => r.2.flags)))

/-- A speculative floating-point form (R197). -/
def runSpec (a : Agent) (e : Entry) (rd : Reg) (w : Nat) (els : List Nat) : LaneRes :=
  let rs := els.map fun i => (i, laneVal a e i)
  let bad (fl : BitVec 5) : Bool := enabledFlags e.en fl != 0
  let fl := orFlags (rs.map fun r => if e.active r.1 && !bad r.2.flags then r.2.flags else 0)
  let a := (a.setElems rd w (rs.map fun r => (r.1, r.2.bits))).raiseFlags e.era e.seq fl
  .ok ((rs.filter fun r => bad r.2.flags).foldl (fun a r => a.recordFault e r.1 0x15) a)

/-- Predicate writes under R201, or the trap of R189. -/
def runPred (a : Agent) (e : Entry) (p : Reg4) (els : List Nat) : LaneRes :=
  let rs := (els.filter fun i => e.active i).map fun i => (i, lanePred a e i)
  match fpTrapping e (rs.map fun r => (r.1, r.2.2)) with
  | some q => .error (q.1, e.fpTrap q.1 q.2)
  | none =>
    let zs := if e.zeroing then (els.filter fun i => !e.active i).map fun i => (i, false) else []
    .ok ((a.setPBits p ((rs.map fun r => (r.1, r.2.1)) ++ zs)).raiseFlags e.era e.seq (orFlags (rs.map fun r => r.2.2)))

/-- A result that an entry gives: the value arrives in the register it was issued for (spec/03 R86). -/
def Agent.answer (a : Agent) (seq : Nat) (v : Word) : Agent :=
  { a with inflight := a.inflight.map fun i =>
      if i.entry == some seq then { i with val := v.setWidth 256, ready := true, entry := none } else i }

/-- The value of `vmvx` (spec/08 R235). -/
def vmvxVal (a : Agent) (e : Entry) (o : VXS) : Word :=
  let w := widthBits o.ext.sel
  let j := match o.t with
    | .reg _ => (e.xs.getD 0 0).toNat
    | .imm i => i.word.toNat
  let v := if j < e.n then a.elem o.ext.c w j else 0
  if o.ext.sel.toNat ≤ 3 then sext w v else BitVec.ofNat 64 v

/-- The cluster whose part of `vmvx` gives the value. -/
def vmvxCluster (a : Agent) (e : Entry) (o : VXS) : Nat :=
  let j := match o.t with
    | .reg _ => (e.xs.getD 0 0).toNat
    | .imm i => i.word.toNat
  if j < e.n then a.homeCluster j else 0

/-- What cluster `g` does with its part of a local entry that touches no memory. -/
def runLocal (a : Agent) (e : Entry) (g : Nat) : LaneRes :=
  let els := a.clusterElems g e.n
  match e.instr with
  | .vcmp _ o | .vfcmp _ o => runPred a e o.p els
  | .vsel _ o =>
    let w := widthBits (extSel o.ext)
    .ok (a.setElems o.a w (els.map fun i => (i, if e.active i then a.elem (firstReg o.ext o.a) w i else a.elemOr o.t w i)))
  | .vmerge _ o =>
    match els.find? fun i => e.active i && (a.maskAt e.seq).getLsbD i with
    | some i => .error (i, e.trap 0x14 0 (BitVec.ofNat 64 (i * 2 ^ 32 + (a.vfmcAt e.seq).2 % 256)))
    | none =>
      match runWrites a e o.a (widthBits (extSel o.ext)) els with
      | .ok a => .ok (a.clearFaults e g)
      | .error t => .error t
  | .vfault _ o =>
    let bs := (a.clusterElems g (a.mvl 8)).map fun i => (i, (a.maskAt e.seq).getLsbD i)
    .ok ((a.setPBits o.p bs).clearFaults e g)
  | .plog _ o =>
    let b := a.getP o.b
    let c := a.getP o.c
    .ok (a.setPBits o.a ((a.clusterElems g (a.mvl 8)).map fun i => (i, plogBit o.f (b.getLsbD i) (c.getLsbD i))))
  | .vmvx _ o => .ok (if vmvxCluster a e o = g then a.answer e.seq (vmvxVal a e o) else a)
  | i =>
    match Instr.vdest i with
    | none => .ok a
    | some (rd, w) => if e.speculates then runSpec a e rd w els else runWrites a e rd w els

end Sys2Proof.Machine
end

