-- ==== Sys2Proof/Machine/VecMem.lean ====
section
/-! DEFINITION. Sys2Proof/Machine/VecMem.lean: vector memory: element addresses and the decisions of the address stage (spec/02 R42, spec/08
R208 to R220), and what a cluster does with its part of a memory entry. -/

namespace Sys2Proof.Machine

/-! ### Addresses -/

/-- The kind of a memory entry: store, scratchpad, consuming load, remote through a key. -/
structure MemKind where
  store   : Bool
  scratch : Bool
  consume : Bool
  remote  : Bool
  deriving DecidableEq, Repr

/-- The memory entries of page 3, but for `vappend`, and the remote ones of page 6. -/
def Instr.memKind : Instr → Option MemKind
  | .vld _ _ | .vlds _ _ | .vldx _ _ => some ⟨false, false, false, false⟩
  | .vst _ _ | .vsts _ _ | .vstx _ _ | .vstc _ _ => some ⟨true, false, false, false⟩
  | .vlsp _ _ | .vlspx _ _ => some ⟨false, true, false, false⟩
  | .vssp _ _ | .vsspx _ _ => some ⟨true, true, false, false⟩
  | .vlspc _ _ => some ⟨false, true, true, false⟩
  | .vldc _ _ => some ⟨false, false, true, false⟩
  | .rvld _ _ => some ⟨false, false, false, true⟩
  | .rvst _ _ => some ⟨true, false, false, true⟩
  | _ => none

/-- The base of an ADR form from the operands captured in the order of its fields (R168, R208). -/
def ADR.base (o : ADR) (xs : List Word) : Word :=
  match o.t with
  | .reg _ => xs.getD 0 0 + (if o.ext.isSome then xs.getD 1 0 else 0)
  | .imm i => i.word + (if o.ext.isSome then xs.getD 0 0 else 0)

/-- The address, or scratchpad offset, of element `i` (R208, R216). -/
def elemAddr (a : Agent) (e : Entry) (i : Nat) : Word :=
  let w := Instr.vwidth e.instr
  let wb := w / 8
  let x0 := e.xs.getD 0 0
  let lanes := 16 * max 1 a.nclusters
  match e.instr with
  | .vld _ o | .vst _ o | .vldc _ o => ADR.base o e.xs + BitVec.ofNat 64 (wb * i)
  | .vstc _ _ => x0 + BitVec.ofNat 64 (wb * i)
  | .vlds _ _ | .vsts _ _ => x0 + e.xs.getD 1 0 * BitVec.ofNat 64 i
  | .vldx _ o | .vstx _ o | .vlspx _ o | .vsspx _ o => x0 + BitVec.ofNat 64 (wb * a.elem o.ext.c w i)
  | .vlsp _ o | .vssp _ o | .vlspc _ o => ADR.base o e.xs + BitVec.ofNat 64 (wb * (i / lanes))
  | .rvld _ _ | .rvst _ _ => x0 + BitVec.ofNat 64 (wb * i)
  | _ => 0

/-- The data register of a memory entry. -/
def Instr.dataReg : Instr → Reg
  | .vld _ o | .vst _ o | .vldc _ o | .vlsp _ o | .vssp _ o | .vlspc _ o => o.a
  | .vlds _ o | .vsts _ o | .vldx _ o | .vstx _ o | .vlspx _ o | .vsspx _ o | .vstc _ o => o.a
  | .vappend _ o => o.a
  | .rvld _ o | .rvst _ o => o.a
  | _ => 0

/-! ### The address stage -/

/-- One element's decision: its address and a place, or the cause (R209, R217). -/
structure Probe where
  i    : Nat
  addr : Word
  res  : Except Nat Lane

/-- The checks of one element. -/
def State.probeElem (s : State) (e : Entry) (k : MemKind) (i : Nat) (addr : Word) : Probe × State :=
  let wb := Instr.vwidth e.instr / 8
  if k.scratch then
    let r : Except Nat Lane :=
      if s.laneBytes s.me.loc s.me.rid < addr.toNat + wb then .error 0x0C
      else if addr.toNat % wb != 0 then .error 0x04
      else .ok ⟨i, addr.toNat, 0, 0, false, none⟩
    (⟨i, addr, r⟩, s)
  else if k.remote then
    -- steps 2 and 3 of spec/11 R312, over the window offset
    let o := (e.xs.getD 0 0).toNat + wb * i
    let r : Except Nat Lane :=
      if getField e.key 128 40 < o + wb then .error 0x08
      else if (getField e.key 64 64 + o) % wb != 0 then .error 0x04
      else .ok ⟨i, o, 0, 0, false, none⟩
    (⟨i, addr, r⟩, s)
  else if addr.toNat % wb != 0 then (⟨i, addr, .error 0x04⟩, s)
  else match s.translate s.mySpace addr.toNat (if k.store then .write else .read) with
    | (.error c, s) => (⟨i, addr, .error c⟩, s)
    | (.ok (pa, v), s) => (⟨i, addr, .ok ⟨i, pa, v.key, 0, false, none⟩⟩, s)

/-- The checks of some elements, ascending. -/
def State.probeAll (s : State) (e : Entry) (k : MemKind) : List Nat → List Probe × State
  | [] => ([], s)
  | i :: t =>
    let p := s.probeElem e k i (elemAddr s.me e i)
    let r := p.2.probeAll e k t
    (p.1 :: r.1, r.2)

/-- An element that faults. -/
def Probe.bad (p : Probe) : Bool := match p.res with | .error _ => true | .ok _ => false

/-- The cause of an element, 0 without one. -/
def Probe.cause (p : Probe) : Nat := match p.res with | .error c => c | .ok _ => 0

/-- The lane of an element. -/
def Probe.lane (p : Probe) : Lane := match p.res with | .error c => ⟨p.i, 0, 0, c, false, none⟩ | .ok l => l

/-- The type-3 debug entries that match an element (spec/19 R446). -/
def State.elemMatches (s : State) (k : MemKind) (wb : Nat) (p : Probe) : List DebugEntry :=
  if k.scratch || k.remote || p.bad then []
  else (s.debugFor s.me).filter fun d =>
    d.ty == 3 && (if k.store then d.wr else d.rd) && d.hits p.addr.toNat wb
      && (d.clusters == 0 || d.clusters.testBit (s.me.clusters.getD (s.me.homeCluster p.i) 0))

/-- A stop of the vector stream at an entry's element: the lowest entry wins, and within it the lowest element (R43). -/
def Agent.stopAt (a : Agent) (elem : Nat) (t : Trap) : Agent :=
  match a.vstop with
  | none => { a with vstop := some ⟨t.seq, elem, t, false⟩ }
  | some v => if t.seq < v.seq || (t.seq == v.seq && decide (elem < v.elem)) then { a with vstop := some ⟨t.seq, elem, t, false⟩ } else a

/-- An address-stage trap of an element (R209). -/
def Entry.elemTrap (e : Entry) (cause : Nat) (addr : Word) (i : Nat) : Trap := e.trap cause addr (BitVec.ofNat 64 (i * 2 ^ 32))

/-- Replace the entry of a sequence number. -/
def Agent.putEntry (a : Agent) (e : Entry) : Agent := { a with queue := mapIf (fun q => q.seq == e.seq) (fun _ => e) a.queue }

/-- Watch records of an entry's elements, and the first element whose match stops it: the entries of it that are to watch leave their records too (spec/19
R446, R447). -/
def State.debugElems (s : State) (k : MemKind) (wb : Nat) : List Probe → Option (Probe × List DebugEntry) × State
  | [] => (none, s)
  | p :: t =>
    let es := s.elemMatches k wb p
    let stops := es.filter fun d => !d.watch
    let s := s.watches s.me p.addr p.i (es.filter DebugEntry.watch)
    if !stops.isEmpty then (some (p, stops), s) else s.debugElems k wb t

/-- The entry has its places and passes. -/
def State.passEntry (s : State) (e : Entry) : State := s.upd fun a => a.putEntry { e with passed := true }

/-- The end of the address stage for probed elements: debug stops among the active elements kept, then the entry passes. -/
def State.settleElems (s : State) (e : Entry) (k : MemKind) (keep : List Probe) : State :=
  match s.debugElems k (Instr.vwidth e.instr / 8) (keep.filter fun p => e.active p.i) with
  | (some (p, es), s) =>
    let s := if es.any DebugEntry.all then s.stopAll s.me else s
    s.upd fun a => a.stopAt p.i (e.elemTrap 0x20 p.addr p.i)
  | (none, s) => s.passEntry { e with lanes := keep.map Probe.lane }

/-- The trap of the lowest faulting element `p`, or the debug stop of a matching element below it (spec/19 R446). -/
def State.faultElem (s : State) (e : Entry) (k : MemKind) (p : Probe) (ps : List Probe) : State :=
  match s.debugElems k (Instr.vwidth e.instr / 8) (ps.filter fun q => decide (q.i < p.i)) with
  | (some (q, es), s) =>
    let s := if es.any DebugEntry.all then s.stopAll s.me else s
    s.upd fun a => a.stopAt q.i (e.elemTrap 0x20 q.addr q.i)
  | (none, s) => s.upd fun a => a.stopAt p.i (e.elemTrap p.cause p.addr p.i)

/-- The address stage of a memory entry with its `vl`, mask and element count (R42, R209 to R212, R217). -/
def State.stageMem (s : State) (e : Entry) (k : MemKind) : State :=
  let els := (List.range e.n).filter fun i => e.speculates || e.active i
  let r := s.probeAll e k els
  let ps := r.1
  let s := r.2
  match ps.find? Probe.bad with
  | none => s.settleElems e k ps
  | some p =>
    if e.speculates then s.settleElems e k ps
    else if k.store || p.i == 0 || e.redo then s.faultElem e k p ps
    else
      let faults := (ps.filter Probe.bad).length
      let keep := ps.filter fun q => decide (q.i < p.i)
      match s.debugElems k (Instr.vwidth e.instr / 8) keep with
      | (some (q, es), s) =>
        let s := if es.any DebugEntry.all then s.stopAll s.me else s
        s.upd fun a => a.stopAt q.i (e.elemTrap 0x20 q.addr q.i)
      | (none, s) =>
        let s := s.passEntry { e with vl := p.i, n := p.i, lanes := keep.map Probe.lane }
        s.upd fun a => { a with vl := p.i, vfmcLog := addLog ⟨e.seq, p.i, faults, p.cause, false, 0, 0⟩ a.vfmcLog }

/-! ### A cluster's part: generic memory -/

/-- The way of an element's access: the region's, through its leaf's key. -/
def State.laneVia (s : State) (l : Lane) : Via := { s.via s.me.loc s.me.rid with key := l.key }

/-- The lanes of an entry that a cluster holds. -/
def Agent.clusterLanes (a : Agent) (e : Entry) (g : Nat) : List Lane := e.lanes.filter fun l => a.homeCluster l.i == g

/-- The zeros of R188 for the inactive elements of a cluster. -/
def zeroLanes (a : Agent) (e : Entry) (g : Nat) : List (Nat × Nat) :=
  if e.zeroing then ((a.clusterElems g e.n).filter fun i => !e.active i).map fun i => (i, 0) else []

/-- A read that met poisoned data is reported after issue, with the lowest such element (spec/20 R467; log entry 15). -/
def Entry.readFailure (e : Entry) (i : Nat) : Failure := ⟨e.order, ⟨0x22, 0, e.pc, BitVec.ofNat 64 (i * 2 ^ 32), false, 0⟩, true⟩

/-- Read the lanes of a load: the elements' values, with the first element that met poisoned data. -/
def State.readLanes (s : State) (wb : Nat) : List Lane → List (Nat × Nat) × Option Nat × State
  | [] => ([], none, s)
  | l :: t =>
    if l.cause != 0 then
      let r := s.readLanes wb t
      ((l.i, 0) :: r.1, r.2.1, r.2.2)
    else
      let v := s.laneVia l
      if s.readBad v l.place then
        let bad := (Config.freeWord s.fresh).toNat % 2 ^ (8 * wb)
        let s := { s with fresh := s.fresh + 1 }.foundError v.loc (s.poisonUnit v.loc.mod (l.place / 128)) l.place
        let r := s.readLanes wb t
        ((l.i, bad) :: r.1, some l.i, r.2.2)
      else
        let d := s.readLine v l.place wb
        let r := d.2.readLanes wb t
        ((l.i, bytesNat d.1) :: r.1, r.2.1, r.2.2)

/-- The elements of a load written, the faults of a speculative one recorded (R211). -/
def Agent.loaded (a : Agent) (e : Entry) (g : Nat) (vals : List (Nat × Nat)) : Agent :=
  let a := a.setElems (Instr.dataReg e.instr) (Instr.vwidth e.instr) (vals ++ zeroLanes a e g)
  ((a.clusterLanes e g).filter fun l => l.cause != 0).foldl (fun a l => a.recordFault e l.i l.cause) a

/-- A cluster's part of a load from generic memory (R210, R211, R214). -/
def State.runLoad (s : State) (e : Entry) (g : Nat) : State :=
  let r := s.readLanes (Instr.vwidth e.instr / 8) (s.me.clusterLanes e g)
  let s := r.2.2.upd fun a => a.loaded e g r.1
  match r.2.1 with
  | none => s
  | some i => s.upd fun a => { a with failures := addFailure (e.readFailure i) a.failures }

/-- The bytes of element `l` that no higher element of the entry writes, as stretches (R212): offset and byte. -/
def ownBytes (lanes : List Lane) (wb : Nat) (l : Lane) (bs : List Byte) : List (Nat × Byte) :=
  (bs.zipIdx.filter fun b => !(lanes.any fun m =>
    decide (l.i < m.i) && decide (m.place ≤ l.place + b.2) && decide (l.place + b.2 < m.place + wb))).map fun b => (b.2, b.1)

/-- Entries whose elements may name the same byte: strided and indexed ones. -/
def Instr.mayOverlap : Instr → Bool
  | .vsts _ _ | .vstx _ _ | .vsspx _ _ => true
  | _ => false

/-- The store values of an element (R215). -/
def State.elemTag (s : State) (e : Entry) (i : Nat) (addr : Word) : StoreTag :=
  ⟨s.me.uid, s.me.loc, s.me.rid, s.me.tid, e.order, e.pc, addr, true, i, 0, 7, 0⟩

/-- Write one element's bytes: all of them, or those of R212. Where a higher element provides every byte of one, the spec does not say that the lower one
can fail at its home: the model writes and reports the higher one alone (DESIGN CHOICE, log entry 55). -/
def State.storeElem (s : State) (e : Entry) (wb : Nat) (l : Lane) (addr : Word) (v : Nat) : State :=
  let bs := natBytes wb v
  let via := s.laneVia l
  let tag := s.elemTag e l.i addr
  let own := if Instr.mayOverlap e.instr then ownBytes e.lanes wb l bs else bs.zipIdx.map fun b => (b.2, b.1)
  if own.length = wb then s.writeLine via tag l.place bs
  else own.foldl (fun s b => s.writeLine via tag (l.place + b.1) [b.2]) s

/-- A cluster's part of a plain store to generic memory (R212, R214, R215). -/
def State.runStore (s : State) (e : Entry) (g : Nat) : State :=
  let w := Instr.vwidth e.instr
  (s.me.clusterLanes e g).foldl
    (fun s l => s.storeElem e (w / 8) l (elemAddr s.me e l.i) (s.me.elem (Instr.dataReg e.instr) w l.i)) s

/-! ### A cluster's part: scratchpad (R216 to R218) -/

/-- The line that an element of the agent touches. -/
def State.laneLine (s : State) (l : Lane) : SLine := s.sline s.me.loc s.me.rid (s.me.elemSlice l.i) (l.place / 128)

/-- A load waits while a line that it touches is PENDING (R134). -/
def State.mustWaitLine (s : State) (e : Entry) (g : Nat) : Bool :=
  (s.me.clusterLanes e g).any fun l => l.cause == 0 && (s.laneLine l).pending

/-- The values of a scratchpad load; those of a poisoned line are unpredictable (spec/20 R467). -/
def State.scrVals (s : State) (e : Entry) (g : Nat) : List (Nat × Nat) :=
  (s.me.clusterLanes e g).map fun l =>
    (l.i, if l.cause != 0 then 0
      else if (s.laneLine l).bad then (Config.freeWord (s.fresh + l.i)).toNat % 2 ^ Instr.vwidth e.instr
      else s.scrRead s.me.loc s.me.rid (s.me.elemSlice l.i) l.place (Instr.vwidth e.instr / 8))

/-- The values of a scratchpad load are written; one that met a poisoned line is reported, with its lowest such element (log entry 15). -/
def State.scrLoaded (s : State) (e : Entry) (g : Nat) (vals : List (Nat × Nat)) : Option Nat → State
  | none => s.upd fun a => a.loaded e g vals
  | some i =>
    { s with fresh := s.fresh + 1024 }.foundError s.me.loc 4 (s.me.elemSlice i * 16384) |>.upd fun a =>
      { a.loaded e g vals with failures := addFailure (e.readFailure i) a.failures }

/-- The lowest element of a cluster's part whose line is poisoned. -/
def State.scrBad (s : State) (e : Entry) (g : Nat) : Option Nat :=
  ((s.me.clusterLanes e g).find? fun l => l.cause == 0 && (s.laneLine l).bad).map Lane.i

/-- A plain or speculative scratchpad load. -/
def State.runScrLoad (s : State) (e : Entry) (g : Nat) : State := s.scrLoaded e g (s.scrVals e g) (s.scrBad e g)

/-- A scratchpad store: every line of the part is checked before anything is written (R217). -/
def State.runScrStore (s : State) (e : Entry) (g : Nat) : Except (Nat × Trap) Unit × State :=
  let w := Instr.vwidth e.instr
  let ls := s.me.clusterLanes e g
  match ls.find? fun l => (s.laneLine l).storeCause.isSome with
  | some l =>
    (.error (l.i, e.elemTrap ((s.laneLine l).storeCause.getD 0) (BitVec.ofNat 64 l.place) l.i), s)
  | none =>
    (.ok (), ls.foldl (fun s l =>
      s.scrWrite s.me.loc s.me.rid (s.me.elemSlice l.i) l.place (natBytes (w / 8) (s.me.elem (Instr.dataReg e.instr) w l.i))) s)

/-- A consuming scratchpad load (R218): every touched line is checked, then each is lowered once. -/
def State.runScrConsume (s : State) (e : Entry) (g : Nat) : Except (Nat × Trap) Unit × State :=
  let ls := s.me.clusterLanes e g
  match ls.find? fun l => !(s.laneLine l).full with
  | some l => (.error (l.i, e.elemTrap 0x0E (BitVec.ofNat 64 l.place) l.i), s)
  | none =>
    let vals := s.scrVals e g
    let bad := s.scrBad e g
    let keys := (ls.map fun l => (s.me.elemSlice l.i, l.place / 128)).eraseDups
    let s := keys.foldl (fun s q => s.setSline (s.sline s.me.loc s.me.rid q.1 q.2).consumed) s
    (.ok (), s.scrLoaded e g vals bad)

/-! ### Counted lines (R219, R220) -/

/-- The lines that a cluster's part touches. -/
def Agent.partLines (a : Agent) (e : Entry) (g : Nat) : List Nat := ((a.clusterLanes e g).map fun l => l.place / 128).eraseDups

/-- Clusters that share a line with a group join it. -/
def Agent.growGroup (a : Agent) (e : Entry) (gs : List Nat) : List Nat :=
  (List.range a.nclusters).filter fun h =>
    gs.contains h || (a.partLines e h).any fun n => gs.any fun g => (a.partLines e g).contains n

/-- The clusters that complete a counted access together: those whose parts share a line, since a line is filled whole and read once for
the entry (R137, R138). -/
def Agent.lineGroup (a : Agent) (e : Entry) (g : Nat) : List Nat :=
  a.growGroup e (a.growGroup e (a.growGroup e [g]))

/-- The lanes of a group of clusters, ascending. -/
def Agent.groupLanes (a : Agent) (e : Entry) (gs : List Nat) : List Lane := e.lanes.filter fun l => gs.contains (a.homeCluster l.i)

/-- An entry that has met a poisoned counted line: it is reported after issue, with the lowest such element, and the line's bytes are unpredictable (spec/20
R467; log entry 15). -/
def State.consumeBad (s : State) (e : Entry) (l : Lane) : BitVec 1024 × State :=
  let d := BitVec.ofNat 1024 (bytesNat (freeBytes s.fresh 128))
  let v := s.laneVia l
  let s := { s with fresh := s.fresh + 1 }.foundError v.loc (s.poisonUnit v.loc.mod (l.place / 128)) l.place
  (d, s.upd fun a => { a with failures := addFailure (e.readFailure l.i) a.failures })

/-- Consuming reads of the lines that lanes touch, once for each line, ascending: the bytes read, or the lane whose line is not counted. -/
def State.consumeLanes (s : State) (e : Entry) (got : List (Nat × BitVec 1024)) : List Lane → Except Lane (List (Nat × BitVec 1024)) × State
  | [] => (.ok got, s)
  | l :: t =>
    let v := s.laneVia l
    if got.any fun q => q.1 == l.place / 128 then s.consumeLanes e got t
    else
      let bad := s.poisoned v.loc.mod (l.place / 128)
      match s.consume v l.place with
      | (.error _, s) => (.error l, s)
      | (.ok d, s) =>
        let r := if bad then s.consumeBad e l else (d, s)
        r.2.consumeLanes e (got ++ [(l.place / 128, r.1)]) t

/-- `vldc` for a group of clusters (R219, R138). -/
def State.runVldc (s : State) (e : Entry) (gs : List Nat) : Except (Nat × Trap) Unit × State :=
  let w := Instr.vwidth e.instr
  match s.consumeLanes e [] (s.me.groupLanes e gs) with
  | (.error l, s) => (.error (l.i, e.elemTrap 0x0E (elemAddr s.me e l.i) l.i), s)
  | (.ok got, s) =>
    let val (l : Lane) : Nat :=
      match got.find? fun q => q.1 == l.place / 128 with
      | some q => bytesNat (lineBytes q.2 (l.place % 128) (w / 8))
      | none => 0
    (.ok (), gs.foldl (fun s g => s.upd fun a => a.loaded e g ((a.clusterLanes e g).map fun l => (l.i, val l))) s)

/-- The bytes of a line that the elements of an entry write, zero elsewhere (R137). -/
def fillImage (a : Agent) (e : Entry) (line : Nat) : BitVec 1024 :=
  let w := Instr.vwidth e.instr
  (e.lanes.filter fun l => l.place / 128 == line).foldl
    (fun d l => setField d (8 * (l.place % 128)) w (a.elem (Instr.dataReg e.instr) w l.i)) 0

/-- Counted fills of the lines that lanes touch, once for each: the lane whose line failed, with the cause. -/
def State.fillLanes (s : State) (e : Entry) (count : Nat) (done : List Nat) : List Lane → Except (Lane × Nat) Unit × State
  | [] => (.ok (), s)
  | l :: t =>
    if done.contains (l.place / 128) then s.fillLanes e count done t
    else match s.countedFill (s.laneVia l) l.place (fillImage s.me e (l.place / 128)) count with
      | (.error c, s) => (.error (l, c), s)
      | (.ok (), s) => s.fillLanes e count (l.place / 128 :: done) t

/-- The reader count of a `vstc` (R220). -/
def Entry.readers (e : Entry) : Nat := (e.xs.getD 1 0).toNat % 256

/-- `vstc` with a reader count for a group of clusters (R220). -/
def State.runVstc (s : State) (e : Entry) (gs : List Nat) : Except (Nat × Trap) Unit × State :=
  match s.fillLanes e e.readers [] (s.me.groupLanes e gs) with
  | (.error (l, c), s) => (.error (l.i, e.elemTrap c (elemAddr s.me e l.i) l.i), s)
  | (.ok (), s) => (.ok (), s)

end Sys2Proof.Machine
end

