-- ==== Sys2Proof/Machine/Remote.lean ====
section
/-! DEFINITION. Sys2Proof/Machine/Remote.lean: requests at their source (spec/18 R426, R433 to R435, R441) and the remote loads, stores and
atomics of page 6 (spec/11 R310 to R316). -/

namespace Sys2Proof.Machine

/-! ### Ports (R431) -/

/-- A fabric port of a module, or a port of a vault node; one not listed is up with both lanes (log entry 8). -/
def State.port (s : State) (ep n : Nat) : Port :=
  (s.ports.find? fun p => p.ep == ep && p.n == n).getD ⟨ep, n, 3, true, false, false, 0, 0, false, [], 0, 0, [], 0, 0, 0, 0, [], 0⟩

/-- Change a port. -/
def State.updPort (s : State) (ep n : Nat) (f : Port → Port) : State :=
  { s with ports := upsert (fun p => p.ep == ep && p.n == n) (f (s.port ep n)) s.ports }

/-- A port that carries packets. -/
def Port.works (p : Port) : Bool := p.up && !p.training && !p.dead

/-- The bytes that a port carries in 1 µs (R431). -/
def Port.rate (p : Port) : Nat := if p.lanes % 4 = 3 then 112000 else if p.lanes % 4 = 0 then 0 else 56000

/-- The port by which a request with `resent` retransmissions leaves (R433): 255 for an endpoint of the issuing module, none while every
port of the path set is down. -/
def State.choosePort (s : State) (mod : Nat) (k : Key) (line resent : Nat) : Option Nat :=
  if kEgr k = 255 then some 255
  else
    let n := max 1 (kPaths k)
    ((List.range n).map fun i => kPort k ((pathHash line + resent + i) % n)).find? fun p => (s.port mod p).works

/-! ### Packets (R426) -/

/-- What the path and bucket of a packet are hashed from: the target line, or the key's base for a message or a notice (R304, R435). -/
def Packet.line (p : Packet) : Nat :=
  if p.op = 4 || p.op = 5 || p.op = 8 then kBase p.key / 128 else (kBase p.key + p.off) % 2 ^ 64 / 128

/-- The pieces of a read in four words: the offset and the bytes of the first, their number, and how far one stands from the next. -/
def readWords : List Word → List Word
  | [o, n] => [o, n, 1, 0]
  | o :: n :: o' :: n' :: t => [o, n, BitVec.ofNat 64 (2 + t.length / 2), o' - o + 0 * n']
  | _ => []

/-- The data of a packet: its bytes, and after them the operands for which the header has no field: the pieces of a read, the second operand of an atomic, the
attributes of a unit, a notice's words, and the reply key of a message (log entry 21). -/
def Packet.body (p : Packet) : List Byte :=
  p.data ++ wordsBytes (if p.op = 1 then readWords p.aux else p.aux) ++ match p.msg with
    | some m => if m.reply = 0 then [] else natBytes 32 m.reply.toNat
    | none => []

/-- The bytes of a packet on a link. -/
def Packet.size (p : Packet) : Nat := 64 + 16 * ceilDiv p.body.length 16

/-- A response or a refusal. -/
def Packet.isAnswer (p : Packet) : Bool := p.op == 6 || p.op == 7

/-- The virtual network of a packet (R428): VN1 for responses, refusals and VN1 messages. -/
def Packet.vn (p : Packet) : Nat := if p.isAnswer || p.op == 5 then 1 else 0

/-- A request packet before it is numbered. -/
def Packet.request (loc : Loc) (key : Key) (off op sub holder : Nat) (data : List Byte) (aux : List Word) : Packet where
  key := key
  off := off
  op := op
  sub := sub
  holder := holder
  srcMod := loc.mod
  srcDie := loc.die
  bucket := 0
  seq := 0
  stamp := 0
  data := data
  aux := aux
  msg := none
  target := kVout key
  req := 0
  given := false

/-! ### Injection shares (R441) -/

/-- Bytes more of a limit of which some are used: they fit, or nothing is used and they are more than the limit ever allows, since no packet is refused. -/
def shareFits (used more limit : Nat) : Bool := decide (used + more ≤ limit) || (used == 0 && decide (limit < more))

/-- The bytes that a port carries for an interface in 1 µs: its share in 1/256 of the port's rate. -/
def State.shareLimit (s : State) (mod port vif : Nat) : Nat :=
  let share := ((s.vifs.find? fun f => f.mod == mod && f.vif == vif).bind fun f => (f.shares.find? fun q => q.1 == port).map Prod.snd).getD 256
  share * (s.port mod port).rate / 256

/-- Other regions of an interface whose packets wait for a port. -/
def State.sharers (s : State) (mod port rid vif : Nat) : List Region :=
  s.regions.filter fun r => r.mod == mod && r.vif == vif && r.rid != rid &&
    s.reqs.any fun q => q.queued && q.loc.mod == mod && q.rid == r.rid && s.choosePort mod q.pkt.key q.pkt.line 0 == some port

/-- A region may inject a packet on a port now: with what the last 1 µs carried for its interface, and among the regions of the interface that wait for the
port in proportion to `PRIO` + 1. -/
def State.mayInject (s : State) (mod port rid size : Nat) : Bool :=
  if port = 255 then true
  else match s.region? mod rid with
    | none => true
    | some r =>
      let here := s.inject.filter fun i => i.mod == mod && i.port == port && i.vif == r.vif && decide (s.meridian mod < i.at_ + 1000)
      let total (l : List Inject) : Nat := l.foldl (fun n i => n + i.bytes) 0
      let limit := s.shareLimit mod port r.vif
      let others := s.sharers mod port rid r.vif
      let all := others.foldl (fun n i => n + i.prio + 1) (r.prio + 1)
      limit != 0 && shareFits (total here) size limit
        && (others.isEmpty || shareFits (total (here.filter fun i => i.rid == rid)) size (limit * (r.prio + 1) / all))

/-- Bytes injected; those of more than 1 µs ago count no more. -/
def State.injected (s : State) (mod port rid size : Nat) : State :=
  if port = 255 then s
  else
    let vif := ((s.region? mod rid).map Region.vif).getD 0
    let now := s.meridian mod
    { s with inject := (s.inject.filter fun i => i.mod != mod || decide (now < i.at_ + 1000)) ++ [⟨mod, port, vif, rid, now, size⟩] }

/-! ### Requests (R434, R435) -/

/-- Two requests of one stream and bucket. -/
def Request.sameBucket (a b : Request) : Bool :=
  a.loc.mod == b.loc.mod && a.loc.die == b.loc.die && a.target == b.target && a.pkt.bucket == b.pkt.bucket

/-- A held request leaves its source, if a port of its path set is up, its bucket has fewer than 32 unanswered packets and its region's share
allows it. -/
def State.trySend (s : State) (q : Request) : State :=
  let open_ := s.reqs.filter fun r => r.sameBucket q && !r.queued
  if 32 ≤ open_.length then s
  else match s.choosePort q.loc.mod q.pkt.key q.pkt.line 0 with
    | none => s
    | some port =>
      if !s.mayInject q.loc.mod port q.rid q.pkt.size then s
      else
        let now := s.meridian q.loc.mod
        let pkt := { q.pkt with stamp := now % 2 ^ 32, req := q.req }
        let s := s.injected q.loc.mod port q.rid pkt.size
        { s with reqs := mapIf (fun r => r.req == q.req) (fun r => { r with queued := false, first := now, pkt := pkt }) s.reqs,
                 flights := s.flights ++ [⟨pkt, .egress, port⟩] }

/-- Held requests leave in order, those of one bucket never before an earlier one of it. -/
def State.pumpAll : List Request → List Request → State → State
  | [], _, s => s
  | q :: t, held, s =>
    if held.any fun r => r.sameBucket q then State.pumpAll t held s
    else
      let s := s.trySend q
      let stays := s.reqs.any fun r => r.req == q.req && r.queued
      State.pumpAll t (if stays then q :: held else held) s

/-- THE NUMBER OF A PACKET (R435): the source numbers the packets that leave it, per stream and bucket; a retransmission carries the number of the
first sending. None for a packet whose request is over. -/
def State.numbered (s : State) (p : Packet) : Option (Packet × State) :=
  if p.given then some (p, s)
  else match s.reqs.find? fun q => q.req == p.req with
    | none => none
    | some q =>
      if q.pkt.given then some ({ p with seq := q.pkt.seq, given := true }, s)
      else
        let mine (n : SeqNext) : Bool := n.mod == q.loc.mod && n.die == q.loc.die && n.target == q.target && n.bucket == q.pkt.bucket
        let seq := ((s.seqs.find? mine).map SeqNext.next).getD 0
        some ({ p with seq := seq, given := true },
          { s with seqs := upsert mine ⟨q.loc.mod, q.loc.die, q.target, q.pkt.bucket, (seq + 1) % 65536⟩ s.seqs,
                   reqs := mapIf (fun r => r.req == q.req) (fun r => { r with pkt := { r.pkt with seq := seq, given := true } }) s.reqs })

/-- Every held request that may leave does. -/
def State.pump (s : State) : State := State.pumpAll (s.reqs.filter Request.queued) [] s

/-- A packet that changes what its target holds: a write, an atomic. -/
def Packet.changes (p : Packet) : Bool := p.op == 2 || p.op == 3

/-- A write or an atomic of a die to a target has still to be answered. -/
def State.writing (s : State) (mod die target : Nat) : Bool :=
  s.reqs.any fun q => q.loc.mod == mod && q.loc.die == die && q.target == target && q.pkt.changes

/-- A write or an atomic leaves: what its die reads of the target meanwhile is not kept (spec/05 R146, R147). -/
def State.unkept (s : State) (loc : Loc) (pkt : Packet) : State :=
  if pkt.changes then
    { s with reqs := mapIf (fun q => q.loc.mod == loc.mod && q.loc.die == loc.die && q.target == pkt.target) (fun q => { q with keep := false }) s.reqs }
  else s

/-- A read whose bytes the RDC of its die may keep: one result, through a key with the cache right to another endpoint (spec/05 R131). -/
def ReqUse.kept (u : ReqUse) (loc : Loc) (pkt : Packet) : Bool :=
  match u with
  | .result _ _ _ _ => pkt.op == 1 && kHas pkt.key 4 && pkt.target != loc.mod
  | _ => false

/-- A new request of a region on a core, numbered `s.nextReq`. -/
def State.request (s : State) (loc : Loc) (rid : Nat) (pkt : Packet) (use : ReqUse) : State :=
  let pkt := { pkt with bucket := pathHash pkt.line % 64 }
  let keep := use.kept loc pkt && !s.writing loc.mod loc.die pkt.target
  let q : Request := ⟨s.nextReq, loc, rid, pkt.target, pkt, s.meridian loc.mod, 0, true, use, keep, none, 0⟩
  let s := s.unkept loc pkt
  { s with reqs := s.reqs ++ [q], nextReq := s.nextReq + 1 }.pump

/-- A request of the agent whose turn it is. -/
def State.myRequest (s : State) (key : Key) (off op sub : Nat) (data : List Byte) (aux : List Word) (use : ReqUse) : State :=
  s.request s.me.loc s.me.rid (Packet.request s.me.loc key off op sub s.myHolder data aux) use

/-! ### Lines read through keys with the cache right (spec/05 R131, R154) -/

/-- The name of a line in key windows: the generation, die and address through which it was read. -/
def keyedName (k : Key) (off : Nat) : Nat := ((kGen k * 16 + kDie k) * 2 ^ 57) + (kBase k + off) % 2 ^ 64 / 128

/-- The name that a key reaches. -/
def State.keyEndpoint (s : State) (k : Key) : Endpoint :=
  if kKind k = 0 then s.endpoint (kVout k) (kDie k) 0 0 (bits (kBase k) 30 27)
  else s.endpoint (kVout k) (kDie k) (kKind k) (kUnit k) 0

/-- Where accesses through a kind-0 key are translated: in the owner's address space, at the ingress, in the target die's data TLB (R424). -/
def State.ownerSpace (s : State) (k : Key) : Space :=
  let rid := ((s.keyEndpoint k).owner).getD 0
  s.space ⟨kVout k, kDie k, 0⟩ .ingress rid (((s.region? (kVout k) rid).map Region.level).getD 0)

/-- The physical spans of `n` bytes at an address behind a kind-0 key, each reached from its home: a vault's addresses are physical (log entry 5). -/
def State.targetSpans (s : State) (k : Key) (acc : Acc) (va n : Nat) : Except Nat (List (Nat × Nat × Via)) × State :=
  let spans := lineSpans (n / 128 + 2) va n
  let fix (s : State) (pa : Nat) (v : Via) : Via := { v with loc := { v.loc with die := s.homeDie (pa / 128) } }
  if 512 ≤ kVout k then
    (.ok (spans.map fun q => (q.1, q.2, fix s q.1 (s.via ⟨kVout k, 0, 0⟩ 0))), s)
  else match s.translateSpans (s.ownerSpace k) acc spans with
    | (.error c, s) => (.error c.1, s)
    | (.ok l, s) => (.ok (l.map fun q => (q.1, q.2.1, fix s q.1 q.2.2)), s)

/-- The physical line behind an offset of a key, with the memory key of its leaf, as its target translates it now. -/
def State.lineBehind (s : State) (k : Key) (off : Nat) : Option (Nat × Nat) :=
  match (s.targetSpans k .read ((kBase k + off) % 2 ^ 64) 1).1 with
  | .ok ((pa, _, v) :: _) => some (pa / 128, v.key)
  | _ => none

/-- Bytes that an RDC holds of a line that was read through a key: all of them, if it holds the line at all, and while the name still stands for that line
(log entry 57). While a write or an atomic of the die to that target is on its way, the RDC serves none of its lines, so that no read returns what came
before a write (R147, R155). -/
def State.keyedHit (s : State) (l : Loc) (k : Key) (off n : Nat) : Option (List Byte) :=
  if s.writing l.mod l.die (kVout k) then none
  else match s.lineBehind k off with
    | none => none
    | some (line, key) =>
      match (s.rdc? l.mod l.die (kVout k) line).filter fun a => a.key == key && a.names.contains (keyedName k off) with
      | none => none
      | some r =>
        let o := (kBase k + off) % 128
        if maskSpan o n &&& r.valid = maskSpan o n then some (lineBytes r.data o n) else none

/-- Bytes that came back through a key with the cache right are kept under their physical line (spec/17 R419) as they read through its leaf's memory key
(R417), but for a counted line (spec/01 R21); the die's data caches drop the line (spec/06 R160). -/
def State.keyedKeep (s : State) (q : Request) (off : Nat) (bs : List Byte) : State :=
  match q.line with
  | none => s
  | some line =>
    let k := q.pkt.key
    let ep := kVout k
    let l := q.loc
    if !q.keep || (s.counted? ep line).isSome then s
    else
      let o := (kBase k + off) % 128
      let m := maskSpan o bs.length
      let s := (s.underRdc l.mod l.die ep line q.lkey).dropData l.mod l.die ep line
      match s.rdc? l.mod l.die ep line with
      | some r =>
        if r.dirty != 0 || r.bad then s
        else s.setRdc { r with data := mergeLine m (lineAt o bs) r.data, valid := r.valid ||| m, names := (keyedName k off :: r.names).eraseDups }
      | none => s.rdcAdd ⟨l.mod, l.die, ep, line, true, lineAt o bs, m, 0, [], false, q.lkey, [keyedName k off]⟩

/-! ### Checks at the source (R312) -/

/-- Routing, kind and rights: cause 0x09. -/
def keyUsable (k : Key) (mod right : Nat) (kinds : List Nat) : Bool := kRouted k mod && kinds.contains (kKind k) && kHas k right

/-- The checks of one scalar access of `n` bytes at offset `o`, with `uaddr` holding the offset; then the debug table, by the target address
(log entry 16). -/
def State.remoteAt (s : State) (k : Key) (right o n : Nat) (rd wr : Bool) (go : State → Res) : Res :=
  let u := BitVec.ofNat 64 o
  if !keyUsable k s.me.loc.mod right [0] then s.failAt 0x09 u
  else if kLen k < o + n then s.failAt 0x08 u
  else if (kBase k + o) % n != 0 then s.failAt 0x04 u
  else s.watched (BitVec.ofNat 64 (kBase k + o)) n rd wr go

/-! ### `rld`, `rst` (R313) -/

/-- `rld`. -/
def execRld (h : Hdr) (o : RMT) (s : State) : Host.Outcome State Fault Refusal :=
  s.issue h { xr := [o.ext.c], xw := [o.a], kr := [o.k] } fun s =>
    let k := s.k o.k
    let off := (s.x o.ext.c).toNat
    let n := scalarBytes o.ext.sel
    s.remoteAt k 0 off n true false fun s =>
      let hit := if kHas k 4 && s.tagOk k && kHolder k == s.myHolder then s.keyedHit s.me.loc k off n else none
      match hit with
      | some bs => .ok (s.postX o.a (Inflight.known ((scalarExtend o.ext.sel (bytesNat bs)).setWidth 256)))
      | none =>
        let req := s.nextReq
        let s := s.myRequest k off 1 0 [] [s.x o.ext.c, BitVec.ofNat 64 n] (.result s.me.uid s.me.order (8 * n) (decide (o.ext.sel.toNat ≤ 2)))
        .ok (s.postX o.a (Inflight.ofReq req))

/-- `rst`: widths 000 to 011. -/
def execRst (h : Hdr) (o : RMT) (s : State) : Host.Outcome State Fault Refusal :=
  s.issue h { xr := [o.ext.c, o.a], kr := [o.k] } fun s =>
    let k := s.k o.k
    let off := (s.x o.ext.c).toNat
    let n := scalarBytes o.ext.sel
    s.remoteAt k 1 off n false true fun s =>
      let tag := s.storeTag (s.x o.ext.c)
      .ok (s.myRequest k off 2 0 (natBytes n (s.x o.a).toNat) [] (.store tag))

/-! ### Reply slots (R320) -/

/-- A reply slot of a core; one not listed is free with sequence 0 (log entry 2). -/
def State.rslot (s : State) (l : Loc) (n : Nat) : ReplySlot :=
  (s.rslots.find? fun r => r.loc == l && r.slot == n).getD ⟨l, n, 0, false, 0, 0, 0, false, none⟩

/-- Change a reply slot. -/
def State.updRslot (s : State) (l : Loc) (n : Nat) (f : ReplySlot → ReplySlot) : State :=
  { s with rslots := upsert (fun r => r.loc == l && r.slot == n) (f (s.rslot l n)) s.rslots }

/-- The free reply slots of a core, of 32. -/
def State.freeSlots (s : State) (l : Loc) : List Nat := (List.range 32).filter fun n => !(s.rslot l n).used

/-- A slot reserved: its sequence advances. -/
def State.reserveSlot (s : State) (l : Loc) (n : Nat) (uid rid holder : Nat) (addn : Option (Nat × List Word)) : State :=
  s.updRslot l n fun r => { r with seq := (r.seq + 1) % 65536, used := true, uid := uid, rid := rid, holder := holder, full := false, addn := addn }

/-- A slot freed. -/
def State.freeSlot (s : State) (l : Loc) (n : Nat) : State := s.updRslot l n fun r => { r with used := false, full := false, addn := none }

/-! ### Remote atomics (R314, R315) -/

/-- A remote atomic of operation code `op`. -/
def ramo (op : Nat) (h : Hdr) (o : RMT) (s : State) : Host.Outcome State Fault Refusal :=
  let pair := op == 2 || op == 6
  s.issue h { xr := o.ext.c :: o.a :: (if pair then [o.a + 1] else []), xw := [o.a], kr := [o.k] } fun s =>
    let k := s.k o.k
    let off := (s.x o.ext.c).toNat
    let second := s.x (o.a + 1)
    if op = 6 && decide (256 ≤ second.toNat) then s.fail 0x01
    else s.remoteAt k 2 off 8 false true fun s =>
      let req := s.nextReq
      let data := natBytes 8 (s.x o.a).toNat
      let go (s : State) (use : ReqUse) : Res :=
        .ok ((s.myRequest k off 3 op data (if pair then [second] else []) use).postX o.a (Inflight.ofReq req))
      if op != 6 then go s (.result s.me.uid s.me.order 64 false)
      else match s.freeSlots s.me.loc with
        | [] => s.fail 0x12
        | n :: _ =>
          go (s.reserveSlot s.me.loc n s.me.uid s.me.rid s.myHolder
            (some (second.toNat, [BitVec.ofNat 64 off, BitVec.ofNat 64 (kBase k)]))) (.addn s.me.uid s.me.order n)

def execRamoAdd (h : Hdr) (o : RMT) (s : State) := ramo 0 h o s
def execRamoSwap (h : Hdr) (o : RMT) (s : State) := ramo 1 h o s
def execRamoCas (h : Hdr) (o : RMT) (s : State) := ramo 2 h o s
def execRamoMax (h : Hdr) (o : RMT) (s : State) := ramo 3 h o s
def execRamoOr (h : Hdr) (o : RMT) (s : State) := ramo 4 h o s
def execRamoAnd (h : Hdr) (o : RMT) (s : State) := ramo 5 h o s
def execRamoAddn (h : Hdr) (o : RMT) (s : State) := ramo 6 h o s

/-- The new value of a remote atomic (R314), none for no write. -/
def ramoNew (op old a b : Nat) : Option Nat :=
  if op = 0 || op = 6 then some ((old + a) % 2 ^ 64)
  else if op = 1 then some a
  else if op = 2 then (if old = b then some a else none)
  else if op = 3 then some (if sval 64 old < sval 64 a then a else old)
  else if op = 4 then some (old ||| a)
  else some (old &&& a)

/-! ### `kinfo` (R310) -/

/-- `kinfo`. -/
def execKinfo (h : Hdr) (o : KIN) (s : State) : Host.Outcome State Fault Refusal :=
  s.issue h { xw := [o.a], kr := [o.k] } fun s =>
    let k := s.k o.k
    let sel := (extSel o.ext).toNat
    if sel < 3 then .ok (s.postX o.a (Inflight.known (BitVec.ofNat 256 (getField k (64 * sel) 64))))
    else
      let tag := s.tagOk k
      let mine := kHolder k == s.myHolder
      if tag && mine && kRouted k s.me.loc.mod then
        let req := s.nextReq
        .ok ((s.myRequest k 0 9 0 [] [] (.probe s.me.uid s.me.order)).postX o.a (Inflight.ofReq req))
      else .ok (s.postX o.a (Inflight.known (BitVec.ofNat 256 (bnat tag + 2 * bnat mine))))

/-! ### `rvld`, `rvst` (R316) -/

/-- The issue of a remote vector access: the key checks precisely, then one entry with the offset and the key. A class-0 thread has no vector
elements. -/
def rvissue (i : Instr) (right : Nat) (h : Hdr) (o : RMT) (s : State) : Host.Outcome State Fault Refusal :=
  s.issue h { xr := [o.ext.c], kr := [o.k] } fun s =>
    let k := s.k o.k
    if !keyUsable k s.me.loc.mod right [0, 1] then s.failAt 0x09 (s.x o.ext.c)
    else if s.me.cls = 0 then .ok s
    else s.dispatch (s.newEntry i [s.x o.ext.c] k) id

def execRvld (h : Hdr) (o : RMT) (s : State) := rvissue (.rvld h o) 0 h o s
def execRvst (h : Hdr) (o : RMT) (s : State) := rvissue (.rvst h o) 1 h o s

/-- The requests of some lanes of a remote entry of the agent whose turn it is. -/
def State.sendLanes (s : State) (e : Entry) : List Lane → State
  | [] => s
  | l :: t =>
    let w := Instr.vwidth e.instr
    let tag := s.elemTag e l.i (BitVec.ofNat 64 l.place)
    let use : ReqUse := .element s.me.uid e.seq l.i tag
    let s := match e.instr with
      | .rvst _ o => s.myRequest e.key l.place 2 0 (natBytes (w / 8) (s.me.elem o.a w l.i)) [] use
      | _ => s.myRequest e.key l.place 1 0 [] [BitVec.ofNat 64 l.place, BitVec.ofNat 64 (w / 8)] use
    s.sendLanes e t

/-- What a cluster's part of a remote load comes to now: none while its data has not arrived (R316). -/
inductive RemoteRes where
  | waits (s : State)
  | trap (elem : Nat) (t : Trap) (s : State)
  | done (s : State)

/-- A cluster's part of `rvld`. -/
def State.runRvld (s : State) (e : Entry) (g : Nat) : RemoteRes :=
  let ls := s.me.clusterLanes e g
  if ls.any fun l => !l.sent then
    let s := s.sendLanes e (ls.filter fun l => !l.sent)
    .waits (s.upd fun a => a.putEntry { e with lanes := mapIf (fun l => a.homeCluster l.i == g) (fun l => { l with sent := true }) e.lanes })
  else if ls.any fun l => l.val.isNone && l.cause == 0 then .waits s
  else match ls.find? fun l => l.cause != 0 with
    | some l => .trap l.i (e.elemTrap l.cause (BitVec.ofNat 64 l.place) l.i) s
    | none => .done (s.upd fun a => a.loaded e g (ls.map fun l => (l.i, l.val.getD 0)))

/-- A cluster's part of `rvst`: its writes are sent. -/
def State.runRvst (s : State) (e : Entry) (g : Nat) : State := s.sendLanes e (s.me.clusterLanes e g)

end Sys2Proof.Machine
end

