-- ==== Sys2Proof/Machine/SatEnd.lean ====
section
/-! DEFINITION. Sys2Proof/Machine/SatEnd.lean: how satellites end (spec/02 R53 to R58, spec/10): scratchpad operands, tokens, the ends of a satellite
and of its dependants, the fields of a collective's group table, and the notice table (R286). -/

namespace Sys2Proof.Machine

/-! ### Scratchpad operands (R274, R276) -/

/-- The units of a scratchpad side for `n` bytes: its lines in ascending order. -/
def Scr.units (c : Scr) (n : Nat) : Nat :=
  if c.layout = 0 then ceilDiv n 128
  else
    let l := c.slices.length
    let m := n / c.elemw
    let per := l * (128 / c.elemw)
    m / per * l + min l (m % per)

/-- The lane slice and offset of unit `j`'s line. -/
def Scr.line (c : Scr) (j : Nat) : Nat × Nat := (c.slices.getD (j % c.slices.length) 0, c.off + 128 * (j / c.slices.length))

/-- What unit `j`'s line receives of `n` bytes: (offset in the transfer, offset in the line, bytes). -/
def Scr.pieces (c : Scr) (n j : Nat) : List (Nat × Nat × Nat) :=
  if c.layout = 0 then [(128 * j, 0, min 128 (n - 128 * j))]
  else
    let l := c.slices.length
    let per := 128 / c.elemw
    (List.range per).filterMap fun r =>
      let i := (j / l * per + r) * l + j % l
      if i * c.elemw < n then some (i * c.elemw, r * c.elemw, c.elemw) else none

/-- Where byte `t` of a transfer lies: lane slice and offset (spec/05 R133). -/
def Scr.place (c : Scr) (t : Nat) : Nat × Nat :=
  let l := c.slices.length
  let u := if c.layout = 0 then 128 else c.elemw
  (c.slices.getD (t / u % l) 0, c.off + t / u / l * u + t % u)

/-- The lane slices that a `LANESET` names for an agent; none where it is not legal (R274). -/
def Agent.laneSet (a : Agent) (set : Nat) : Option (List Nat) :=
  let of (cs : List Nat) : List Nat := cs.flatMap fun c => (List.range 16).map fun i => 16 * c + i
  let listed := [1, 2, 4, 8, 3, 12, 15].contains set
  let named := (List.range 4).filter fun c => set.testBit c
  if set = 0 then (if a.cls = 0 then none else some (of a.clusters))
  else if !listed then none
  else if a.cls = 0 then some (of named)
  else if named.all fun c => a.clusters.contains c then some (of named) else none

/-- A scratchpad operand of an agent, or cause 0x01 as none. -/
def Agent.scrOperand (a : Agent) (w : Word) : Option Scr :=
  if bits w.toNat 36 28 != 0 then none
  else (a.laneSet (bits w.toNat 32 4)).map fun sl => ⟨sl, bits w.toNat 0 32, saLayout a.sattr, saElem a.sattr⟩

/-- The alignment of a scratchpad side: cause 0x04 where it fails (R274). -/
def Scr.aligned (c : Scr) (n : Nat) : Bool := c.off % 128 == 0 && (c.layout == 0 || n % c.elemw == 0)

/-- The lines of a scratchpad destination that lie within the allocation. -/
def State.postedLines (s : State) (l : Loc) (rid : Nat) (c : Scr) (n : Nat) : List (Nat × Nat) :=
  ((List.range (c.units n)).map c.line).filter fun q => decide (q.2 + 128 ≤ s.laneBytes l rid)

/-- The cause that posting meets, if any: every PENDING line before any FULL one (R276). -/
def State.postCauses (s : State) (l : Loc) (rid : Nat) (ls : List (Nat × Nat)) : Option Nat :=
  let st := ls.map fun q => s.sline l rid q.1 (q.2 / 128)
  if st.any SLine.pending then some 0x0D else if st.any SLine.full then some 0x0F else none

/-- Post fills: the lines become PENDING (spec/05 R134). -/
def State.postLines (s : State) (l : Loc) (rid : Nat) (ls : List (Nat × Nat)) : State :=
  ls.foldl (fun s q => s.setFill l rid q.1 (q.2 / 128) 1 0) s

/-! ### Tokens (R270) -/

/-- The fields of a token. -/
def tkRegion (w : Word) : Nat := bits w.toNat 48 16
def tkKind (w : Word) : Nat := bits w.toNat 40 8
def tkDie (w : Word) : Nat := bits w.toNat 31 3
def tkCore (w : Word) : Nat := bits w.toNat 24 7
def tkSlot (w : Word) : Nat := bits w.toNat 16 8
def tkGen (w : Word) : Nat := bits w.toNat 0 16

/-- A slot that an agent carries from another core (spec/15 R386). -/
def Agent.carriedOf (a : Agent) (w : Word) : Option Carried := a.carried.find? fun c => c.token == w

/-- A token that is foreign to the agent whose turn it is. -/
def State.foreign (s : State) (w : Word) : Bool :=
  bits w.toNat 34 6 != 0 || tkKind w == 0 || decide (5 ≤ tkKind w)
    || ((tkRegion w != s.me.rid || tkDie w != s.me.loc.die % 8 || tkCore w != s.me.loc.core) && (s.me.carriedOf w).isNone)

/-- The live satellite that a token names on the core of an agent. -/
def State.satOf (s : State) (l : Loc) (w : Word) : Option Sat := s.sats.find? fun t => t.loc == l && t.token == w

/-- Foreign for `safter`: 0 names no dependence (R54, R57). R57 gives 0x1A to a token of another core, while R270 does not call the token of a carried slot
foreign: the model lets `safter` name one (DESIGN CHOICE, log entry 55). -/
def State.afterForeign (s : State) : Bool := s.me.safter != 0 && s.foreign s.me.safter

/-! ### Fields of the group table (R283, R284) -/

/-- Doubleword `i` of a list as a number. -/
def dw (l : List Word) (i : Nat) : Nat := (l.getD i 0).toNat

/-- The doublewords of some bytes. -/
def dwords : Nat → List Byte → List Word
  | 0, _ => []
  | n + 1, bs => BitVec.ofNat 64 (bytesNat (bs.take 8)) :: dwords n (bs.drop 8)

/-- Fields of the header. -/
def hdNstep (h : List Word) : Nat := bits (dw h 0) 0 16
def hdGid (h : List Word) : Nat := bits (dw h 0) 32 16

/-- The reserved fields and the number of steps are legal (R287). -/
def hdLegal (h : List Word) : Bool :=
  bits (dw h 0) 48 16 == 0 && bits (dw h 0) 16 16 == 0 && decide (1 ≤ hdNstep h) && decide (hdNstep h ≤ 4096)

/-- Fields of a step. -/
def stAction (c : List Word) : Nat := bits (dw c 0) 0 4
def stDkey (c : List Word) : Nat := bits (dw c 0) 8 8
def stNkey (c : List Word) : Nat := bits (dw c 0) 16 8
def stTag (c : List Word) : Nat := bits (dw c 1) 0 16
def stWait (c : List Word) : Nat := bits (dw c 1) 16 16
def stLen (c : List Word) : Nat := bits (dw c 1) 32 32

/-- The two keys read with a step: data and notice. -/
def stKey (c : List Word) (i : Nat) : Key := keyOf (dw c (4 + 4 * i)) (dw c (5 + 4 * i)) (dw c (6 + 4 * i)) (dw c (7 + 4 * i))

/-- The attributes of the units of a step: a plain SEND takes `REDOP` as 0. -/
def stAttr (c : List Word) (sattr : Word) : Word := if stAction c = 1 then sattr else saPlain sattr

/-- Change the progress of a collective. -/
def State.updColl (s : State) (sid : Nat) (f : CollState → CollState) : State :=
  s.updSat sid fun t => { t with task := match t.task with
                            | .coll table buf n cs => .coll table buf n (f cs)
                            | k => k }

/-- The progress of a collective. -/
def Sat.coll? (t : Sat) : Option CollState := match t.task with | .coll _ _ _ cs => some cs | _ => none

/-- The collective is in a WAIT (R284). -/
def CollState.waiting (cs : CollState) : Bool :=
  match cs.cur with
  | some (w :: _) => bits w.toNat 0 4 == 2
  | _ => false

/-! ### The end of a satellite -/

/-- The store values of a satellite's write (R139, R152): its region and address, its release, and the satellite. -/
def Sat.tag (t : Sat) (addr : Nat) : StoreTag :=
  ⟨t.issuer, t.loc, t.rid, 0, 0, 0, BitVec.ofNat 64 addr, false, 0, 0, Fin.ofNat 8 ((saRel t.sattr).getD 0), t.sid⟩

/-- A put into a remote scratchpad of which `k` units are done ends: the line that it has filled in part goes back to EMPTY with its old bytes (R134). -/
def State.dropPart (s : State) (k : Key) (off units : Nat) : State :=
  if kKind k != 1 || units == 0 then s
  else
    let a := kBase k + (off / 128 + units) * 128
    let l : Loc := ⟨kVout k, kDie k, kUnit k⟩
    match (s.endpoint (kVout k) (kDie k) 1 (kUnit k) 0).owner with
    | none => s
    | some rid =>
      let p := windowPlace a
      if (s.sline l rid p.1 (p.2 / 128)).pending && a % 128 != 0 then s.setFill l rid p.1 (p.2 / 128) 0 0 else s

/-- The lines of a scratchpad destination that have not been completed return to EMPTY, here or behind a key. -/
def State.dropPending (s : State) (t : Sat) : State :=
  match t.task with
  | .copy _ (.scratch c) n _ _ =>
    let left := ((List.range (c.units n)).drop t.units).map c.line
    (left.filter fun q => decide (q.2 + 128 ≤ s.laneBytes t.loc t.rid) && (s.sline t.loc t.rid q.1 (q.2 / 128)).pending).foldl
      (fun s q => s.setFill t.loc t.rid q.1 (q.2 / 128) 0 0) s
  | .copy _ (.window k off) _ _ _ => s.dropPart k off t.units
  | .coll _ _ _ cs =>
    match cs.cur with
    | some c => if stAction c ≤ 1 then s.dropPart (stKey c 0) (dw c 3) cs.unit else s
    | none => s
  | _ => s

/-- `mclr` and the shoot-down of `tlbi` take no `REL` (spec/09 R259, spec/15 R392). -/
def Task.quiet : Task → Bool
  | .mclr _ => true
  | .tlbi _ _ _ _ _ => true
  | _ => false

/-- The gang that a tile operation belongs to. -/
def Task.gang? : Task → Option Nat
  | .mma o => some o.gang
  | _ => none

/-- A missed promise (R296): `PMISS`, and with `PROMISE` captured cause 0x13 for the owner, or a record for a detached satellite, with its
units in UINFO (spec/15 R378). -/
def State.missPromise (s : State) (sid : Nat) : State :=
  match s.sats.find? fun t => t.sid == sid with
  | none => s
  | some t =>
    let p := BitVec.ofNat 64 (t.promise.getD 0)
    let s := s.updSat sid fun t => { t with pmiss := true, missed := true }
    if !saPromise t.sattr then s
    else match t.owner with
      | some u =>
        let s := match (s.agent? u).map fun a => (a, a.life) with
          | some (a, .parked (.swait _)) => s.traceState a 2 0
          | some (a, .parked (.sleepu _)) => s.traceState a 2 0
          | _ => s
        s.updAgent u fun a =>
          { a with late := a.late ++ [⟨0x13, 0, t.token, p, false, 0⟩],
                   life := match a.life with
                     | .parked (.swait _) => .ready
                     | .parked (.sleepu _) => .ready
                     | l => l }
      | none => s.record t.loc t.rid (satRecord s t 0x13 0 (BitVec.ofNat 64 t.units) 0 (s.confidential t.loc.mod t.rid))

/-- A satellite ends at or after its promise, and the promise is missed, if that has not been seen before (R296). -/
def State.promiseDue (s : State) (t : Sat) : State :=
  if (t.promise.any fun p => decide (p ≤ s.meridian t.loc.mod)) && !t.missed then s.missPromise t.sid else s

/-- Word 3 of the record of a write that its home refuses later: the destination's side of a copy or a collective (R279, R287), zero of a drain (spec/09
R257). -/
def Sat.lateSide (t : Sat) : Word := if t.kind = 1 || t.kind = 4 then 1 else 0

/-- A satellite becomes terminal: its release over what it completed (R152, R153), its record (R257, R279), its SAT trace record, and its fate
without an owner (R55). -/
def State.closeSat (s : State) (sid status cause : Nat) (w1 : Word) (w3 : Nat) : State :=
  match s.sats.find? fun t => t.sid == sid with
  | none => s
  | some t =>
    if t.terminal then s
    else
      let s := s.promiseDue t
      let s := if status = 0 then s else s.dropPending t
      let s := match (if t.begun && !t.task.quiet then saRel t.sattr else none) with
        | some sc => s.release t.loc sc
        | none => s
      -- bytes of its own that a counted line refused at the release end it faulted (R139)
      let mine (r : Report) : Bool := t.sid != 0 && r.tag.sid == t.sid
      let lost := if status = 3 then none else s.reports.find? mine
      let s := { s with reports := s.reports.filter fun r => !mine r }
      let status := if lost.isSome then 3 else status
      let rec_ : List Word := match lost with
        | some r => [BitVec.ofNat 64 r.cause, r.tag.data, BitVec.ofNat 64 t.units, t.lateSide]
        | none => [BitVec.ofNat 64 cause, w1, BitVec.ofNat 64 t.units, BitVec.ofNat 64 w3]
      let cause := (lost.map Report.cause).getD cause
      let s := { s with reqs := mapIf (fun q => some q.req == t.req) (fun q => { q with use := .dropped }) s.reqs }
      let s := s.updSat sid fun t => { t with status := status, record := rec_, req := none }
      let s := s.traceSat t cause
      let s := match t.owner with
        | some u => s.updAgent u fun a => { a with wfiSeen := true }
        | none => s
      s.settleSat sid

/-- The dependants of a satellite that ended without success end cancelled, and theirs in turn (R57); a tile operation ends so in every member of
its gang (spec/09 R256). -/
def State.cancelDeps : Nat → List (Loc × Word) → State → State
  | 0, _, s => s
  | _, [], s => s
  | n + 1, q :: t, s =>
    let first := s.sats.filter fun d => d.loc == q.1 && d.after == q.2 && !d.terminal
    let gangs := first.filterMap fun d => d.task.gang?
    let mates := s.sats.filter fun d => !d.terminal && (first.all fun f => f.sid != d.sid)
      && (match d.task.gang? with | some g => gangs.contains g | none => false)
    let deps := first ++ mates
    let s := deps.foldl (fun s d => s.closeSat d.sid 2 0 0 0) s
    State.cancelDeps n (t ++ deps.map fun d => (d.loc, d.token)) s

/-- A satellite ends with a status, and its dependants learn of it; the WAITs of its core are not yet tried again. -/
def State.finishSat (s : State) (sid status cause : Nat) (w1 : Word) (w3 : Nat) : State :=
  match s.sats.find? fun t => t.sid == sid with
  | none => s
  | some t =>
    let n := s.sats.length
    let s := s.closeSat sid status cause w1 w3
    if status = 0 then { s with sats := mapIf (fun d => d.loc == t.loc && d.after == t.token) (fun d => { d with after := 0 }) s.sats }
    else State.cancelDeps (n + 1) [(t.loc, t.token)] s

/-! ### Steps of a collective -/

/-- A step has ended: counted; after the last the satellite ends done (R285). -/
def State.collStepDone (s : State) (t : Sat) (cs : CollState) : State :=
  let n := ((cs.header.map hdNstep).getD 0)
  let s := s.updSat t.sid fun t => { t with units := t.units + 1, req := none }
  let s := s.updColl t.sid fun c => { c with step := cs.step + 1, cur := none, unit := 0, noticeT := none, retryAt := none, took := false }
  if n ≤ cs.step + 1 then s.finishSat t.sid 0 0 0 0 else s

/-! ### The notice table (R286) -/

/-- An entry of a core's notice table. -/
def State.notice? (s : State) (l : Loc) (gid tag : Nat) : Option Notice :=
  s.notices.find? fun e => e.loc == l && e.gid == gid && e.tag == tag

/-- A WAIT of a core is parked on an entry. -/
def State.noticeHeld (s : State) (l : Loc) (gid tag : Nat) : Bool :=
  s.sats.any fun t => t.loc == l && !t.terminal &&
    match t.coll? with
    | some cs => cs.waiting && cs.took && (cs.header.map hdGid) == some gid && (cs.cur.map stTag) == some tag
    | none => false

/-- Entries whose count is zero and on which no WAIT is parked are free. -/
def State.dropNotices (s : State) : State :=
  { s with notices := s.notices.filter fun e => e.count != 0 || s.noticeHeld e.loc e.gid e.tag }

/-- A core's table has a free entry, of 64. -/
def State.noticeRoom (s : State) (l : Loc) : Bool := decide ((s.notices.filter fun e => e.loc == l).length < 64)

/-- One WAIT goes on as far as it can: it takes its entry, and ends its step when the count suffices. -/
def State.collWait (s : State) (t : Sat) : State :=
  match t.coll? with
  | none => s
  | some cs =>
    match cs.cur, cs.header with
    | some c, some h =>
      let gid := hdGid h
      let tag := stTag c
      if !cs.waiting || t.terminal then s
      else
        let has := (s.notice? t.loc gid tag).isSome
        if !has && !s.noticeRoom t.loc then s
        else
          let s : State := if has then s else { s with notices := s.notices ++ [⟨t.loc, gid, tag, 0⟩] }
          let s := s.updColl t.sid fun c => { c with took := true }
          let count := ((s.notice? t.loc gid tag).map Notice.count).getD 0
          if count < stWait c then s
          else
            let less := mapIf (fun e => e.loc == t.loc && e.gid == gid && e.tag == tag) (fun e => { e with count := e.count - stWait c }) s.notices
            let s := { s with notices := less }
            ((s.acquire t.loc 4).collStepDone t cs).dropNotices
    | _, _ => s

/-- Every WAIT of a core once, in order of issue. -/
def State.tryWaits (s : State) (l : Loc) : State :=
  (s.sats.filter fun t => t.loc == l && t.engine == .collective).foldl
    (fun s t => match s.sats.find? fun d => d.sid == t.sid with
      | some d => s.collWait d
      | none => s) s.dropNotices

/-- The WAITs of a core, tried again as long as one of them frees an entry that another takes: at most four collectives run (R283), so five rounds do. -/
def State.collWaits (s : State) (l : Loc) : State := ((((s.tryWaits l).tryWaits l).tryWaits l).tryWaits l).tryWaits l

/-- A notice reaches a core's table (R286): counted, up to 65,535, or false where the table is full. -/
def State.takeNotice (s : State) (l : Loc) (gid tag : Nat) : Bool × State :=
  let s := s.dropNotices
  match s.notice? l gid tag with
  | some _ =>
    let more := mapIf (fun e => e.loc == l && e.gid == gid && e.tag == tag) (fun e => { e with count := min 65535 (e.count + 1) }) s.notices
    (true, ({ s with notices := more }).collWaits l)
  | none =>
    let more : State := { s with notices := s.notices ++ [⟨l, gid, tag, 1⟩] }
    if s.noticeRoom l then (true, more.collWaits l) else (false, s)

/-- A satellite ends with a status: its dependants learn of it, and the entry of the notice table that a WAIT gives up goes to the next one (R286). -/
def State.endSat (s : State) (sid status cause : Nat) (w1 : Word) (w3 : Nat) : State :=
  match s.sats.find? fun t => t.sid == sid with
  | none => s
  | some t => (s.finishSat sid status cause w1 w3).collWaits t.loc

/-- A satellite ends faulted (R279, R287): cause, first faulting address, side. -/
def State.faultSat (s : State) (sid cause : Nat) (addr side : Nat) : State := s.endSat sid 3 cause (BitVec.ofNat 64 addr) side

/-- A satellite has begun its first unit, step or K-group (R290). -/
def Sat.inWork (t : Sat) : Bool :=
  t.units != 0 || t.req.isSome ||
    match t.task with
    | .coll _ _ _ cs => cs.cur.isSome
    | .mma o => !o.aLines.isEmpty || !o.bLines.isEmpty
    | .tlbi _ _ _ _ _ => t.begun
    | .mdrn _ _ _ _ _ rows => !rows.isEmpty
    | _ => false

/-- Cancellation of a satellite (R58, R290): at once while it waits or has not begun its first unit, step or K-group, in every member of a gang, else at
its next boundary; a collective at once in a WAIT (R285). -/
def State.cancelSat (s : State) (sid : Nat) : State :=
  match s.sats.find? fun t => t.sid == sid with
  | none => s
  | some t =>
    if t.terminal then s
    else match t.task with
      | .mma o =>
        let all := s.sats.filter fun d => d.loc.mod == t.loc.mod && d.loc.die == t.loc.die && !d.terminal &&
          match d.task with | .mma p => p.gang == o.gang | _ => false
        if all.any Sat.inWork then s.updSat sid fun t => { t with cancel := true }
        else all.foldl (fun s d => s.endSat d.sid 2 0 0 0) s
      | .coll _ _ _ cs =>
        if cs.waiting || !t.inWork then s.endSat sid 2 0 0 0 else s.updSat sid fun t => { t with cancel := true }
      | _ => if t.inWork then s.updSat sid fun t => { t with cancel := true } else s.endSat sid 2 0 0 0

end Sys2Proof.Machine
end

