-- ==== Sys2Proof/Machine/Sats.lean ====
section
/-! DEFINITION. Sys2Proof/Machine/Sats.lean: satellites (spec/02 R53 to R58, spec/10): creation, copies and the token instructions of page 5. -/

namespace Sys2Proof.Machine

/-! ### Creation (R53, R54, R269, R279) -/

/-- A free slot of a core for a region within its quota (R53, R58, spec/16 R404); a member parked at the barrier keeps the one found at its issue. The spec
does not say which free slot a satellite takes; the model takes the lowest-numbered one (DESIGN CHOICE, log entry 55). -/
def State.freeSatSlot (s : State) (l : Loc) (rid : Nat) : Option Nat :=
  let here := s.sats.filter fun t => t.loc == l
  let kept := s.barrier.filter fun a => a.loc == l
  let quota := ((s.region? l.mod rid).map fun r => s.left r Region.satslots).getD 0
  let used := (here.filter fun t => t.rid == rid).length + (kept.filter fun a => ((s.agent? a.uid).map Agent.rid) == some rid).length
  if quota ≤ used then none
  else (List.range 256).find? fun n => (here.all fun t => t.slot != n) && kept.all fun a => a.slot != n

/-- The attributes that a satellite captures: `PROMISE` is a field of copies and collectives alone (spec/09 R256, spec/10 R298, spec/15 R392). -/
def capturedAttr (kind : Nat) (w : Word) : Word := if kind = 1 || kind = 4 then w else w &&& ~~~(0x100000000 : Word)

/-- Create a satellite of the agent whose turn it is in a slot: its token goes to `rd`, and `slaunch` and `safter` are consumed. -/
def State.createSat (s : State) (rd : Reg) (slot kind : Nat) (engine : Engine) (sattr : Word) (launch : Nat) (after : Word) (ready : Bool)
    (task : Task) : State :=
  let a := s.me
  let gen := s.slotGen a.loc slot
  let now := s.meridian a.loc.mod
  let t : Sat := {
    sid := s.nextSid, loc := a.loc, slot := slot, gen := gen, rid := a.rid, kind := kind, engine := engine, issuer := a.uid,
    owner := if saDetach sattr then none else some a.uid, level := a.level, cls := a.cls, cmask := a.cmask,
    status := if now < launch then 5 else 1, begun := false, cancel := false, launch := launch, issuedAt := now,
    after := if (s.satOf a.loc after).isSome then after else 0,
    prio := saPrio sattr, aged := 0, waitFrom := s.cycle a.loc, ready := ready, sattr := capturedAttr kind sattr, pmiss := false, promise := none, missed := false,
    record := [0, 0, 0, 0], units := 0, upto := a.nextSeq, req := none, task := task }
  ({ s with sats := s.sats ++ [t], nextSid := s.nextSid + 1 }).setX rd t.token

/-- The status of the satellite that `safter` names for the agent whose turn it is. -/
def State.depStatus (s : State) : Option Nat :=
  match s.me.carriedOf s.me.safter with
  | some c => some c.status
  | none => (s.satOf s.me.loc s.me.safter).map Sat.status

/-- A dependence on a satellite that has ended already decides at once (R57). -/
def State.settleDep (s : State) (sid : Nat) (dep : Option Nat) : State :=
  if dep = some 0 then s.updSat sid fun t => { t with after := 0 }
  else if dep = some 2 || dep = some 3 then s.endSat sid 2 0 0 0
  else s

/-- Creation with the checks that every satellite instruction shares, in their order: a foreign `safter` (0x1A), no free slot (0x19), and for a
scratchpad destination the posting of its lines (0x0D, 0x0F). The spec does not say what `uaddr` holds for causes 0x04, 0x0D and 0x0F at issue: the
model leaves 0 there (R279; DESIGN CHOICE, log entry 55). The dependence on a satellite that already ended decides at once. -/
def State.newSat (s : State) (rd : Reg) (kind : Nat) (engine : Engine) (ready : Bool) (post : Option (Scr × Nat)) (task : Task) : Res :=
  let a := s.me
  if s.afterForeign then s.fail 0x1A
  else match s.freeSatSlot a.loc a.rid with
    | none => s.fail 0x19
    | some slot =>
      let lines := match post with
        | some (c, n) => s.postedLines a.loc a.rid c n
        | none => []
      match s.postCauses a.loc a.rid lines with
      | some c => s.fail c
      | none =>
        let sid := s.nextSid
        let dep := s.depStatus
        let s := (s.createSat rd slot kind engine a.sattr a.slaunch.toNat a.safter ready task).postLines a.loc a.rid lines
        .ok ((s.upd fun a => { a with slaunch := 0, safter := 0 }).settleDep sid dep)

/-- The checks of R267. -/
def attrBad (w : Word) (scratch : Bool) : Bool :=
  ((saAcq w).map fun c => decide (6 ≤ c)).getD false || ((saRel w).map fun c => decide (6 ≤ c)).getD false
    || decide (4 ≤ saRedop w) || (saRedop w != 0 && (!redFormat (saRedfmt w) || saReaders w != 0 || scratch))

/-- An address or a count that a reduction of `sattr` accepts (R278). -/
def redAligned (w : Word) (ns : List Nat) : Bool := saRedop w == 0 || ns.all fun n => n % (codeBits (saRedfmt w) / 8) == 0

/-- The count of a copy: above 2^40 − 1, and so every negative immediate, is cause 0x01 (R272). -/
def State.count? (s : State) (t : RegImm) : Option Nat := if (s.val t).toNat < 2 ^ 40 then some (s.val t).toNat else none

/-- The registers of class SCP. -/
def needsSCP (o : SCP) (pair : Bool) : Needs :=
  { xr := o.ext.c :: (if pair then [o.ext.c + 1] else []) ++ RegImm.regs o.t, xw := [o.a] }

/-! ### Copies (R272, R273) -/

/-- `cpy`. -/
def execCpy (h : Hdr) (o : SCP) (s : State) : Host.Outcome State Fault Refusal :=
  s.issue h (needsSCP o true) fun s =>
    let src := (s.x o.ext.c).toNat
    let dst := (s.x (o.ext.c + 1)).toNat
    match s.count? o.t with
    | none => s.fail 0x01
    | some n =>
      if attrBad s.me.sattr false then s.fail 0x01
      else if !redAligned s.me.sattr [src, dst, n] then s.fail 0x04
      else s.newSat o.a 1 .streamer true none (.copy (.generic src) (.generic dst) n 1 0)

/-- `cpy2`: `n` rows of `sshape`. R278 asks that n be a multiple of the element size, and n is the number of rows here (R273): the model takes the bytes of a
row, `ROWLEN`, to be meant, and lets the number of rows be any (DESIGN CHOICE, log entry 55). -/
def execCpy2 (h : Hdr) (o : SCP) (s : State) : Host.Outcome State Fault Refusal :=
  s.issue h (needsSCP o true) fun s =>
    let src := (s.x o.ext.c).toNat
    let dst := (s.x (o.ext.c + 1)).toNat
    match s.count? o.t with
    | none => s.fail 0x01
    | some rows =>
      let len := bits s.me.sshape.toNat 0 24
      if attrBad s.me.sattr false then s.fail 0x01
      else if !redAligned s.me.sattr [src, dst, len] then s.fail 0x04
      else s.newSat o.a 1 .streamer true none (.copy (.generic src) (.generic dst) len rows s.me.sshape.toNat)

/-- `cpyp` to scratchpad. -/
def execCpypToScratch (h : Hdr) (o : SCP) (s : State) : Host.Outcome State Fault Refusal :=
  s.issue h (needsSCP o true) fun s =>
    match s.count? o.t, s.me.scrOperand (s.x (o.ext.c + 1)) with
    | some n, some c =>
      if attrBad s.me.sattr true then s.fail 0x01
      else if !c.aligned n then s.fail 0x04
      else s.newSat o.a 1 .streamer true (some (c, n)) (.copy (.generic (s.x o.ext.c).toNat) (.scratch c) n 1 0)
    | _, _ => s.fail 0x01

/-- `cpyp` from scratchpad. -/
def execCpypFromScratch (h : Hdr) (o : SCP) (s : State) : Host.Outcome State Fault Refusal :=
  s.issue h (needsSCP o true) fun s =>
    match s.count? o.t, s.me.scrOperand (s.x o.ext.c) with
    | some n, some c =>
      let dst := (s.x (o.ext.c + 1)).toNat
      if attrBad s.me.sattr false then s.fail 0x01
      else if !c.aligned n || !redAligned s.me.sattr [dst, n] then s.fail 0x04
      else s.newSat o.a 1 .streamer true none (.copy (.scratch c) (.generic dst) n 1 0)
    | _, _ => s.fail 0x01

/-- `cpyk` (R280, R281): `put` copies into the window. -/
def cpyk (put : Bool) (h : Hdr) (o : SKY) (s : State) : Host.Outcome State Fault Refusal :=
  s.issue h { xr := [o.ext.c, o.ext.c + 1, o.ext.c + 2], xw := [o.a], kr := [o.k] } fun s =>
    let k := s.k o.k
    let off := (s.x o.ext.c).toNat
    let w := s.x (o.ext.c + 2)
    let n := bits w.toNat 0 40
    let isScr := bit w.toNat 63
    let scr := s.me.scrOperand (s.x (o.ext.c + 1))
    let toScr := if put then kKind k == 1 else isScr
    if bits w.toNat 40 23 != 0 || (isScr && scr.isNone) || attrBad s.me.sattr toScr then s.fail 0x01
    else
      let loc : Side := match scr with
        | some c => if isScr then .scratch c else .generic (s.x (o.ext.c + 1)).toNat
        | none => .generic (s.x (o.ext.c + 1)).toNat
      let aligned := match loc with
        | .scratch c => c.aligned n && redAligned s.me.sattr [n, kBase k + off]
        | .generic a => redAligned s.me.sattr [a, n, kBase k + off]
        | .window _ _ => true
      if !aligned then s.fail 0x04
      else if 2 ≤ kKind k then s.fail 0x09
      else if kLen k < off + n then s.failAt 0x08 (BitVec.ofNat 64 (max off (kLen k)))
      else if !kRouted k s.me.loc.mod || !kHas k (bnat put) || (put && saRedop s.me.sattr != 0 && !kHas k 2) then s.fail 0x09
      else
        let post : Option (Scr × Nat) := match loc with
          | .scratch c => if put then none else some (c, n)
          | _ => none
        let win : Side := .window k off
        s.newSat o.a 1 .streamer true post (if put then .copy loc win n 1 0 else .copy win loc n 1 0)

def execCpykGet (h : Hdr) (o : SKY) (s : State) := cpyk false h o s
def execCpykPut (h : Hdr) (o : SKY) (s : State) := cpyk true h o s

/-! ### `coll` and `cdrain` (R283, R298) -/

/-- `coll`. -/
def execColl (h : Hdr) (o : SCP) (s : State) : Host.Outcome State Fault Refusal :=
  s.issue h (needsSCP o true) fun s =>
    let table := (s.x o.ext.c).toNat
    match s.count? o.t with
    | none => s.fail 0x01
    | some n =>
      if attrBad s.me.sattr false then s.fail 0x01
      else if table % 64 != 0 then s.fail 0x04
      else s.newSat o.a 4 .collective true none (.coll table (s.x (o.ext.c + 1)).toNat n ⟨none, 0, none, 0, 0, 0, none, none, false⟩)

/-- `cdrain`. -/
def execCdrain (h : Hdr) (o : SCP) (s : State) : Host.Outcome State Fault Refusal :=
  s.issue h (needsSCP o false) fun s =>
    let base := (s.x o.ext.c).toNat
    match s.count? o.t with
    | none => s.fail 0x01
    | some n =>
      if attrBad (saPlain s.me.sattr) false then s.fail 0x01
      else if base % 128 != 0 || n % 128 != 0 then s.fail 0x04
      else s.newSat o.a 3 .streamer true none (.cdrain base n 0)

/-! ### Token instructions (R288 to R294) -/

/-- A status word (R271). -/
def statusWord (st : Nat) (pmiss : Bool) : Word := BitVec.ofNat 64 (st + bnat pmiss * 256)

/-- Status 0, 2 or 3. -/
def terminalStatus (st : Nat) : Bool := st == 0 || st == 2 || st == 3

/-- What the token names for the agent whose turn it is: a live satellite of its core, a carried slot, or nothing that is not stale. -/
inductive Named where
  | live (t : Sat)
  | carried (c : Carried)
  | stale

/-- The satellite that a token which is not foreign names. -/
def State.named (s : State) (w : Word) : Named :=
  match s.me.carriedOf w with
  | some c => if c.status = 4 then .stale else .carried c
  | none =>
    match s.satOf s.me.loc w with
    | some t => .live t
    | none => .stale

/-- A carried slot reaped: its token is stale for the thread from then on (status 4). -/
def State.dropCarried (s : State) (w : Word) : State :=
  s.upd fun a => { a with carried := mapIf (fun c => c.token == w) (fun c => { c with status := 4 }) a.carried }

/-- The status word is written, and a terminal satellite that the agent owns is reaped (R289). -/
def State.readStatus (s : State) (rd : Reg) (w : Word) : State :=
  match s.named w with
  | .stale => s.setX rd 4
  | .carried c => (s.setX rd (statusWord c.status c.pmiss)).dropCarried w
  | .live t =>
    let s' := s.setX rd (statusWord t.status t.pmiss)
    if t.terminal && t.owner == some s.me.uid then s'.reap t.sid else s'

/-- A token instruction that reads a token from `x[B]`: 0x1A for a foreign one (R270). -/
def withToken (b : Reg) (more : List Reg) (kw : List Reg) (f : State → Word → Res) (h : Hdr) (s : State) : Host.Outcome State Fault Refusal :=
  s.issue h { xr := b :: more, xw := kw } fun s =>
    let w := s.x b
    if s.foreign w then s.fail 0x1A else f s w

/-- `swait`: parks here until the satellite is terminal; 0x1E in a handler (R50). -/
def execSwait (h : Hdr) (o : RU) (s : State) : Host.Outcome State Fault Refusal :=
  s.issue h { xr := [o.b], xw := [o.a] } fun s =>
    let w := s.x o.b
    if s.me.isHandler then s.fail 0x1E
    else if s.foreign w then s.fail 0x1A
    else match s.named w with
      | .live t => if t.terminal then .ok (s.readStatus o.a w) else .parkHere s (.swait w)
      | _ => .ok (s.readStatus o.a w)

/-- `stest`. -/
def execStest (h : Hdr) (o : RU) (s : State) : Host.Outcome State Fault Refusal :=
  withToken o.b [] [o.a] (fun s w => .ok (s.readStatus o.a w)) h s

/-- `scancel` (R290): never reaps for its issuer. -/
def execScancel (h : Hdr) (o : RU) (s : State) : Host.Outcome State Fault Refusal :=
  withToken o.b [] [o.a] (fun s w =>
    match s.named w with
    | .stale => .ok (s.setX o.a 4)
    | .carried c => .ok (s.setX o.a (statusWord c.status c.pmiss))
    | .live t =>
      let s := s.cancelSat t.sid
      let st := if t.terminal then t.status else match s.sats.find? fun d => d.sid == t.sid with
        | some d => d.status
        | none => 2
      .ok (s.setX o.a (statusWord st t.pmiss))) h s

/-- `sdetach` (R291). -/
def execSdetach (h : Hdr) (o : XB) (s : State) : Host.Outcome State Fault Refusal :=
  withToken o.b [] [] (fun s w =>
    match s.named w with
    | .stale => s.fail 0x1A
    | .carried c =>
      -- a carried slot is terminal: done or cancelled is reaped, faulted sends its record first
      let s := s.dropCarried w
      if c.status = 3 then
        let r : Record := ⟨(c.record.getD 0 0).toNat % 256, false, true, false, false, s.confidential s.me.loc.mod s.me.rid, 0, w,
          c.record.getD 1 0, c.record.getD 2 0, s.meridian s.me.loc.mod, c.record.getD 3 0, BitVec.ofNat 64 (c.promise.getD 0), s.me.rid,
          s.me.loc⟩
        .ok (s.record s.me.loc s.me.rid r)
      else .ok s
    | .live t =>
      match t.owner with
      | none => .ok s
      | some u => if u = s.me.uid then .ok ((s.updSat t.sid fun t => { t with owner := none }).settleSat t.sid) else s.fail 0x1A) h s

/-- `sprio` (R292). -/
def execSprio (h : Hdr) (o : SPR) (s : State) : Host.Outcome State Fault Refusal :=
  withToken o.b [] [] (fun s w =>
    match s.named w with
    | .stale => s.fail 0x1A
    | .carried _ => .ok s
    | .live t => .ok (if t.terminal then s else s.updSat t.sid fun t => { t with prio := o.p.toNat, aged := 0, waitFrom := s.cycle t.loc })) h s

/-- The four words that `sfault` writes (R293). -/
def Sat.faultWords (t : Sat) : List Word :=
  if t.terminal then t.record
  else [0, 0, BitVec.ofNat 64 t.units, match t.task with | .cdrain _ _ d => BitVec.ofNat 64 d | _ => 0]

/-- `sfault`. -/
def execSfault (h : Hdr) (o : RU) (s : State) : Host.Outcome State Fault Refusal :=
  withToken o.b [] [o.a, o.a + 1, o.a + 2, o.a + 3] (fun s w =>
    let put (ws : List Word) : Res :=
      .ok ((((s.setX o.a (ws.getD 0 0)).setX (o.a + 1) (ws.getD 1 0)).setX (o.a + 2) (ws.getD 2 0)).setX (o.a + 3) (ws.getD 3 0))
    match s.named w with
    | .stale => s.fail 0x1A
    | .carried c => put c.record
    | .live t => put t.faultWords) h s

/-- `sadopt` (R291). -/
def execSadopt (h : Hdr) (o : XB) (s : State) : Host.Outcome State Fault Refusal :=
  withToken o.b [] [] (fun s w =>
    match s.named w with
    | .stale => s.fail 0x1A
    | .carried _ => .ok s
    | .live t =>
      match t.owner with
      | none => .ok (s.updSat t.sid fun t => { t with owner := some s.me.uid })
      | some u => if u = s.me.uid then .ok s else s.fail 0x1A) h s

/-- Every satellite attached to an agent is terminal. -/
def State.allTerminal (s : State) (uid : Nat) : Bool := (s.ownSats uid).all Sat.terminal

/-- `swaitall` (R294). -/
def execSwaitall (h : Hdr) (s : State) : Host.Outcome State Fault Refusal :=
  s.issue h {} fun s =>
    if s.me.isHandler then s.fail 0x1E
    else if s.allTerminal s.me.uid then
      let ended := (s.ownSats s.me.uid).filter fun t => t.status != 3
      let s := ended.foldl (fun s t => s.reap t.sid) s
      .ok (s.upd fun a => { a with carried := mapIf (fun c => c.status != 3) (fun c => { c with status := 4 }) a.carried })
    else .parkHere s .swaitall

/-- `sleepu` (R295): the rest of the sleep is run again after a pre-emption. -/
def execSleepu (h : Hdr) (o : XB) (s : State) : Host.Outcome State Fault Refusal :=
  s.issue h { xr := [o.b] } fun s =>
    if s.me.isHandler then s.fail 0x1E
    else if (s.x o.b).toNat ≤ s.meridian s.me.loc.mod then .ok s
    else .parkHere s (.sleepu (s.x o.b).toNat)

/-- `spromise`. -/
def execSpromise (h : Hdr) (o : XBC) (s : State) : Host.Outcome State Fault Refusal :=
  withToken o.b [o.ext.c] [] (fun s w =>
    match s.named w with
    | .stale => s.fail 0x1A
    | .carried _ => .ok s
    | .live t =>
      if t.terminal then .ok s
      else
        let p := (s.x o.ext.c).toNat
        let s := s.updSat t.sid fun t => { t with promise := some p, missed := false }
        .ok (if p ≤ s.meridian s.me.loc.mod then s.missPromise t.sid else s)) h s

/-- `sattr #i` (R297). -/
def execSattr (h : Hdr) (o : LI) (s : State) : Host.Outcome State Fault Refusal :=
  s.issue h {} fun s =>
    let v := o.i.word
    if bits v.toNat 33 31 != 0 then s.fail 0x01 else .ok (s.upd fun a => { a with sattr := v })

/-! ### Events of the satellite table -/

/-- SATELLITE_LAUNCH (R54): the launch time of the waiting satellite `n` has come. -/
def execSatelliteLaunch (n : Nat) (s : State) : Host.Outcome State Fault Refusal :=
  match s.sats.find? fun t => t.sid == n with
  | some t =>
    if t.status = 5 && decide (t.launch ≤ s.meridian t.loc.mod) then
      .next (s.updSat n fun t => { t with status := 1, waitFrom := s.cycle t.loc })
    else .next s
  | none => .next s

/-- The priority with which a satellite is served: its own, raised by aging, 7 at most (R61). -/
def Sat.effPrio (t : Sat) : Nat := min 7 (t.prio + t.aged)

/-- SATELLITE_PRIORITY_AGING (R61): the satellite `n` has waited for its engine for another 16,384 cycles. -/
def execSatellitePriorityAging (n : Nat) (s : State) : Host.Outcome State Fault Refusal :=
  match s.sats.find? fun t => t.sid == n with
  | some t =>
    if t.status = 1 && !t.begun && t.after == 0 && decide (t.effPrio < 7) && decide (t.waitFrom + 16384 * (t.aged + 1) ≤ s.cycle t.loc) then
      .next (s.updSat n fun t => { t with aged := t.aged + 1 })
    else .next s
  | none => .next s

/-- PROMISE_MISS (R296): meridian time has reached the promise of the satellite `n` before it is terminal. -/
def execPromiseMiss (n : Nat) (s : State) : Host.Outcome State Fault Refusal :=
  match s.sats.find? fun t => t.sid == n with
  | some t =>
    match t.promise with
    | some p => if !t.terminal && !t.missed && decide (p ≤ s.meridian t.loc.mod) then .next (s.missPromise n) else .next s
    | none => .next s
  | none => .next s

end Sys2Proof.Machine
end

