-- ==== Sys2Proof/Machine/Copy.lean ====
section
/-! DEFINITION. Sys2Proof/Machine/Copy.lean: how engines accept satellites (spec/02 R57, R61) and what the copy streamer does with one unit of a
copy or of a `cdrain` (spec/10 R275 to R282, R298). -/

namespace Sys2Proof.Machine

/-! ### Units of a copy (R273) -/

/-- Blocks of 128 aligned bytes that a range touches. -/
def blockUnits (a n : Nat) : Nat := if n = 0 then 0 else (a + n - 1) / 128 - a / 128 + 1

/-- Unit `j` of a range: its offset from the start and its length. -/
def blockUnit (a n j : Nat) : Nat × Nat :=
  let b := if j = 0 then a else (a / 128 + j) * 128
  (b - a, min (b / 128 * 128 + 128) (a + n) - b)

/-- An address moved by a signed stride of 16-byte units, `r` times. -/
def rowAddr (a stride r : Nat) : Nat := umod 64 ((a : Int) + 16 * sval 20 stride * r)

/-- The row of unit `j`, and its number within the row, from row `r`; `f` gives the address of a row of `n` bytes. -/
def rowFind (f : Nat → Nat) (n : Nat) : Nat → Nat → Nat → Option (Nat × Nat)
  | 0, _, _ => none
  | k + 1, r, j =>
    let u := blockUnits (f r) n
    if j < u then some (r, j) else rowFind f n k (r + 1) (j - u)

/-- A unit: its row, and for a destination that is a range the offset and length within the row; for a scratchpad destination its line's pieces. -/
structure CopyUnit where
  row    : Nat
  off    : Nat
  len    : Nat
  pieces : List (Nat × Nat × Nat)
  deriving DecidableEq, Repr

/-- The address by whose blocks a destination is cut. Where a get through a kind-1 key reads a window, the spec does not say whether its units are blocks of the
window or of the local destination: the model cuts them by the destination (R280; DESIGN CHOICE, log entry 55). -/
def Side.cut : Side → Nat
  | .generic a => a
  | .scratch _ => 0
  | .window k off => if kKind k = 0 then (kBase k + off) % 2 ^ 64 else off

/-- Unit `j` of a copy, none beyond the last: the blocks of its destination, a get's too (log entry 55). -/
def copyUnitAt (dst : Side) (n rows shape j : Nat) : Option CopyUnit :=
  match dst with
  | .scratch c => if j < c.units n then some ⟨0, 0, 0, c.pieces n j⟩ else none
  | d =>
    (rowFind (rowAddr d.cut (bits shape 44 20)) n rows 0 j).map fun q =>
      let u := blockUnit (rowAddr d.cut (bits shape 44 20) q.1) n q.2
      ⟨q.1, u.1, u.2, []⟩

/-! ### `ORDERED` reductions (R278) -/

/-- A satellite reduces with `ORDERED`. -/
def Sat.ordered (t : Sat) : Bool := saOrdered t.sattr && saRedop t.sattr != 0

/-- The space of a satellite's accesses from an engine. -/
def State.satSpace (s : State) (t : Sat) (unit : TlbUnit) : Space := s.space t.loc unit t.rid t.level

/-- The endpoint and physical line at which a unit of a destination is reduced: aliases and keys that name one line name one destination (spec/17 R419). -/
def State.unitPlace (s : State) (t : Sat) (dst : Side) (shape : Nat) (u : CopyUnit) : Option (Nat × Nat) :=
  let at_ := (rowAddr dst.cut (bits shape 44 20) u.row + u.off) % 2 ^ 64
  match dst with
  | .generic _ =>
    match (s.translate (s.satSpace t .copy) at_ .write).1 with
    | .ok q => some (t.loc.mod, q.1 / 128)
    | .error _ => none
  | .window k _ => if kKind k = 0 then (s.lineBehind k ((at_ + 2 ^ 64 - kBase k) % 2 ^ 64)).map fun q => (kVout k, q.1) else none
  | .scratch _ => none

/-- A destination of a satellite's reductions: side, bytes of a row, rows, shape, and the first unit that is still to be done. -/
structure Reduces where
  dst   : Side
  n     : Nat
  rows  : Nat
  shape : Nat
  first : Nat
  deriving DecidableEq, Repr

/-- Step `i` of a collective as the table gives it now, with its data key: software must not change the table meanwhile (R285). -/
def State.laterStep (s : State) (t : Sat) (table : Nat) (h : List Word) (i : Nat) : Option Reduces :=
  match (s.vread (s.satSpace t .coll) ((table + 32 + 32 * i) % 2 ^ 64) 32).1 with
  | .error _ => none
  | .ok bs =>
    let c := dwords 4 bs
    if stAction c != 1 || stLen c = 0 then none
    else match (s.vread (s.satSpace t .coll) ((dw h 1 + 32 * stDkey c) % 2 ^ 64) 32).1 with
      | .error _ => none
      | .ok ks => some ⟨.window (stKey (c ++ dwords 4 ks) 0) (dw c 3), stLen c, 1, 0, 0⟩

/-- The destinations that a satellite has still to reduce into; of a collective those of the step under way and of every later one. -/
def State.reductions (s : State) (t : Sat) : List Reduces :=
  match t.task with
  | .copy _ dst n rows shape => [⟨dst, n, rows, shape, t.units⟩]
  | .coll table _ _ cs =>
    let header := match cs.header with
      | some h => some h
      | none => match (s.vread (s.satSpace t .coll) table 32).1 with
        | .ok bs => some (dwords 4 bs)
        | .error _ => none
    let now := match cs.cur with
      | some c => if stAction c = 1 then [⟨.window (stKey c 0) (dw c 3), stLen c, 1, 0, cs.unit⟩] else []
      | none => []
    match header with
    | none => now
    | some h => now ++ ((List.range (hdNstep h)).drop (cs.step + bnat cs.cur.isSome)).filterMap (s.laterStep t table h)
  | _ => []

/-- Some unit of a destination that is still to be done lies at a place. -/
def State.reducesAt (s : State) (t : Sat) (q : Reduces) (place : Nat × Nat) : Bool :=
  let total := (List.range q.rows).foldl (fun n r => n + blockUnits (rowAddr q.dst.cut (bits q.shape 44 20) r) q.n) 0
  ((List.range total).drop q.first).any fun j =>
    ((copyUnitAt q.dst q.n q.rows q.shape j).bind (s.unitPlace t q.dst q.shape)) == some place

/-- Unit `u` of a satellite comes after what an earlier ORDERED satellite of its thread has still to reduce into the same line. -/
def State.outOfOrder (s : State) (t : Sat) (dst : Side) (shape : Nat) (u : CopyUnit) : Bool :=
  t.ordered &&
    match s.unitPlace t dst shape u with
    | none => false
    | some place =>
      s.sats.any fun d => d.issuer == t.issuer && decide (d.sid < t.sid) && !d.terminal && d.ordered && (s.reductions d).any fun q => s.reducesAt d q place

/-! ### The source of a unit -/

/-- The places of consecutive bytes of a scratchpad side. -/
def Scr.places (c : Scr) (off len : Nat) : List (Nat × Nat) := (List.range len).map fun i => c.place (off + i)

/-- A scratchpad source waits while a line is PENDING (spec/05 R134). -/
def State.sideWaits (s : State) (t : Sat) (src : Side) (off len : Nat) : Bool :=
  match src with
  | .scratch c => (c.places off len).any fun q => (s.sline t.loc t.rid q.1 (q.2 / 128)).pending
  | _ => false

/-- Source bytes of a local side: (cause, address) or the bytes. -/
def State.sideRead (s : State) (t : Sat) (src : Side) (stride row off len : Nat) : Except (Nat × Nat) (List Byte) × State :=
  match src with
  | .generic a => s.vread (s.satSpace t .copy) ((rowAddr a stride row + off) % 2 ^ 64) len
  | .scratch c =>
    let ps := c.places off len
    match ps.find? fun q => decide (s.laneBytes t.loc t.rid ≤ q.2) with
    | some q => (.error (0x0C, q.2), s)
    | none =>
      match ps.find? fun q => (s.sline t.loc t.rid q.1 (q.2 / 128)).bad with
      | some q => (.error (0x22, q.2), s.foundError t.loc 4 (q.1 * 16384 + q.2))
      | none => (.ok (ps.map fun q => BitVec.ofNat 8 (s.scrRead t.loc t.rid q.1 q.2 1)), s)
  | .window _ _ => (.ok [], s)

/-- The pieces of a scratchpad line read one after the other from a generic source: (offset in the line, bytes). -/
def State.piecesRead (s : State) (t : Sat) (src : Side) : List (Nat × Nat × Nat) → Except (Nat × Nat) (List (Nat × List Byte)) × State
  | [] => (.ok [], s)
  | (off, at_, len) :: q =>
    match s.sideRead t src 0 0 off len with
    | (.error c, s) => (.error c, s)
    | (.ok bs, s) =>
      match s.piecesRead t src q with
      | (.error c, s) => (.error c, s)
      | (.ok l, s) => (.ok ((at_, bs) :: l), s)

/-! ### Overlap (R277) -/

/-- The locations that the source range of a copy names: physical address and length of each stretch that translates. -/
def State.srcPlaces (s : State) (sp : Space) (a n rows stride : Nat) : List (Nat × Nat) :=
  ((List.range rows).flatMap fun r => lineSpans (n / 128 + 2) (rowAddr a stride r) n).filterMap fun q =>
    match (s.translate sp q.1 .read).1 with
    | .ok r => some (r.1, q.2)
    | .error _ => none

/-- Bytes at consecutive locations, free where the location lies in the source range too. -/
def mixOverlap (src : List (Nat × Nat)) (fresh : Nat) : Nat → Nat → List Byte → List Byte
  | _, _, [] => []
  | pa, i, b :: t =>
    (if src.any fun q => decide (q.1 ≤ pa) && decide (pa < q.1 + q.2) then Config.freeByte fresh i else b) :: mixOverlap src fresh (pa + 1) (i + 1) t

/-- The bytes that a unit puts at a generic destination whose source is generic too. -/
def State.overlapped (s : State) (sp : Space) (src : List (Nat × Nat)) (va : Nat) (bs : List Byte) : List Byte :=
  match (s.translateSpans sp .write (lineSpans (bs.length / 128 + 2) va bs.length)).1 with
  | .error _ => bs
  | .ok l =>
    (l.foldl (fun (q : List Byte × List Byte × Nat) a =>
      (q.1 ++ mixOverlap src s.fresh a.1 q.2.2 (q.2.1.take a.2.1), q.2.1.drop a.2.1, q.2.2 + a.2.1)) ([], bs, 0)).1

/-- Bytes from a location on that lie in the source range too become free one by one: what a reduction left there is as open as what a copy leaves. -/
def State.freeAt (s : State) (v : Via) (tag : StoreTag) (src : List (Nat × Nat)) (pa : Nat) : Nat → State
  | 0 => s
  | n + 1 =>
    let t := s.freeAt v tag src pa n
    if src.any fun q => decide (q.1 ≤ pa + n) && decide (pa + n < q.1 + q.2) then
      { (t.unitWrite v tag (pa + n) [Config.freeByte t.fresh 0]).2 with fresh := t.fresh + 1 }
    else t

/-- The bytes of a unit reduced into a generic destination that lie in the source range too. -/
def State.freeOverlap (s : State) (sp : Space) (tag : StoreTag) (src : List (Nat × Nat)) (va n : Nat) : State :=
  match s.translateSpans sp .write (lineSpans (n / 128 + 2) va n) with
  | (.error _, _) => s
  | (.ok l, s) => l.foldl (fun s q => s.freeAt q.2.2 tag src q.1 q.2.1) s

/-! ### One unit -/

/-- A unit is complete: counted, and after the last the satellite ends done. -/
def State.unitDone (s : State) (t : Sat) : State :=
  let s := s.updSat t.sid fun t => { t with units := t.units + 1, req := none }
  match t.task with
  | .copy _ dst n rows shape => if (copyUnitAt dst n rows shape (t.units + 1)).isNone then s.endSat t.sid 0 0 0 0 else s
  | _ => s

/-- A unit's bytes reach a local destination; what fails there is side 1 (R279). -/
def State.unitLand (s : State) (t : Sat) (src dst : Side) (n rows shape : Nat) (u : CopyUnit) (parts : List (Nat × List Byte)) : State :=
  match dst with
  | .generic a =>
    let sp := s.satSpace t .copy
    let va := (rowAddr a (bits shape 44 20) u.row + u.off) % 2 ^ 64
    let bs := parts.flatMap Prod.snd
    let both := match src with
      | .generic b => s.srcPlaces sp b n rows (bits shape 24 20)
      | _ => []
    let bs' := if saRedop t.sattr = 0 then s.overlapped sp both va bs else bs
    match ({ s with fresh := s.fresh + 1 }).unitAt sp (fun _ v => v) (t.tag va) t.sattr va bs' with
    | (.error c, s) => s.faultSat t.sid c.1 c.2 1
    | (.ok (), s) => (if saRedop t.sattr = 0 then s else s.freeOverlap sp (t.tag va) both va bs.length).unitDone t
  | .scratch c =>
    let q := c.line t.units
    if s.laneBytes t.loc t.rid < q.2 + 128 then s.faultSat t.sid 0x0C q.2 1
    else
      let s := parts.foldl (fun s p => s.fillPart t.loc t.rid q.1 (q.2 / 128) p.1 p.2 false 0) s
      (s.fillPart t.loc t.rid q.1 (q.2 / 128) 0 [] true (saReaders t.sattr)).unitDone t
  | .window _ _ => s

/-- The request of a unit through a key: a read for a get, with its pieces (offset, bytes), or a write for a put, with the attributes and the flags of
`putFlags`. -/
def State.unitRequest (s : State) (t : Sat) (k : Key) (off op : Nat) (data : List Byte) (aux : List Word) : State :=
  let req := s.nextReq
  let holder := ((s.region? t.loc.mod t.rid).map Region.holder).getD 0xFFFF
  (s.updSat t.sid fun t => { t with req := some req }).request t.loc t.rid (Packet.request t.loc k off op 0 holder data aux) (.unit t.sid)

/-- The bytes of the transfer that a unit takes from its source: (offset in the transfer, offset in the unit, length). -/
def CopyUnit.spans (u : CopyUnit) (dst : Side) : List (Nat × Nat × Nat) :=
  match dst with
  | .scratch _ => u.pieces
  | _ => [(u.off, 0, u.len)]

/-- The local source bytes of a unit. -/
def State.unitRead (s : State) (t : Sat) (src dst : Side) (shape : Nat) (u : CopyUnit) : Except (Nat × Nat) (List (Nat × List Byte)) × State :=
  match dst with
  | .scratch _ => s.piecesRead t src u.pieces
  | _ =>
    match s.sideRead t src (bits shape 24 20) u.row u.off u.len with
    | (.error c, s) => (.error c, s)
    | (.ok bs, s) => (.ok [(0, bs)], s)

/-- A get's unit arrives as the bytes of its spans, one after the other: the parts of the unit. -/
def partsOf : List (Nat × Nat × Nat) → List Byte → List (Nat × List Byte)
  | [], _ => []
  | q :: t, bs => (q.2.1, bs.take q.2.2) :: partsOf t (bs.drop q.2.2)

/-- The flags of a put's unit: 1 the first target line continues, 2 the last one ends here. -/
def putFlags (k : Key) (off n : Nat) (u : CopyUnit) : Nat :=
  let a := kBase k + off + u.off
  bnat (a % 128 != 0 && u.off != 0) + 2 * bnat ((a + u.len) % 128 == 0 || u.off + u.len == n)

/-- One unit of a copy (R275). -/
def State.copyStep (s : State) (t : Sat) (src dst : Side) (n rows shape : Nat) : State :=
  match copyUnitAt dst n rows shape t.units with
  | none => s.endSat t.sid 0 0 0 0
  | some u =>
    if t.cancel then s.endSat t.sid 2 0 0 0
    else if s.outOfOrder t dst shape u then s
    else match src, dst with
      | .window k off, _ =>
        let sp := u.spans dst
        s.unitRequest t k (off + ((sp.head?.map Prod.fst).getD 0)) 1 []
          (sp.flatMap fun q => [BitVec.ofNat 64 (off + q.1), BitVec.ofNat 64 q.2.2])
      | _, .window k off =>
        if s.sideWaits t src u.off u.len then s
        else match s.unitRead t src dst shape u with
          | (.error c, s) => s.faultSat t.sid c.1 c.2 0
          | (.ok parts, s) =>
            s.unitRequest t k (off + u.off) 2 (parts.flatMap Prod.snd) [t.sattr, BitVec.ofNat 64 (putFlags k off n u)]
      | _, _ =>
        if (u.spans dst).any fun q => s.sideWaits t src q.1 q.2.2 then s
        else match s.unitRead t src dst shape u with
          | (.error c, s) => s.faultSat t.sid c.1 c.2 0
          | (.ok parts, s) => s.unitLand t src dst n rows shape u parts

/-- The answer to a unit's request (R281). Word 1 of a refused unit that reaches several lines or pieces is the offset at which its first span begins,
whichever part was refused, which the spec does not say (R279; DESIGN CHOICE, log entry 55). Data for a get, an acknowledgement for a put, or the cause of a refusal. -/
def State.unitAnswer (s : State) (sid : Nat) (ans : Except Nat (List Byte)) : State :=
  match s.sats.find? fun t => t.sid == sid with
  | none => s
  | some t =>
    match t.task with
    | .copy src dst n rows shape =>
      match copyUnitAt dst n rows shape t.units with
      | none => s
      | some u =>
        match ans, src, dst with
        | .error c, .window _ off, _ => s.faultSat sid c (off + ((u.spans dst).head?.map Prod.fst).getD 0) 0
        | .error c, _, .window _ off => s.faultSat sid c (off + u.off) 1
        | .error c, _, _ => s.faultSat sid c 0 0
        | .ok bs, .window _ _, _ => s.unitLand t src dst n rows shape u (partsOf (u.spans dst) bs)
        | .ok _, _, _ => s.unitDone t
    | _ => s

/-- One line of a `cdrain` (R298): translated with write permission, then dropped if it is a counted line of the region. -/
def State.drainStep (s : State) (t : Sat) (base n dropped : Nat) : State :=
  if n / 128 ≤ t.units then s.endSat t.sid 0 0 0 dropped
  else if t.cancel then s.endSat t.sid 2 0 0 dropped
  else
    let va := (base + 128 * t.units) % 2 ^ 64
    match s.translate (s.satSpace t .copy) va .write with
    | (.error c, s) => s.endSat t.sid 3 c (BitVec.ofNat 64 va) 1
    | (.ok (pa, _), s) =>
      let r := s.drainLine t.loc t.rid (pa / 128)
      let d := dropped + r.1
      let s := r.2.updSat t.sid fun t => { t with units := t.units + 1, task := .cdrain base n d }
      if n / 128 ≤ t.units + 1 then s.endSat t.sid 0 0 0 d else s

/-! ### Admission (spec/02 R57, R61) -/

/-- The accumulator that a matrix or drain satellite names. -/
def Task.acc? : Task → Option Nat
  | .mclr a => some a
  | .mma t => some t.acc
  | .mldacc a _ _ _ _ _ => some a
  | .mdrn a _ _ _ _ _ => some a
  | _ => none

/-- The satellite waits for an answer or on a PENDING line, and leaves its streamer to others. -/
def State.satIdles (s : State) (t : Sat) : Bool :=
  t.req.isSome ||
    match t.task with
    | .copy src dst n rows shape =>
      (match copyUnitAt dst n rows shape t.units with
       | some u => s.outOfOrder t dst shape u || (u.spans dst).any fun q => s.sideWaits t src q.1 q.2.2
       | none => false)
    | _ => false

/-- How many satellites an engine runs at once: one copy streamer on a core, four collectives (spec/10 R283); the others one for each
satellite, ordered by their accumulators. -/
def State.engineFree (s : State) (t : Sat) : Bool :=
  let at_ := (s.sats.filter fun d => d.loc == t.loc && d.engine == t.engine && d.begun && !d.terminal && !s.satIdles d).length
  match t.engine with
  | .streamer => decide (at_ < 1)
  | .collective => decide ((s.sats.filter fun d => d.loc == t.loc && d.engine == .collective && d.begun && !d.terminal).length < 4)
  | _ => true

/-- The accesses of both streams of its issuer before a satellite come before it (spec/05 R145). -/
def State.issuedBefore (s : State) (t : Sat) : Bool :=
  match s.agent? t.issuer with
  | none => true
  | some a => a.life == .exited ||
      ((a.queue ++ (a.aside.map Aside.queue).getD []).all fun e => decide (t.upto ≤ e.seq))

/-- A satellite may begin as far as its own order goes: running, its dependence satisfied, earlier satellites of its thread on the engine begun,
earlier ones of its accumulator ended (R57). -/
def State.satEligible (s : State) (t : Sat) : Bool :=
  t.status == 1 && !t.begun && t.ready && t.after == 0 && s.issuedBefore t
    && (s.sats.all fun d => !(d.loc == t.loc && d.engine == t.engine && d.issuer == t.issuer && decide (d.sid < t.sid) && !d.terminal && !d.begun))
    && match t.task.acc? with
       | none => true
       | some a => s.sats.all fun d => !(d.loc == t.loc && d.task.acc? == some a && decide (d.sid < t.sid) && !d.terminal)

/-- One satellite is served before another (R61, R296): by priority, then with a promise before one without, and the earlier promise first. -/
def Sat.before (a b : Sat) : Bool :=
  decide (b.effPrio < a.effPrio) || (a.effPrio == b.effPrio &&
    match a.promise, b.promise with
    | some p, some q => decide (p < q)
    | some _, none => true
    | none, _ => false)

/-- The satellite is the one that its engine serves next; collectives begin in issue order (spec/10 R283). -/
def State.servedNext (s : State) (t : Sat) : Bool :=
  let rivals := s.sats.filter fun d => d.loc == t.loc && d.engine == t.engine && d.sid != t.sid && s.satEligible d
  match t.engine with
  | .collective => rivals.all fun d => decide (t.sid < d.sid)
  | _ => rivals.all fun d => !d.before t

/-- A satellite begins: its engine has admitted it, and it makes its acquire (R151). -/
def State.beginSat (s : State) (t : Sat) : State :=
  let s := match (if t.task.quiet then none else saAcq t.sattr) with
    | some sc => s.acquire t.loc sc
    | none => s
  s.updSat t.sid fun t => { t with begun := true }

end Sys2Proof.Machine
end

