-- ==== Sys2Proof/Machine/VecCross.lean ====
section
/-! DEFINITION. Sys2Proof/Machine/VecCross.lean: cross-cluster entries (spec/02 R41, spec/08 R221 to R233) and conversions that pass through
all elements (spec/04 R109, R119, R120). Every source is read whole before any element is written. -/

namespace Sys2Proof.Machine

/-- The elements below `n`, ascending. -/
def Entry.all (e : Entry) : List Nat := List.range e.n

/-- The active elements below `n`, ascending. -/
def Entry.actives (e : Entry) : List Nat := e.all.filter fun i => e.active i

/-- The zeros of R188 over all elements. -/
def Entry.zeros (e : Entry) : List (Nat × Nat) :=
  if e.zeroing then (e.all.filter fun i => !e.active i).map fun i => (i, 0) else []

/-! ### Permutes and slides (R221, R222) -/

/-- `vperm`. -/
def runVperm (a : Agent) (e : Entry) (o : VRR) : Agent :=
  let w := widthBits (extSel o.ext)
  let src := firstReg o.ext o.a
  a.setElems o.a w ((e.actives.map fun i =>
    let j := a.elemOr o.t w i
    (i, if j < e.n then a.elem src w j else 0)) ++ e.zeros)

/-- `vslide`: a positive offset moves elements towards lower indices. -/
def runVslide (a : Agent) (e : Entry) (o : VXS) : Agent :=
  let w := widthBits o.ext.sel
  let off : Int := match o.t with
    | .reg _ => (e.xs.getD 0 0).toInt
    | .imm i => i.int
  a.setElems o.a w ((e.actives.map fun (i : Nat) =>
    let j : Int := (i : Int) + off
    (i, if 0 ≤ j ∧ j < e.n then a.elem o.ext.c w j.toNat else 0)) ++ e.zeros)

/-! ### Reductions and scans (R223 to R225) -/

/-- The first element written, unless n is 0. -/
def Agent.setFirst (a : Agent) (e : Entry) (r : Reg) (w v : Nat) : Agent := if e.n = 0 then a else a.setElem r w 0 v

/-- An integer reduction over the active elements. -/
def runRed (f : Nat → Nat → Nat → Nat) (init : Nat → Nat) (a : Agent) (e : Entry) (o : VU) : Agent :=
  let w := widthBits (extSel o.ext)
  a.setFirst e o.a w (e.actives.foldl (fun v i => f w v (a.elem o.b w i)) (init w))

/-- One level of the tree of R224. -/
def fpTreeLevel (t : Fmt) (rm : Nat) (sp : Bool) : List (Option Nat) → List (Option Nat) × BitVec 5
  | a :: b :: rest =>
    let r := fpTreeLevel t rm sp rest
    match a, b with
    | none, b => (b :: r.1, r.2)
    | a, none => (a :: r.1, r.2)
    | some x, some y =>
      let q := t.addV rm sp (t.val x) (t.val y)
      (some q.bits :: r.1, r.2 ||| q.flags)
  | l => (l, 0)

/-- The pairwise tree, level by level. -/
def fpTree (t : Fmt) (rm : Nat) (sp : Bool) : Nat → List (Option Nat) → BitVec 5 → Option Nat × BitVec 5
  | 0, l, fl => (l.headD none, fl)
  | k + 1, l, fl =>
    let r := fpTreeLevel t rm sp l
    fpTree t rm sp k r.1 (fl ||| r.2)

/-- The number of levels for `n` elements: log2 of the smallest power of two that is at least `n`. -/
def treeLevels (n : Nat) : Nat := (ceilPow2 12 n).log2

/-- `vfredsum`. -/
def runFredsum (a : Agent) (e : Entry) (o : VU) : LaneRes :=
  let w := widthBits (extSel o.ext)
  let k := treeLevels e.n
  let leaves : List (Option Nat) := (List.range (2 ^ k)).map fun i =>
    if decide (i < e.n) && e.active i then some (a.elem o.b w i) else none
  let r := fpTree (vFmt (extSel o.ext)) (effRm e.rm) e.sp k leaves 0
  if e.n = 0 then .ok a
  else if enabledFlags e.en r.2 != 0 then .error (0, e.fpTrap 0 r.2)
  else .ok ((a.setElem o.a w 0 (r.1.getD 0)).raiseFlags e.era e.seq r.2)

/-- The running sums of R225 over indices. -/
def scanSums (a : Agent) (e : Entry) (r : Reg) (w : Nat) : Nat → List Nat → List (Nat × Nat)
  | _, [] => []
  | acc, i :: t =>
    let v := (acc + a.elem r w i) % 2 ^ w
    (i, v) :: scanSums a e r w v t

/-- `vscan`. -/
def runVscan (a : Agent) (e : Entry) (o : VU) : Agent :=
  let w := widthBits (extSel o.ext)
  a.setElems o.a w (scanSums a e o.b w 0 e.actives ++ e.zeros)

/-- `vcompress` (R226): every destination below k is written; those from k are zeroed under zeroing. -/
def runCompress (a : Agent) (e : Entry) (o : VU) : Agent :=
  let w := widthBits (extSel o.ext)
  let src := e.actives.map fun i => a.elem o.b w i
  let k := src.length
  let rest := if e.zeroing then (e.all.filter fun i => decide (k ≤ i)).map fun i => (i, 0) else []
  a.setElems o.a w ((src.zipIdx.map fun v => (v.2, v.1)) ++ rest)

/-- The bits that `pcnt` and `pfirst` count (R233). -/
def predHits (a : Agent) (e : Entry) (p : Reg4) : List Nat := e.actives.filter fun i => (a.getP p).getLsbD i

def runPcnt (a : Agent) (e : Entry) (o : PCT) : Agent := a.setFirst e o.a 32 (predHits a e o.p).length

def runPfirst (a : Agent) (e : Entry) (o : PCT) : Agent := a.setFirst e o.a 32 ((predHits a e o.p).headD 0xFFFFFFFF)

/-! ### MX conversions (spec/04 R109, R119) -/

/-- The element format of an MX code, its emax. -/
def mxFmt (c : BitVec 4) : Fmt × Int := if c = 5 then (.e4m3, 8) else (.e2m1, 2)

/-- The exponent floor(log2) of a finite non-zero value. -/
def Val.expo : Val → Option Int
  | .fin _ m e => if m = 0 then none else some (e + m.log2)
  | _ => none

/-- Neither NaN nor infinite. -/
def Val.finite : Val → Bool
  | .fin _ _ _ => true
  | _ => false

/-- A finite value times 2^k. -/
def Val.scaleBy (k : Int) : Val → Val
  | .fin n m e => .fin n m (e + k)
  | v => v

/-- The scale of a block from its active values: 0x00 for none, 0xFF where one is NaN or infinite (R109). -/
def mxScale (emax : Int) (vs : List Val) : Nat :=
  if vs.isEmpty then 0
  else if vs.any fun v => !v.finite then 0xFF
  else
    let e : Int := match (vs.filterMap Val.expo) with
      | [] => -127
      | x :: t => (t.foldl max x) - emax
    (min (max (e + 127) 0) 254).toNat

/-- The blocks' scales of a conversion into MX, for blocks below ceil(vl / 32). -/
def mxScales (a : Agent) (e : Entry) (o : CVT) : List Nat :=
  let sw := codeBits o.src.toNat
  let t := fmtOf o.src.toNat
  (List.range (ceilDiv e.vl 32)).map fun b =>
    mxScale (mxFmt o.dst).2 ((e.actives.filter fun i => i / 32 == b).map fun i => t.val (a.elem o.b sw i))

/-- The code of one active element of a block with a scale (R109). -/
def mxCode (a : Agent) (e : Entry) (o : CVT) (scale i : Nat) : FpRes :=
  if scale = 0xFF then ⟨0, flagNV⟩
  else
    let v := ((fmtOf o.src.toNat).val (a.elem o.b (codeBits o.src.toNat) i)).scaleBy (127 - (scale : Int))
    (mxFmt o.dst).1.convV (effRm e.rm) true v

/-- A value decoded from MX into FP32 or BF16 (R109): exact, then rounded; NaNs are quiet and raise nothing. -/
def mxDecode (a : Agent) (e : Entry) (o : CVT) (i : Nat) : FpRes :=
  let t := fmtOf o.dst.toNat
  let scale := a.elem (o.b + 1) 8 (i / 32)
  let v := (mxFmt o.src).1.val (a.elem o.b 8 i % 2 ^ (mxFmt o.src).1.bits)
  if scale = 0xFF || v.isNan then ⟨t.nan, 0⟩ else t.convV (effRm e.rm) e.sp (v.scaleBy ((scale : Int) - 127))

/-- Element results with flags written over all elements, or the trap of the lowest element (spec/04 R115). -/
def crossWrites (a : Agent) (e : Entry) (rd : Reg) (w : Nat) (rs : List (Nat × FpRes)) (k : Agent → Agent) : LaneRes :=
  match fpTrapping e (rs.map fun r => (r.1, r.2.flags)) with
  | some q => .error (q.1, e.fpTrap q.1 q.2)
  | none =>
    .ok ((k (a.setElems rd w ((rs.map fun r => (r.1, r.2.bits)) ++ e.zeros))).raiseFlags e.era e.seq (orFlags (rs.map fun r => r.2.flags)))

/-- `vcvt` with an MX operand: the register pair of R119. -/
def runMx (a : Agent) (e : Entry) (o : CVT) : LaneRes :=
  if fmtMx o.dst then
    let scales := mxScales a e o
    crossWrites a e o.a 8 (e.actives.map fun i => (i, mxCode a e o (scales.getD (i / 32) 0) i))
      fun b => b.setElems (o.a + 1) 8 (scales.zipIdx.map fun v => (v.2, v.1))
  else
    crossWrites a e o.a (codeBits o.dst.toNat) (e.actives.map fun i => (i, mxDecode a e o i)) id

/-! ### Error-feedback narrowing (spec/04 R120) -/

/-- One step of R120: the element and the carry after it. -/
def efStep (src dst : Fmt) (sp : Bool) (x carry : Nat) : FpRes × Nat :=
  let t := Fmt.fp32.addV 0 sp (src.val x) (Fmt.fp32.val carry)
  let y := dst.convV 0 sp (Fmt.fp32.val t.bits)
  let c :=
    if (Fmt.fp32.val t.bits).finite && (dst.val y.bits).finite && (y.flags &&& flagOF) == 0 then
      (Fmt.fp32.addV 0 sp (Fmt.fp32.val t.bits) (dst.val y.bits).neg).bits
    else 0
  (⟨y.bits, t.flags ||| y.flags⟩, c)

/-- R120 over indices. -/
def efRun (src dst : Fmt) (sp : Bool) (x : Nat → Nat) : Nat → List Nat → List (Nat × FpRes) × Nat
  | c, [] => ([], c)
  | c, i :: t =>
    let q := efStep src dst sp (x i) c
    let r := efRun src dst sp x q.2 t
    ((i, q.1) :: r.1, r.2)

/-- `vcvtef` (R231). -/
def runVcvtef (a : Agent) (e : Entry) (o : CVT) : LaneRes :=
  let sw := codeBits o.src.toNat
  let r := efRun (fmtOf o.src.toNat) (fmtOf o.dst.toNat) e.sp (fun i => a.elem o.b sw i) a.efc.toNat e.actives
  crossWrites a e o.a (codeBits o.dst.toNat) r.1 fun b => { b with efc := BitVec.ofNat 32 r.2 }

/-- A cross-cluster entry that touches no memory. -/
def runCross (a : Agent) (e : Entry) : LaneRes :=
  match e.instr with
  | .vperm _ o => .ok (runVperm a e o)
  | .vslide _ o => .ok (runVslide a e o)
  | .vredsum _ o => .ok (runRed (fun w x y => (x + y) % 2 ^ w) (fun _ => 0) a e o)
  | .vredmax _ o => .ok (runRed (fun w x y => if sval w x ≤ sval w y then y else x) (fun w => 2 ^ (w - 1)) a e o)
  | .vredmin _ o => .ok (runRed (fun w x y => if sval w x ≤ sval w y then x else y) (fun w => 2 ^ (w - 1) - 1) a e o)
  | .vfredsum _ o => runFredsum a e o
  | .vscan _ o => .ok (runVscan a e o)
  | .vcompress _ o => .ok (runCompress a e o)
  | .pcnt _ o => .ok (runPcnt a e o)
  | .pfirst _ o => .ok (runPfirst a e o)
  | .vcvt _ o => runMx a e o
  | .vcvtef _ o => runVcvtef a e o
  | _ => .ok a

/-! ### `vappend` (R227 to R229) -/

/-- The slots of a `vappend` that has made its atomic step: element, address. -/
def Entry.slots (e : Entry) (wb : Nat) : List (Nat × Word) :=
  e.actives.zipIdx.map fun q => (q.1, e.tok + BitVec.ofNat 64 (wb * (e.aux + q.2)))

/-- Probe the slots (R228). -/
def State.probeSlots (s : State) (e : Entry) : List (Nat × Word) → List Probe × State
  | [] => ([], s)
  | (i, addr) :: t =>
    let p := s.probeElem e ⟨true, false, false, false⟩ i addr
    let r := p.2.probeSlots e t
    (p.1 :: r.1, r.2)

/-- The slots decided, all or none. -/
def State.stageSlots (s : State) (e : Entry) : State :=
  let s := s.upd fun a => a.putEntry e
  let r := s.probeSlots e (e.slots (Instr.vwidth e.instr / 8))
  match r.1.find? Probe.bad with
  | some p => r.2.faultElem e ⟨true, false, false, false⟩ p r.1
  | none => r.2.settleElems e ⟨true, false, false, false⟩ r.1

/-- The address stage of `vappend`: the descriptor's checks, one atomic step on `TAIL` at its home, then the slots. A descriptor that meets
poisoned data is reported after issue, and nothing is written (log entry 15). -/
def State.stageAppend (s : State) (e : Entry) : State :=
  let d := e.xs.getD 0 0
  match e.actives with
  | [] => s.passEntry e
  | i0 :: _ =>
    if e.stepped then s.stageSlots e
    else if d.toNat % 16 != 0 then s.upd fun a => a.stopAt i0 (e.elemTrap 0x04 d i0)
    else match s.translate s.mySpace d.toNat .write with
      | (.error c, s) => s.upd fun a => a.stopAt i0 (e.elemTrap c d i0)
      | (.ok (pa, v), s) =>
        let ep := v.loc.mod
        let line := pa / 128
        let s := s.reachHome v line
        if (s.counted? ep line).isSome then s.upd fun a => a.stopAt i0 (e.elemTrap 0x25 d i0)
        else if s.poisoned ep line then
          let s := (s.foundError v.loc (s.poisonUnit ep line) pa).passEntry { e with n := 0 }
          s.upd fun a => { a with failures := addFailure (e.readFailure i0) a.failures }
        else
          let bs := s.homeSeen ep v.key pa 16
          let t := bytesNat (bs.take 8)
          let base := bytesNat (bs.drop 8)
          let s := s.pokeAs ep v.key pa (natBytes 8 (t + e.actives.length))
          s.stageSlots { e with stepped := true, tok := BitVec.ofNat 64 base, aux := t }

/-- The writes of `vappend` to its slots. -/
def State.runAppend (s : State) (e : Entry) : State :=
  let w := Instr.vwidth e.instr
  e.lanes.zipIdx.foldl (fun s q =>
    s.storeElem e (w / 8) q.1 (e.tok + BitVec.ofNat 64 (w / 8 * (e.aux + q.2)))
      (s.me.elem (Instr.dataReg e.instr) w q.1.i)) s

end Sys2Proof.Machine
end

