-- ==== Sys2Proof/Machine/Matrix.lean ====
section
/-! DEFINITION. Sys2Proof/Machine/Matrix.lean: the matrix slice, the page-4 instructions and the wired barrier (spec/09), with the tile arithmetic of
spec/04 R121 to R125. -/

namespace Sys2Proof.Machine

/-! ### The slice and its holder (R238) -/

/-- A tile of zeros, as a slice is taken. -/
def Tile.zero : Tile := ⟨Vector.replicate 64 0, Vector.replicate 64 0, 0, 0, 0⟩

/-- The slice record of a core. -/
def State.slice? (s : State) (l : Loc) : Option Slice := s.slices.find? fun q => q.loc == l

/-- The slice of a core is not the agent's to take: another thread holds it, or its last holder's satellites still run. -/
def State.sliceHeld (s : State) (l : Loc) (uid : Nat) : Bool :=
  match s.slice? l with
  | none => false
  | some q =>
    match q.holder with
    | some u => u != uid
    | none => s.matrixBusy l

/-- The agent takes the slice of its core, unless it holds it already: the tiles are zeroed. -/
def State.takeSlice (s : State) : State :=
  let a := s.me
  match s.slice? a.loc with
  | some q =>
    if q.holder = some a.uid then s
    else { s with slices := mapIf (fun q => q.loc == a.loc) (fun _ => ⟨a.loc, some a.uid, a.rid, Tile.zero, Tile.zero⟩) s.slices }
  | none => { s with slices := s.slices ++ [⟨a.loc, some a.uid, a.rid, Tile.zero, Tile.zero⟩] }

/-- A tile of a core's slice. -/
def State.tile (s : State) (l : Loc) (acc : Nat) : Tile :=
  match s.slice? l with
  | some q => if acc = 0 then q.acc0 else q.acc1
  | none => Tile.zero

/-- Change a tile. -/
def State.updTile (s : State) (l : Loc) (acc : Nat) (f : Tile → Tile) : State :=
  { s with slices := mapIf (fun q => q.loc == l) (fun q => if acc = 0 then { q with acc0 := f q.acc0 } else { q with acc1 := f q.acc1 }) s.slices }

/-- A page-4 instruction other than `mma`: 0x01 in a handler or while the slice is held. -/
def State.page4 (s : State) (k : State → Res) : Res :=
  if s.me.isHandler || s.sliceHeld s.me.loc s.me.uid then s.fail 0x01 else k s

/-! ### Configuration (R241 to R245) -/

/-- A field of `mcfgv`. -/
def cfgAfmt (w : Word) : Nat := bits w.toNat 0 4
def cfgBfmt (w : Word) : Nat := bits w.toNat 4 4
def cfgAcc (w : Word) : Nat := bits w.toNat 8 4
def cfgAtrans (w : Word) : Bool := bit w.toNat 12
def cfgBtrans (w : Word) : Bool := bit w.toNat 13
def cfgAconsume (w : Word) : Bool := bit w.toNat 14
def cfgBconsume (w : Word) : Bool := bit w.toNat 15
def cfgSp (w : Word) : Bool := bit w.toNat 16
def cfgMode (w : Word) : Nat := bits w.toNat 17 3
def cfgDrain (w : Word) : Nat := bits w.toNat 20 4
def cfgAstride (w : Word) : Nat := 64 * bits w.toNat 32 16
def cfgBstride (w : Word) : Nat := 64 * bits w.toNat 48 16

/-- The accumulator format of an operand pair (spec/04 R122). -/
def tilePair (a b : Nat) : Option Nat :=
  if (a = 1 && b = 1) || (a = 2 && b = 2) || ((a = 3 || a = 4) && (b = 3 || b = 4)) || ((a = 5 || a = 6) && (b = 5 || b = 6)) then some 0
  else if (a = 7 && b = 7) || (a = 9 && b = 7) || (a = 7 && b = 9) then some 8
  else none

/-- An MX or TERN operand. -/
def packedFmt (f : Nat) : Bool := f == 5 || f == 6 || f == 9

/-- The values that `mcfg` accepts (R243). -/
def cfgLegal (w : Word) : Bool :=
  let d := cfgDrain w
  let int := cfgAcc w == 8
  tilePair (cfgAfmt w) (cfgBfmt w) == some (cfgAcc w)
    && !(packedFmt (cfgAfmt w) && cfgAtrans w) && !(packedFmt (cfgBfmt w) && !cfgBtrans w)
    && (if int then d == 8 || d == 11 || d == 7 else decide (d ≤ 4))
    && decide (cfgMode w ≤ 5) && !(cfgMode w == 5 && (int || d == 0)) && !(cfgMode w != 0 && int) && bits w.toNat 24 8 == 0

/-- `mcfg`. -/
def execMcfg (h : Hdr) (o : XB) (s : State) : Host.Outcome State Fault Refusal :=
  s.issue h { xr := [o.b] } fun s => s.page4 fun s =>
    if cfgLegal (s.x o.b) then .ok ((s.takeSlice).upd fun a => { a with mcfgv := s.x o.b }) else s.fail 0x01

/-- `mscl`. -/
def execMscl (h : Hdr) (o : XB) (s : State) : Host.Outcome State Fault Refusal :=
  s.issue h { xr := [o.b] } fun s => s.page4 fun s => .ok ((s.takeSlice).upd fun a => { a with msbase := s.x o.b })

/-- The column of a core in its row (spec/01 R15). -/
def Loc.column (l : Loc) : Nat := l.core % 16

/-- The row of a core in its die. -/
def Loc.row (l : Loc) : Nat := l.core / 16

/-- The set bits of a 16-bit mask are one contiguous run. -/
def contiguousRun (m : Nat) : Bool :=
  let on := (List.range 16).filter fun c => m.testBit c
  on.length == (on.getLast?.getD 0) + 1 - on.headD 0

/-- `mgrp`. -/
def execMgrp (h : Hdr) (o : XB) (s : State) : Host.Outcome State Fault Refusal :=
  s.issue h { xr := [o.b] } fun s => s.page4 fun s =>
    let v := (s.x o.b).toNat
    if 2 ^ 16 ≤ v || !v.testBit s.me.loc.column || !contiguousRun v then s.fail 0x01
    else .ok ((s.takeSlice).upd fun a => { a with mgang := BitVec.ofNat 16 v })

/-! ### `mclr`, `mldacc`, `mstat`, `mstclr` (R259, R260, R265) -/

/-- `mclr`. R259 says that `ACQ` and `REL` have no effect on it, and not whether it uses their scopes: an enabled one with a scope of 6 or 7 raises 0x01 as
everywhere else (R267; DESIGN CHOICE, log entry 55). -/
def execMclr (h : Hdr) (o : MIM) (s : State) : Host.Outcome State Fault Refusal :=
  s.issue h { xw := [o.a] } fun s => s.page4 fun s =>
    if attrBad (saPlain s.me.sattr) false then s.fail 0x01
    else match s.newSat o.a 2 .matrix true none (.mclr (o.i.field 0 1)) with
      | .ok t => .ok t.takeSlice
      | r => r

/-- `mldacc`. Its cause 0x04 leaves `uaddr` 0: R260 names no address there (DESIGN CHOICE, log entry 55). -/
def execMldacc (h : Hdr) (o : MTL) (s : State) : Host.Outcome State Fault Refusal :=
  s.issue h { xr := [o.ext.c, o.ext.c + 1], xw := [o.a] } fun s => s.page4 fun s =>
    let base := s.x o.ext.c
    let stride := s.x (o.ext.c + 1)
    let carry := o.i.field 1 1 == 1
    if attrBad (saPlain s.me.sattr) false then s.fail 0x01
    else if base.toNat % 4 != 0 || (!carry && stride.toNat % 4 != 0) then s.fail 0x04
    else match s.newSat o.a 2 .matrix true none (.mldacc (o.i.field 0 1) carry s.me.mcfgv base stride []) with
      | .ok t => .ok t.takeSlice
      | r => r

/-- `mstat`. -/
def execMstat (h : Hdr) (o : MIM) (s : State) : Host.Outcome State Fault Refusal :=
  s.issue h { xw := [o.a] } fun s => s.page4 fun s =>
    let s := s.takeSlice
    .ok (s.setX o.a (s.tile s.me.loc (o.i.field 0 1)).counters)

/-- `mstclr`. -/
def execMstclr (h : Hdr) (o : MIM) (s : State) : Host.Outcome State Fault Refusal :=
  s.issue h {} fun s => s.page4 fun s =>
    let s := s.takeSlice
    .ok (s.updTile s.me.loc (o.i.field 0 1) fun t => { t with ovf := 0, nanp := 0, inval := 0 })

/-! ### Drains at issue (R261) -/

/-- A drain: its satellite is created with its token in the entry, and begins after the entry has passed the address stage. -/
def drain (i : Instr) (indexed carry : Bool) (h : Hdr) (o : MTL) (s : State) : Host.Outcome State Fault Refusal :=
  let more := if indexed then [] else [o.ext.c + 1]
  s.issue h { xr := o.ext.c :: more, xw := [o.a] } fun s => s.page4 fun s =>
    if s.me.cls = 0 || (indexed && decide (s.me.mvl 32 < 64)) then s.fail 0x01
    else if attrBad (saPlain s.me.sattr) false then s.fail 0x01
    else if s.me.queueFull then .hold s
    else
      let xs := s.x o.ext.c :: more.map s.x
      let sid := s.nextSid
      match s.newSat o.a 3 .drain false none (.mdrn (o.i.field 0 1) carry s.me.mcfgv [] [] []) with
      | .ok t =>
        let tok := ((t.sats.find? fun q => q.sid == sid).map Sat.token).getD 0
        .ok ((t.takeSlice).upd fun a => a.enqueued { t.newEntry i xs 0 with tok := tok, aux := sid })
      | r => r

/-- `mdrn`. -/
def execMdrn (h : Hdr) (o : MTL) (s : State) := drain (.mdrn h o) false (o.i.field 1 1 == 1) h o s
/-- `mdrnx`. -/
def execMdrnx (h : Hdr) (o : MTL) (s : State) := drain (.mdrnx h o) true false h o s

/-! ### `mma` and the wired barrier (R247, R250 to R258) -/

/-- The identity fields of an arrival, in the order of `uinfo` bits 16 to 20 (R250, R251): A address, K, the format fields, `MEMBERS`, `msbase`. Only an
arrival with an MX `AFMT` records `msbase`; the spec does not say how it compares with one that records none, and the model compares the absent field
as 0 (DESIGN CHOICE, log entry 55). -/
def gangIdent (a : Agent) (ra : Word) (groups : Nat) : List Nat :=
  let c := a.mcfgv
  [ra.toNat, groups,
    cfgAfmt c + cfgBfmt c * 2 ^ 4 + cfgAcc c * 2 ^ 8 + bnat (cfgAtrans c) * 2 ^ 12 + bnat (cfgAconsume c) * 2 ^ 13 + cfgAstride c * 2 ^ 16,
    a.mgang.toNat, if cfgAfmt c = 5 || cfgAfmt c = 6 then a.msbase.toNat else 0]

/-- Arrivals of one region in one row. -/
def State.rowArrivals (s : State) (a : Agent) : List Arrival :=
  s.barrier.filter fun b => b.loc.mod == a.loc.mod && b.loc.die == a.loc.die && b.loc.row == a.loc.row
    && ((s.agent? b.uid).map Agent.rid) == some a.rid

/-- The fields in which two arrivals differ, as bits. -/
def identDiff (x y : List Nat) : Nat :=
  (((x.zip y).zipIdx.filter fun q => q.1.1 != q.1.2).map fun q => 2 ^ q.2).foldl (fun a b => a ||| b) 0

/-- The columns of some arrivals as bits. -/
def arrivedColumns (l : List Arrival) : Nat := l.foldl (fun n b => n ||| 2 ^ b.loc.column) 0

/-- Act as another agent for a moment: the turn goes back afterwards. -/
def State.asAgent (s : State) (uid : Nat) (f : State → State) : State := (f (s.focus uid)).focus s.me.uid

/-- Parked members leave the barrier with a trap at their `mma`. -/
def State.barrierTrap (s : State) (l : List Arrival) (cause : Nat) (info : Word) : State :=
  let s := { s with barrier := s.barrier.filter fun b => l.all fun q => q.uid != b.uid }
  l.foldl (fun s b => s.asAgent b.uid fun s =>
    (s.upd fun a => { a with life := .ready }).takeTrap (issueTrap cause s.me.pc 0 info)) s

/-- The satellite of one member is created in the slot found at its issue, with its token in `xA`. -/
def State.startMember (s : State) (rd : Reg) (slot : Nat) (o : TileOp) : State :=
  let a := s.me
  let sid := s.nextSid
  let dep := s.depStatus
  ((s.createSat rd slot 2 .matrix a.sattr a.slaunch.toNat a.safter true (.mma o)).upd
    fun a => { a with slaunch := 0, safter := 0 }).settleDep sid dep

/-- The gang is complete: every member's satellite is created, every park ends (R250). -/
def State.startGang (s : State) (l : List Arrival) : State :=
  let gang := s.nextSid
  let low := l.foldl (fun n b => min n b.loc.column) 16
  let s := { s with barrier := s.barrier.filter fun b => l.all fun q => q.uid != b.uid }
  let s := l.foldl (fun s b => s.asAgent b.uid fun s =>
    let s := s.wakes s.me
    let s := s.startMember (BitVec.ofNat 5 b.dest) b.slot { b.op with gang := gang, lead := b.loc.column == low }
    (s.setPc (s.nextPc b.hdr)).upd fun a => { a with life := .ready }.retireChain b.hdr.wait) s
  -- a member whose dependence had failed takes the others with it (R256)
  let live := s.sats.filter fun d => d.task.gang? == some gang && !d.terminal
  if live.length = l.length then s else live.foldl (fun s d => s.endSat d.sid 2 0 0 0) s

/-- `mma`. A gang of one begins at once; a member of a larger gang parks at the barrier until every column has arrived. -/
def execMma (h : Hdr) (o : MTL) (s : State) : Host.Outcome State Fault Refusal :=
  s.issue h { xr := [o.ext.c, o.ext.c + 1], xw := [o.a] } fun s =>
    let a := s.me
    let ra := s.x o.ext.c
    let rb := s.x (o.ext.c + 1)
    if a.isHandler then s.fail 0x1E
    else if s.sliceHeld a.loc a.uid || attrBad (saPlain a.sattr) false then s.fail 0x01
    else if ra.toNat % 64 != 0 then s.failAt 0x04 ra
    else if rb.toNat % 64 != 0 then s.failAt 0x04 rb
    else if s.afterForeign then s.fail 0x1A
    else match s.freeSatSlot a.loc a.rid with
      | none => s.fail 0x19
      | some slot =>
        let s := s.takeSlice
        let op : TileOp := ⟨o.i.field 0 1, o.i.field 1 8 + 1, a.mcfgv, a.msbase, ra, rb, a.mgang, s.nextSid, true, [], []⟩
        if a.mgang = BitVec.ofNat 16 (2 ^ a.loc.column) then .ok (s.startMember o.a slot op)
        else
          let ident := gangIdent a ra op.groups
          let here := s.rowArrivals a
          let new : Arrival := ⟨a.uid, a.loc, s.cycle a.loc, ident, op, h, o.a.toNat, slot, a.gangto⟩
          let mates := here.filter fun b => b.op.mgang &&& a.mgang != 0
          let diff := mates.foldl (fun n b => n ||| identDiff b.ident ident) 0
          if diff != 0 then
            let info := BitVec.ofNat 64 (diff * 2 ^ 16 + arrivedColumns (new :: mates))
            .gone ((s.barrierTrap mates 0x17 info).takeTrap (issueTrap 0x17 a.pc 0 info))
          else
            let all := mates ++ [new]
            let s := { s with barrier := s.barrier ++ [new] }
            if arrivedColumns all = a.mgang.toNat then .gone (s.startGang all)
            else .parkHere s .gang

/-- GANG_STALL (R252): the gang whose first arrival is the agent `n`'s is not complete after its `gangto`: every waiting member takes cause 0x18. -/
def execGangStall (n : Nat) (s : State) : Host.Outcome State Fault Refusal :=
  match s.barrier.find? fun b => b.uid == n with
  | none => .next s
  | some b =>
    match s.agent? n with
    | none => .next s
    | some a =>
      let l := (s.rowArrivals a).filter fun q => q.ident == b.ident
      -- arrivals stand in the order in which they came
      if (l.head?.map Arrival.uid) == some n && decide (b.at_ + b.gangto ≤ s.cycle b.loc) then
        .next (s.barrierTrap l 0x18 (BitVec.ofNat 64 (arrivedColumns l)))
      else .next s

/-! ### Tile arithmetic (spec/04 R122 to R125) -/

/-- The bits of an operand element by format code. -/
def tileBits (f : Nat) : Nat :=
  match f with | 1 => 16 | 2 => 16 | 6 => 4 | 9 => 2 | _ => 8

/-- The value of a floating-point operand code without its scale. -/
def tileVal (f x : Nat) : Val :=
  match f with
  | 1 => Fmt.bf16.val x
  | 2 => Fmt.fp16.val x
  | 4 => Fmt.e5m2.val x
  | 6 => Fmt.e2m1.val x
  | _ => Fmt.e4m3.val x

/-- The integer of an INT8 or TERN code. -/
def tileInt (f x : Nat) : Int := if f = 9 then (match x with | 1 => 1 | 3 => -1 | _ => 0) else sval 8 x

/-- An exact product. -/
def mulExact (a b : Val) : Val :=
  match a, b with
  | .fin n m e, .fin n' m' e' => .fin (n != n') (m * m') (e + e')
  | .nan q, _ => .nan q
  | _, .nan q => .nan q
  | .inf n, .inf n' => .inf (n != n')
  | .inf n, .fin n' m _ => if m = 0 then .nan false else .inf (n != n')
  | .fin n m _, .inf n' => if m = 0 then .nan false else .inf (n != n')

/-- A signed dyadic number and a finite value added exactly. -/
def addDyadic (q : Int × Int) (v : Val) : Int × Int :=
  match v with
  | .fin n m e =>
    let k := min q.2 e
    (q.1 * 2 ^ (q.2 - k).toNat + (if n then -(m : Int) else m) * 2 ^ (e - k).toNat, k)
  | _ => q

/-- The sign of a value. -/
def Val.negative : Val → Bool
  | .fin n _ _ => n
  | .inf n => n
  | .nan _ => false

/-- A finite value that is zero. -/
def Val.isZero : Val → Bool
  | .fin _ m _ => m == 0
  | _ => false

/-- The group value G of R123 from 32 products and the two block scales (none for a NaN scale): its FP32 bits, and whether it became infinite from finite
values. -/
def groupValue (ps : List Val) (scale : Option Int) : Nat × Bool :=
  let t := Fmt.fp32
  match scale with
  | none => (t.nan, false)
  | some k =>
    let infs := ps.filterMap fun v => match v with | .inf n => some n | _ => none
    if ps.any Val.isNan || (infs.contains true && infs.contains false) then (t.nan, false)
    else match infs with
      | n :: _ => (t.infinity n, false)
      | [] =>
        let q := ps.foldl addDyadic (0, 0)
        if q.1 = 0 then (t.sign (ps.all fun v => v.isZero && v.negative), false)
        else
          let r := t.round 0 false (decide (q.1 < 0)) q.1.natAbs (q.2 + k)
          (r.bits, (match t.val r.bits with | .inf _ => true | _ => false))

/-- What a step of one element gives: the accumulator and whether `OVF` and `NANP` count it. -/
structure StepRes where
  v    : Nat
  ovf  : Bool
  nanp : Bool
  deriving DecidableEq, Repr

/-- An infinite FP32 pattern. -/
def fpInf (x : Nat) : Bool := match Fmt.fp32.val x with | .inf _ => true | _ => false

/-- A NaN FP32 pattern. -/
def fpNan (x : Nat) : Bool := (Fmt.fp32.val x).isNan

/-- One floating-point step (R123, R125). -/
def fpStep (acc : Nat) (g : Nat × Bool) : StepRes :=
  let r := (Fmt.fp32.addV 0 false (Fmt.fp32.val acc) (Fmt.fp32.val g.1)).bits
  ⟨r, g.2 || (fpInf r && !fpInf acc && !fpNan acc && !fpInf g.1), fpNan r && !fpNan acc⟩

/-- One integer step (R124). -/
def intStep (acc : Nat) (sum : Int) : StepRes :=
  let v := sval 32 acc + sum
  let c := saturate 32 v
  ⟨umod 32 c, c != v, false⟩

/-- The operands of one K-group as one member sees them: 64 rows of A and 128 columns of B, each 32 elements along K as one number, with their
scales. -/
structure Group where
  a  : List Nat
  b  : List Nat
  sa : List Nat
  sb : List Nat
  deriving DecidableEq, Repr

/-- Element `k` of a packed row. -/
def rowElem (f x k : Nat) : Nat := x / 2 ^ (tileBits f * k) % 2 ^ tileBits f

/-- The scale exponent of an element pair: E8M0 codes, none for a NaN. -/
def scaleOf (a b : Option Nat) : Option Int :=
  let one (x : Option Nat) : Option Int := match x with
    | none => some 0
    | some v => if v = 255 then none else some ((v : Int) - 127)
  match one a, one b with
  | some x, some y => some (x + y)
  | _, _ => none

/-- One step of element (m, n) (R123, R124). -/
def elemStep (cfg : Word) (g : Group) (m n acc : Nat) : StepRes :=
  let fa := cfgAfmt cfg
  let fb := cfgBfmt cfg
  let x := g.a.getD m 0
  let y := g.b.getD n 0
  if cfgAcc cfg = 8 then
    intStep acc (((List.range 32).map fun k => tileInt fa (rowElem fa x k) * tileInt fb (rowElem fb y k)).foldl (fun p q => p + q) 0)
  else
    let ps := (List.range 32).map fun k => mulExact (tileVal fa (rowElem fa x k)) (tileVal fb (rowElem fb y k))
    fpStep acc (groupValue ps (scaleOf (g.sa[m]?) (g.sb[n]?)))

/-- A row of the tile after a step: its bits, and how many of its elements `OVF` and `NANP` count. -/
def rowStep (cfg : Word) (g : Group) (m : Nat) (row : BitVec 4096) : BitVec 4096 × Nat × Nat :=
  let rs := (List.range 128).map fun n => elemStep cfg g m n (getField row (32 * n) 32)
  (BitVec.ofNat 4096 (rs.foldr (fun r v => r.v + 2 ^ 32 * v) 0), (rs.filter StepRes.ovf).length, (rs.filter StepRes.nanp).length)

/-- How many TERN codes 10 an operand's rows hold. -/
def ternBad (f : Nat) (rows : List Nat) : Nat :=
  if f != 9 then 0
  else (rows.map fun x => ((List.range 32).filter fun k => rowElem 9 x k == 2).length).foldl (fun a b => a + b) 0

/-- The whole tile after a step, with its counters (R125). -/
def Tile.step (t : Tile) (cfg : Word) (g : Group) : Tile :=
  let rs := t.rows.mapIdx fun m row => rowStep cfg g m row
  let cap (v : Nat) : Nat := min 0xFFFF v
  { t with rows := rs.map fun r => r.1,
           ovf := cap (t.ovf + (rs.toList.map fun r => r.2.1).foldl (fun a b => a + b) 0),
           nanp := cap (t.nanp + (rs.toList.map fun r => r.2.2).foldl (fun a b => a + b) 0),
           inval := cap (t.inval + ternBad (cfgAfmt cfg) g.a + ternBad (cfgBfmt cfg) g.b) }

/-! ### The tile fetch unit (R246, R248, R249) -/

/-- A fault of a fetch: cause, address, operand code (0 B, 1 A, 2 scale of A, 3 scale of B), column. -/
structure FetchBad where
  cause : Nat
  addr  : Nat
  opnd  : Nat
  col   : Nat
  deriving DecidableEq, Repr

/-- The first line of a read, from `va` on, that meets poisoned data and that the operation has not consumed (spec/20 R467). -/
def State.firstBad (s : State) (kept : List (Nat × BitVec 1024)) : Nat → List (Nat × Nat × Via) → Option (Nat × Nat × Via)
  | _, [] => none
  | va, q :: t =>
    if (kept.all fun k => k.1 != q.1 / 128) && s.readBad q.2.2 q.1 then some (va, q.1, q.2.2) else s.firstBad kept (va + q.2.1) t

/-- Read `n` bytes for an operand: from the lines that the operation consumed, else as a satellite read. -/
def State.tileRead (s : State) (t : Sat) (kept : List (Nat × BitVec 1024)) (opnd va n : Nat) : Except FetchBad (List Byte) × State :=
  let sp := s.satSpace t .tile
  let va := va % 2 ^ 64
  match s.translateSpans sp .read (lineSpans (n / 128 + 2) va n) with
  | (.error c, s) => (.error ⟨c.1, c.2, opnd, t.loc.column⟩, s)
  | (.ok l, s) =>
    match s.firstBad kept va l with
    | some q => (.error ⟨0x22, q.1 % 2 ^ 64, opnd, t.loc.column⟩, s.foundError t.loc (s.poisonUnit q.2.2.loc.mod (q.2.1 / 128)) q.2.1)
    | none =>
      let r := l.foldl (fun (q : List Byte × State) a =>
        match kept.find? fun k => k.1 == a.1 / 128 with
        | some k => (q.1 ++ lineBytes k.2 (a.1 % 128) a.2.1, q.2)
        | none =>
          let d := q.2.readLine a.2.2 a.1 a.2.1
          (q.1 ++ d.1, d.2)) ([], s)
      (.ok r.1, r.2)

/-- Reads one after the other, each as one number. -/
def State.tileReads (s : State) (t : Sat) (kept : List (Nat × BitVec 1024)) (opnd n : Nat) : List Nat → Except FetchBad (List Nat) × State
  | [] => (.ok [], s)
  | va :: q =>
    match s.tileRead t kept opnd va n with
    | (.error e, s) => (.error e, s)
    | (.ok bs, s) =>
      match s.tileReads t kept opnd n q with
      | (.error e, s) => (.error e, s)
      | (.ok l, s) => (.ok (bytesNat bs :: l), s)

/-- Rows that stand across K turned along K: from one number for each k to one for each row. -/
def turnRows (w count : Nat) (ks : List Nat) : List Nat :=
  (List.range count).map fun i => ks.foldr (fun x v => x / 2 ^ (w * i) % 2 ^ w + 2 ^ w * v) 0

/-- The addresses that group `g` of an operand reads, with the bytes of each read. -/
def operandReads (base stride f : Nat) (along : Bool) (count g : Nat) : List Nat × Nat :=
  if along then ((List.range count).map fun i => base + i * stride + 32 * g * tileBits f / 8, 32 * tileBits f / 8)
  else ((List.range 32).map fun k => base + (32 * g + k) * stride, count * tileBits f / 8)

/-- Group `g` of an operand. -/
def State.readOperand (s : State) (t : Sat) (kept : List (Nat × BitVec 1024)) (opnd base stride f : Nat) (along : Bool) (count g : Nat) :
    Except FetchBad (List Nat) × State :=
  let r := operandReads base stride f along count g
  match s.tileReads t kept opnd r.2 r.1 with
  | (.error e, s) => (.error e, s)
  | (.ok l, s) => (.ok (if along then l else turnRows (tileBits f) count l), s)

/-- The scales of group `g` of an MX operand, one for each row (R244). -/
def State.readScales (s : State) (t : Sat) (opnd base stride f msbase count g : Nat) : Except FetchBad (List Nat) × State :=
  if f = 5 || f = 6 then
    s.tileReads t [] opnd 1 ((List.range count).map fun i => msbase + (base + i * stride + 32 * g * tileBits f / 8) % 2 ^ 64 / 16)
  else (.ok [], s)

/-- A and its scales, as the lowest member reads them. -/
def State.readA (s : State) (t : Sat) (o : TileOp) (g : Nat) : Except FetchBad (List Nat × List Nat) × State :=
  let c := o.cfg
  match s.readOperand t o.aLines 1 o.ra.toNat (cfgAstride c) (cfgAfmt c) (!cfgAtrans c) 64 g with
  | (.error e, s) => (.error e, s)
  | (.ok a, s) =>
    match s.readScales t 2 o.ra.toNat (cfgAstride c) (cfgAfmt c) o.msbase.toNat 64 g with
    | (.error e, s) => (.error e, s)
    | (.ok sa, s) => (.ok (a, sa), s)

/-- B and its scales, as a member reads them. -/
def State.readB (s : State) (t : Sat) (o : TileOp) (g : Nat) : Except FetchBad (List Nat × List Nat) × State :=
  let c := o.cfg
  match s.readOperand t o.bLines 0 o.rb.toNat (cfgBstride c) (cfgBfmt c) (cfgBtrans c) 128 g with
  | (.error e, s) => (.error e, s)
  | (.ok b, s) =>
    match s.readScales t 3 o.rb.toNat (cfgBstride c) (cfgBfmt c) o.msbase.toNat 128 g with
    | (.error e, s) => (.error e, s)
    | (.ok sb, s) => (.ok (b, sb), s)

/-- Consume the lines of some reads at their homes, each once (R249): the first fault, and the bytes kept. Every line is read, also after one that fails,
and the decrements stand: R249 says that the operation reads every consumed line, and not which of them a failure leaves unread (DESIGN CHOICE, log
entry 55). -/
def State.consumeReads (s : State) (t : Sat) (opnd : Nat) (got : List (Nat × BitVec 1024)) :
    List (Nat × Nat) → Option FetchBad × List (Nat × BitVec 1024) × State
  | [] => (none, got, s)
  | (va, _) :: q =>
    let bad (c : Nat) (s : State) : Option FetchBad × List (Nat × BitVec 1024) × State :=
      (some ⟨c, va % 2 ^ 64, opnd, t.loc.column⟩, (s.consumeReads t opnd got q).2)
    match s.translate (s.satSpace t .tile) (va % 2 ^ 64) .read with
    | (.error c, s) => bad c s
    | (.ok (pa, v), s) =>
      if got.any fun k => k.1 == pa / 128 then s.consumeReads t opnd got q
      else if (s.counted? v.loc.mod (pa / 128)).isSome && s.poisoned v.loc.mod (pa / 128) then
        bad 0x22 (s.foundError t.loc (s.poisonUnit v.loc.mod (pa / 128)) pa)
      else match s.consume v pa with
        | (.error _, s) => bad 0x0E s
        | (.ok d, s) => s.consumeReads t opnd (got ++ [(pa / 128, d)]) q

/-- The line spans of a whole operand. -/
def operandSpans (base stride f : Nat) (along : Bool) (count groups : Nat) : List (Nat × Nat) :=
  (List.range groups).flatMap fun g =>
    let r := operandReads base stride f along count g
    r.1.flatMap fun va => lineSpans (r.2 / 128 + 2) (va % 2 ^ 64) r.2

/-- The members of a tile operation, lowest column first. -/
def State.gangOf (s : State) (t : Sat) (o : TileOp) : List (Sat × TileOp) :=
  let all := s.sats.filterMap fun d =>
    if d.loc.mod == t.loc.mod && d.loc.die == t.loc.die && !d.terminal then
      match d.task with
      | .mma p => if p.gang = o.gang then some (d, p) else none
      | _ => none
    else none
  (List.range 16).flatMap fun c => all.filter fun q => q.1.loc.column == c

/-- A tile operation begins in every member at once, when each of them may begin (R256). -/
def State.beginGang (s : State) (t : Sat) (o : TileOp) : State :=
  let ms := s.gangOf t o
  if ms.all fun q => s.satEligible q.1 then ms.foldl (fun s q => s.beginSat q.1) s else s

/-- Every member ends with one record (R257). -/
def State.gangFault (s : State) (ms : List (Sat × TileOp)) (e : FetchBad) : State :=
  ms.foldl (fun s q => s.endSat q.1.sid 3 e.cause (BitVec.ofNat 64 e.addr) (e.opnd * 16 + e.col)) s

/-- The consumed lines of a member's operation: A for the lowest member, B for each; with the first fault. -/
def State.consumeMember (s : State) (t : Sat) (o : TileOp) : Option FetchBad × TileOp × State :=
  let c := o.cfg
  let a := if cfgAconsume c && o.lead then
      s.consumeReads t 1 [] (operandSpans o.ra.toNat (cfgAstride c) (cfgAfmt c) (!cfgAtrans c) 64 o.groups) else (none, [], s)
  let b := if cfgBconsume c then
      a.2.2.consumeReads t 0 [] (operandSpans o.rb.toNat (cfgBstride c) (cfgBfmt c) (cfgBtrans c) 128 o.groups) else (none, [], a.2.2)
  (a.1.or b.1, { o with aLines := a.2.1, bLines := b.2.1 }, b.2.2)

/-- The consumed lines of every member; the first fault counts for all. -/
def State.consumeGang (s : State) (ms : List (Sat × TileOp)) : Option FetchBad × State :=
  ms.foldl (fun (q : Option FetchBad × State) m =>
    let r := q.2.consumeMember m.1 m.2
    (q.1.or r.1, r.2.2.updSat m.1.sid fun t => { t with task := .mma r.2.1 })) (none, s)

/-- The groups of every member's B, lowest column first. -/
def State.readAllB (s : State) (g : Nat) : List (Sat × TileOp) → Except FetchBad (List (List Nat × List Nat)) × State
  | [] => (.ok [], s)
  | m :: q =>
    match s.readB m.1 m.2 g with
    | (.error e, s) => (.error e, s)
    | (.ok b, s) =>
      match s.readAllB g q with
      | (.error e, s) => (.error e, s)
      | (.ok l, s) => (.ok (b :: l), s)

/-- A member's step with group `g` read, and its end after the last group. -/
def State.memberStep (s : State) (t : Sat) (o : TileOp) (g : Group) : State :=
  let s := s.updTile t.loc o.acc fun q => q.step o.cfg g
  let s := s.updSat t.sid fun t => { t with units := t.units + 1 }
  s.updCore t.loc fun c =>
    let n := ((c.kgroups.find? fun q => q.1 == t.rid).map Prod.snd).getD 0
    { c with kgroups := upsert (fun q => q.1 == t.rid) (t.rid, n + 1) c.kgroups }

/-- One K-group of a tile operation in every member of its gang (R255). -/
def State.groupStep (s : State) (t : Sat) (o : TileOp) : State :=
  let ms := s.gangOf t o
  if ms.any fun q => q.1.cancel then ms.foldl (fun s q => s.endSat q.1.sid 2 0 0 0) s
  else
    let first := t.units == 0
    let c := if first then s.consumeGang ms else (none, s)
    match c with
    | (some e, s) => s.gangFault ms e
    | (none, s) =>
      let ms := s.gangOf t o
      match ms with
      | [] => s
      | lead :: _ =>
        match s.readA lead.1 lead.2 t.units with
        | (.error e, s) => s.gangFault ms e
        | (.ok a, s) =>
          match s.readAllB t.units ms with
          | (.error e, s) => s.gangFault ms e
          | (.ok bs, s) =>
            let s := (ms.zip bs).foldl (fun s q => s.memberStep q.1.1 q.1.2 ⟨a.1, q.2.1, a.2, q.2.2⟩) s
            if o.groups ≤ t.units + 1 then ms.foldl (fun s q => s.endSat q.1.sid 0 0 0 0) s else s

/-- MMA_GROUP_STEP: one K-group of the tile operation of the satellite `n`, in every member. -/
def execMmaGroupStep (n : Nat) (s : State) : Host.Outcome State Fault Refusal :=
  match s.sats.find? fun t => t.sid == n with
  | some t =>
    match t.task with
    | .mma o => if t.begun && !t.terminal && (s.gangOf t o).all fun q => q.1.begun then .next (s.groupStep t o) else .next s
    | _ => .next s
  | none => .next s

/-! ### Loading a tile (R260) -/

/-- Bytes put into a row of the tile. -/
def Tile.putRow (t : Tile) (m o : Nat) (bs : List Byte) : Tile :=
  { t with rows := t.rows.setIfInBounds m (setField (t.rows.toList.getD m 0) (8 * o) (8 * bs.length) (bytesNat bs)) }

/-- Bytes put into the row carries. -/
def Tile.putCarries (t : Tile) (o : Nat) (bs : List Byte) : Tile :=
  let all : Nat := bytesNat (t.carries.toList.flatMap fun c => natBytes 4 c.toNat)
  let v := setField (BitVec.ofNat 2048 all) (8 * o) (8 * bs.length) (bytesNat bs)
  { t with carries := t.carries.mapIdx fun m _ => BitVec.ofNat 32 (getField v (32 * m) 32) }

/-- One line of a load. A row of the tile is written when all of it has come (R260); each carry of a `CARRY` load is a row's own, and is written with its
line. -/
def State.loadStep (s : State) (t : Sat) (acc : Nat) (carry : Bool) (cfg base stride : Word) (row : List Byte) : State :=
  let n := if carry then 256 else 512
  let rows := if carry then 1 else 64
  let at_ (r : Nat) : Nat := umod 64 ((base.toNat : Int) + stride.toInt * r)
  match rowFind at_ n rows 0 t.units with
  | none => s.endSat t.sid 0 0 0 0
  | some q =>
    if t.cancel then s.endSat t.sid 2 0 0 0
    else
      let u := blockUnit (at_ q.1) n q.2
      let va := (at_ q.1 + u.1) % 2 ^ 64
      match s.vread (s.satSpace t .tile) va u.2 with
      | (.error c, s) => s.endSat t.sid 3 c.1 (BitVec.ofNat 64 c.2) 0
      | (.ok bs, s) =>
        let whole := row ++ bs
        let s : State := if carry then s.updTile t.loc acc fun w => w.putCarries u.1 bs
          else if u.1 + u.2 = n then s.updTile t.loc acc fun w => w.putRow q.1 0 whole else s
        let left := if carry || u.1 + u.2 == n then [] else whole
        let s := s.updSat t.sid fun t => { t with units := t.units + 1, task := .mldacc acc carry cfg base stride left }
        if (rowFind at_ n rows 0 (t.units + 1)).isNone then s.endSat t.sid 0 0 0 0 else s

/-- MLDACC_LINE: one line of the load of the satellite `n`. -/
def execMldaccLine (n : Nat) (s : State) : Host.Outcome State Fault Refusal :=
  match s.sats.find? fun t => t.sid == n with
  | some t =>
    match t.task with
    | .mldacc acc carry cfg ra rb row => if t.begun && !t.terminal then .next (s.loadStep t acc carry cfg ra rb row) else .next s
    | _ => .next s
  | none => .next s

/-! ### Draining a tile (R261 to R264) -/

/-- The bytes of an element of a drain. -/
def drainWidth (carry : Bool) (cfg : Word) : Nat := if carry then 4 else codeBits (cfgDrain cfg) / 8

/-- One element converted (R262): its bits, the row's carry after it, whether `OVF` counts it. -/
def drainElem (cfg : Word) (x carry : Nat) : Nat × Nat × Bool :=
  let d := cfgDrain cfg
  if cfgAcc cfg = 8 then
    let v := sval 32 x
    let c := saturate (codeBits d) v
    (umod (codeBits d) c, carry, c != v)
  else if cfgMode cfg = 5 then
    let r := efStep .fp32 (fmtOf d) (cfgSp cfg) x carry
    (r.1.bits, r.2, (r.1.flags &&& flagOF) != 0)
  else
    let r := (fmtOf d).convV (cfgMode cfg) (cfgSp cfg) (Fmt.fp32.val x)
    (r.bits, carry, (r.flags &&& flagOF) != 0)

/-- Convert some elements in order, from the carries of a tile, and the tile with the carries after them. -/
def drainElems (cfg : Word) (carry : Bool) : List Lane → Tile → List Staged × Tile
  | [], t => ([], t)
  | l :: q, t =>
    let m := if carry then l.i else l.i / 128
    let c := t.carries.toList.getD m 0
    if carry then
      let r := drainElems cfg carry q t
      (⟨l.place, natBytes 4 c.toNat, m, 0, c, false⟩ :: r.1, r.2)
    else
      let e := drainElem cfg (getField (t.rows.toList.getD m 0) (32 * (l.i % 128)) 32) c.toNat
      let t := { t with carries := t.carries.setIfInBounds m (BitVec.ofNat 32 e.2.1) }
      let r := drainElems cfg carry q t
      (⟨l.place, natBytes (drainWidth carry cfg) e.1, m, l.i % 128, BitVec.ofNat 32 e.2.1, e.2.2⟩ :: r.1, r.2)

/-- A tile with the carries that a drain has come to in its rows. -/
def Tile.running (t : Tile) (rows : List DrainRow) : Tile :=
  rows.foldl (fun t r => { t with carries := t.carries.setIfInBounds r.row r.carry }) t

/-- The rows of a drain after some more elements. -/
def drainRows (rows : List DrainRow) (l : List Staged) : List DrainRow :=
  l.foldl (fun rows e => upsert (fun r => r.row == e.row) ⟨e.row, e.carry, ((rows.find? fun r => r.row == e.row).map DrainRow.upto).getD 0⟩ rows) rows

/-- The elements of a line that is sent move the tile's carries and `OVF` (R262): a row's carry becomes that after its last element in the line, unless a
line that was sent before has moved it further. -/
def Tile.drained (q : Tile × List DrainRow) (l : List Staged) : Tile × List DrainRow :=
  l.foldl (fun q e =>
    let t := { q.1 with ovf := min 0xFFFF (q.1.ovf + bnat e.ovf) }
    if (q.2.any fun r => r.row == e.row && decide (e.col < r.upto)) then (t, q.2)
    else ({ t with carries := t.carries.setIfInBounds e.row e.carry }, mapIf (fun r => r.row == e.row) (fun r => { r with upto := e.col + 1 }) q.2)) q

/-- The line that an element lies in. -/
def Lane.line (l : Lane) : Nat := l.place / 128

/-- The elements that a drain converts before the next line is sent, and those after them, in ascending element index (R262): the next ones that lie in
one line; for a counted drain, which sends a line whole (R264), those up to the first that no later element joins in its line. -/
def drainCut (counted : Bool) : List Lane → List Lane × List Lane
  | [] => ([], [])
  | l :: t =>
    let ends := if counted then t.all fun m => m.line != l.line else (t.head?.map Lane.line) != some l.line
    if ends then ([l], t) else (l :: (drainCut counted t).1, (drainCut counted t).2)

/-- Bytes of elements placed in one line, later ones over earlier ones: the line and the mask of the bytes written. -/
def lineImage (l : List Staged) : BitVec 1024 × BitVec 128 :=
  l.foldl (fun q e =>
    let m := maskSpan (e.place % 128) e.bytes.length
    (mergeLine m (lineAt (e.place % 128) e.bytes) q.1, q.2 ||| m)) (0, 0)

/-- The stretches of a byte mask. -/
def maskRuns (m : BitVec 128) : List (Nat × Nat) :=
  ((List.range 128).foldr (fun i q =>
    if m.getLsbD i then
      match q with
      | (o, n) :: t => if o = i + 1 then (i, n + 1) :: t else (i, 1) :: (o, n) :: t
      | [] => [(i, 1)]
    else q) [])

/-- The stretches of a line written one after the other, until one is refused. -/
def State.drainPut (s : State) (v : Via) (tag : StoreTag) (line : Nat) (d : BitVec 1024) : List (Nat × Nat) → Except Nat Unit × State
  | [] => (.ok (), s)
  | (o, n) :: t =>
    match s.unitWrite v tag (line * 128 + o) (lineBytes d o n) with
    | (.error c, s) => (.error c, s)
    | (.ok (), s) => s.drainPut v tag line d t

/-- The line of a converted element. -/
def Staged.line (e : Staged) : Nat := e.place / 128

/-- One line of a drain: its elements, and for a counted drain those before them in ascending index, are converted, and the line is sent. Its conversions
stand also where the home refuses the line, and those of no other line do (R262). -/
def State.drainLineStep (s : State) (t : Sat) (acc : Nat) (carry : Bool) (cfg : Word) (elems : List Lane) (staged : List Staged) (rows : List DrainRow) :
    State :=
  let readers := saReaders t.sattr
  let cut := drainCut (readers != 0) elems
  match cut.1.getLast? with
  | none => s.endSat t.sid 0 0 0 0
  | some last =>
    if t.cancel then s.endSat t.sid 2 0 0 0
    else
      let new := (drainElems cfg carry cut.1 ((s.tile t.loc acc).running rows)).1
      let all := staged ++ new
      let sent := all.filter fun e => e.line == last.line
      let moved := Tile.drained (s.tile t.loc acc, drainRows rows new) sent
      let s := s.updTile t.loc acc fun _ => moved.1
      let im := lineImage sent
      let v : Via := { s.via t.loc t.rid with key := last.key }
      let at_ := last.val.getD 0 / 128 * 128
      let w := if readers = 0 then s.drainPut v (t.tag at_) last.line im.1 (maskRuns im.2) else s.countedFill v (last.line * 128) im.1 readers
      match w with
      | (.error c, s) => s.endSat t.sid 3 c (BitVec.ofNat 64 at_) 0
      | (.ok (), s) =>
        let full := cut.2.all fun l => l.line != last.line
        let s := s.updSat t.sid fun t =>
          { t with units := t.units + bnat full, task := .mdrn acc carry cfg cut.2 (all.filter fun e => e.line != last.line) moved.2 }
        if cut.2.isEmpty then s.endSat t.sid 0 0 0 0 else s

/-- DRAIN_LINE: one line of the drain of the satellite `n`. -/
def execDrainLine (n : Nat) (s : State) : Host.Outcome State Fault Refusal :=
  match s.sats.find? fun t => t.sid == n with
  | some t =>
    match t.task with
    | .mdrn acc carry cfg elems staged rows =>
      if t.begun && !t.terminal then .next (s.drainLineStep t acc carry cfg elems staged rows) else .next s
    | _ => .next s
  | none => .next s

/-! ### The address stage of a drain (R261, R263) -/

/-- The elements of a drain entry: index, address. -/
def drainAddrs (a : Agent) (e : Entry) (carry : Bool) (cfg : Word) (vl : Nat) (mask : BitVec 1024) : List (Nat × Word) :=
  let base := e.xs.getD 0 0
  let stride := e.xs.getD 1 0
  let wb := drainWidth carry cfg
  if carry then (List.range 64).map fun m => (m, base + BitVec.ofNat 64 (4 * m))
  else
    let cols := (List.range (min vl 128)).filter fun n => mask.getLsbD n
    (List.range 64).flatMap fun m => cols.map fun n =>
      (128 * m + n,
        match e.instr with
        | .mdrnx _ o => base + BitVec.ofNat 64 (wb * (a.elem (BitVec.ofNat 5 (o.i.field 1 5)) 32 m + n))
        | _ => base + stride * BitVec.ofNat 64 m + BitVec.ofNat 64 (wb * n))

/-- Probe the elements of a drain for write, through the TLB of the drain path (spec/17 R420). -/
def State.probeDrain (s : State) (wb : Nat) : List (Nat × Word) → List Probe × State
  | [] => ([], s)
  | (i, addr) :: t =>
    let p : Probe × State :=
      if addr.toNat % wb != 0 then (⟨i, addr, .error 0x04⟩, s)
      else match s.translate { s.mySpace with unit := .drain } addr.toNat .write with
        | (.error c, s) => (⟨i, addr, .error c⟩, s)
        | (.ok (pa, v), s) => (⟨i, addr, .ok ⟨i, pa, v.key, 0, false, some addr.toNat⟩⟩, s)
    let r := p.2.probeDrain wb t
    (p.1 :: r.1, r.2)

/-- The satellite of a drain entry: on the core that issued it, where a detached one stays when its thread goes on elsewhere (R261, spec/15 R386). -/
def State.drainSat (s : State) (e : Entry) : Option Sat :=
  s.sats.find? fun t => t.loc.mod == s.me.loc.mod && t.issuer == s.me.uid && t.token == e.tok && t.engine == .drain

/-- The address stage of a drain with its `vl` and predicate: all of its elements, or its trap; then the satellite may begin. -/
def State.stageDrain (s : State) (e : Entry) : State :=
  match s.drainSat e with
  | none => s.passEntry e
  | some t =>
    if t.ready || t.terminal then s.passEntry e
    else match t.task with
      | .mdrn _ carry cfg _ _ _ =>
        let wb := drainWidth carry cfg
        let r := s.probeDrain wb (drainAddrs s.me e carry cfg e.vl e.mask)
        let k : MemKind := ⟨true, false, false, false⟩
        let s := r.2
        let bad := r.1.find? Probe.bad
        let below := match bad with
          | some p => r.1.filter fun q => decide (q.i < p.i)
          | none => r.1
        match s.debugElems k wb below with
        | (some (q, es), s) =>
          let s := if es.any DebugEntry.all then s.stopAll s.me else s
          s.upd fun a => a.stopAt q.i (e.elemTrap 0x20 q.addr q.i)
        | (none, s) =>
          match bad with
          | some p => s.upd fun a => a.stopAt p.i (e.elemTrap p.cause p.addr p.i)
          | none =>
            let els := r.1.map Probe.lane
            (s.updSat t.sid fun t =>
              { t with ready := true,
                       task := match t.task with
                         | .mdrn acc c g _ k rows => .mdrn acc c g els k rows
                         | k => k }).passEntry e
      | _ => s.passEntry e

end Sys2Proof.Machine
end

