-- ==== Sys2Proof/Machine/Coll.lean ====
section
/-! DEFINITION. Sys2Proof/Machine/Coll.lean: how a satellite begins on its engine, and collectives (spec/10 R283 to R287). -/

namespace Sys2Proof.Machine

/-! ### Steps -/

/-- Send the notice of the step under way through its notice key (R284). -/
def State.collNotice (s : State) (t : Sat) (cs : CollState) (cur : List Word) : State :=
  let now := s.meridian t.loc.mod
  let s := s.updColl t.sid fun c => { c with noticeT := some (cs.noticeT.getD now), retryAt := none }
  let req := s.nextReq
  let holder := ((s.region? t.loc.mod t.rid).map Region.holder).getD 0xFFFF
  let gid := (cs.header.map hdGid).getD 0
  (s.updSat t.sid fun t => { t with req := some req }).request t.loc t.rid
    (Packet.request t.loc (stKey cur 1) 0 8 0 holder [] [BitVec.ofNat 64 gid, BitVec.ofNat 64 (stTag cur)]) (.notice t.sid)

/-- Read a 32-byte key of the array: its four doublewords. The spec gives no outcome for an array that is not aligned to 32: the model reads the key as it
stands there (DESIGN CHOICE, log entry 55). -/
def State.collKey (s : State) (t : Sat) (keys k : Nat) : Except (Nat × Nat) (List Word) × State :=
  match s.vread (s.satSpace t .coll) ((keys + 32 * k) % 2 ^ 64) 32 with
  | (.error c, s) => (.error c, s)
  | (.ok bs, s) => (.ok (dwords 4 bs), s)

/-- A fault in the table: side 2 (R287). -/
def State.collBad (s : State) (t : Sat) (cause addr : Nat) : State := s.faultSat t.sid cause addr 2

/-- The checks of a data key as a `cpyk.put` makes them (R281): the cause with the window offset. -/
def dataKeyBad (k : Key) (mod : Nat) (atomic : Bool) (off n : Nat) : Option (Nat × Nat) :=
  if 2 ≤ kKind k then some (0x09, off)
  else if kLen k < off + n then some (0x08, max off (kLen k))
  else if !kRouted k mod || !kHas k 1 || (atomic && !kHas k 2) then some (0x09, off)
  else none

/-- The data key of a step; one without data reads none (R284). -/
def State.collData (s : State) (t : Sat) (keys : Nat) (c : List Word) : Except (Nat × Nat) (List Word) × State :=
  if stLen c = 0 then (.ok [0, 0, 0, 0], s) else s.collKey t keys (stDkey c)

/-- A SEND or SENDRED begins, with its keys read (R284, R285): its fields and key checks, then its units, or its notice where it has none. A reduction into
a scratchpad is refused as every instruction refuses one (R267; log entry 56). -/
def State.collSend (s : State) (t : Sat) (cs : CollState) (at_ : Nat) (c : List Word) : State :=
  let keys := dw (cs.header.getD []) 1
  match s.collData t keys c with
  | (.error e, s) => s.collBad t e.1 e.2
  | (.ok dk, s) =>
    match s.collKey t keys (stNkey c) with
    | (.error e, s) => s.collBad t e.1 e.2
    | (.ok nk, s) =>
      let cur := c ++ dk ++ nk
      let k := stKey cur 1
      let red := stAction c == 1 && saRedop t.sattr != 0
      if kKind k != 3 || (red && stLen c != 0 && kKind (stKey cur 0) == 1) then s.collBad t 0x01 at_
      else if !kRouted k t.loc.mod || !kHas k 3 then s.faultSat t.sid 0x09 0 1
      else
        let bad := if stLen c = 0 then none else dataKeyBad (stKey cur 0) t.loc.mod red (dw c 3) (stLen c)
        match bad with
        | some e => s.faultSat t.sid e.1 e.2 1
        | none =>
          let cs' := { cs with cur := some cur, unit := 0, stepT := s.meridian t.loc.mod }
          let s := s.updColl t.sid fun _ => cs'
          if stLen c = 0 then s.collNotice t cs' cur
          else s

/-! ### Beginning -/

/-- The header of a collective is read once, as its satellite begins (R285). -/
def State.collBegin (s : State) (t : Sat) (table : Nat) : State :=
  match s.vread (s.satSpace t .coll) table 32 with
  | (.error c, s) => s.collBad t c.1 c.2
  | (.ok bs, s) =>
    let h := dwords 4 bs
    if !hdLegal h then s.collBad t 0x01 table
    else s.updColl t.sid fun c =>
      { c with header := some h, base := if dw h 2 = 0 then s.meridian t.loc.mod else dw h 2 }

/-- `mclr` writes its zeros as it begins, and is done (spec/09 R259). -/
def State.clearTile (s : State) (t : Sat) (acc : Nat) : State :=
  (s.updTile t.loc acc fun q => { q with rows := Vector.replicate 64 0, carries := Vector.replicate 64 0 }).endSat t.sid 0 0 0 0

/-- SATELLITE_BEGIN (spec/02 R57): the engine admits the satellite `n`, which makes its acquire (spec/05 R151). A gang's tile operation begins in every
member together; a collective reads its header; `mclr` is done at once; a `tlbi` makes its release at scope 3 (spec/17 R421). -/
def execSatelliteBegin (n : Nat) (s : State) : Host.Outcome State Fault Refusal :=
  match s.sats.find? fun t => t.sid == n with
  | some t =>
    if s.satEligible t && s.engineFree t && s.servedNext t then
      match t.task with
      | .mma o => .next (s.beginGang t o)
      | .mclr acc => .next ((s.beginSat t).clearTile t acc)
      | .coll table _ _ _ => .next ((s.beginSat t).collBegin { t with begun := true } table)
      | .tlbi _ _ _ _ _ => .next ((s.beginSat t).release t.loc 3)
      | _ => .next (s.beginSat t)
    else .next s
  | none => .next s

/-- COLL_STEP_BEGIN (R284, R285): the next step of the collective `n` begins when the one before it has ended and its time has come; it is read once. A
cancelled collective ends here. -/
def execCollStepBegin (n : Nat) (s : State) : Host.Outcome State Fault Refusal :=
  match s.sats.find? fun t => t.sid == n with
  | some t =>
    match t.task with
    | .coll table _ len cs =>
      match cs.header with
      | none => .next s
      | some h =>
        let due := cs.base + cs.step * dw h 3
        if !t.begun || t.terminal || cs.cur.isSome || decide (s.meridian t.loc.mod < due) then .next s
        else if t.cancel then .next (s.endSat t.sid 2 0 0 0)
        else
          let at_ := (table + 32 + 32 * cs.step) % 2 ^ 64
          match s.vread (s.satSpace t .coll) at_ 32 with
          | (.error c, s) => .next (s.collBad t c.1 c.2)
          | (.ok bs, s) =>
            let c := dwords 4 bs
            if bits (dw c 0) 24 40 != 0 || bits (dw c 0) 4 4 != 0 || decide (3 ≤ stAction c) then .next (s.collBad t 0x01 at_)
            else if stAction c = 2 then
              .next ((s.updColl t.sid fun q => { q with cur := some c, unit := 0, stepT := s.meridian t.loc.mod }).collWaits t.loc)
            else if dw c 2 + stLen c > len then .next (s.collBad t 0x01 at_)
            else .next (s.collSend t cs at_ c)
    | _ => .next s
  | none => .next s

/-! ### Units of a SEND -/

/-- Unit `j` of the step under way. -/
def collUnit (c : List Word) (j : Nat) : Option CopyUnit := copyUnitAt (.window (stKey c 0) (dw c 3)) (stLen c) 1 0 j

/-- One unit of a SEND: read from the buffer and sent as a put (R284). -/
def State.collUnitStep (s : State) (t : Sat) (buf : Nat) (cs : CollState) (c : List Word) : State :=
  match collUnit c cs.unit with
  | none => s
  | some u =>
    if t.cancel then s.endSat t.sid 2 0 0 0
    else if stAction c = 1 && s.outOfOrder t (.window (stKey c 0) (dw c 3)) 0 u then s
    else match s.vread (s.satSpace t .coll) ((buf + dw c 2 + u.off) % 2 ^ 64) u.len with
      | (.error e, s) => s.faultSat t.sid e.1 e.2 0
      | (.ok bs, s) =>
        s.unitRequest t (stKey c 0) (dw c 3 + u.off) 2 bs
          [stAttr c t.sattr, BitVec.ofNat 64 (putFlags (stKey c 0) (dw c 3) (stLen c) u)]

/-- The answer to a unit of a collective: the next unit, or after the last the notice; a refusal ends it faulted (R281). -/
def State.collAnswer (s : State) (t : Sat) (cs : CollState) (ans : Except Nat (List Byte)) : State :=
  match cs.cur with
  | none => s
  | some c =>
    match ans with
    | .error e => s.faultSat t.sid e (dw c 3 + ((collUnit c cs.unit).map CopyUnit.off).getD 0) 1
    | .ok _ =>
      let cs' := { cs with unit := cs.unit + 1 }
      let s := (s.updSat t.sid fun t => { t with req := none }).updColl t.sid fun _ => cs'
      if (collUnit c cs'.unit).isNone then s.collNotice t cs' c else s

/-- The answer to a satellite's unit. -/
def State.answerUnit (s : State) (sid : Nat) (ans : Except Nat (List Byte)) : State :=
  match s.sats.find? fun t => t.sid == sid with
  | none => s
  | some t =>
    match t.task with
    | .coll _ _ _ cs => s.collAnswer t cs ans
    | _ => s.unitAnswer sid ans

/-- The answer to a notice (R286): accepted, refused for a full table and sent again later, or refused for good. -/
def State.answerNotice (s : State) (sid : Nat) (ans : Except Nat (List Byte)) : State :=
  match s.sats.find? fun t => t.sid == sid with
  | none => s
  | some t =>
    match t.coll? with
    | none => s
    | some cs =>
      match ans with
      | .ok _ => s.collStepDone t cs
      | .error c =>
        if c = 0x82 then (s.updSat sid fun t => { t with req := none }).updColl sid fun q => { q with retryAt := some (s.meridian t.loc.mod + 1000) }
        else s.faultSat sid c 0 1

/-- COPY_UNIT (R275, R284, R298): the engine does one unit of the satellite `n`: a copy, a line of a `cdrain`, a unit of a collective's SEND. A unit that
waits for its answer, or on a PENDING line, changes nothing. -/
def execCopyUnit (n : Nat) (s : State) : Host.Outcome State Fault Refusal :=
  match s.sats.find? fun t => t.sid == n with
  | some t =>
    if !t.begun || t.terminal || t.req.isSome then .next s
    else match t.task with
      | .copy src dst k rows shape => .next (s.copyStep t src dst k rows shape)
      | .cdrain base k d => .next (s.drainStep t base k d)
      | .coll _ buf _ cs =>
        match cs.cur with
        | some c => if cs.waiting || cs.noticeT.isSome then .next s else .next (s.collUnitStep t buf cs c)
        | none => .next s
      | _ => .next s
  | none => .next s

/-- COLL_NOTICE_RESEND (R286): the refused notice of the collective `n` is sent again, 1 µs after its refusal. -/
def execCollNoticeResend (n : Nat) (s : State) : Host.Outcome State Fault Refusal :=
  match s.sats.find? fun t => t.sid == n with
  | some t =>
    match t.coll? with
    | some cs =>
      match cs.retryAt, cs.cur with
      | some r, some c =>
        if !t.terminal && decide (r ≤ s.meridian t.loc.mod) then .next (s.collNotice t cs c) else .next s
      | _, _ => .next s
    | none => .next s
  | none => .next s

/-- What the 1 ms of R286 has run out for in the collective `n`: its WAIT has taken no entry, or its notice is still refused. -/
def State.noticeLate (s : State) (n : Nat) (t : Sat) (table : Nat) (cs : CollState) : State :=
  let now := s.meridian t.loc.mod
  let refused := cs.retryAt.isSome && ((cs.noticeT.map fun f => decide (f + 1000000 ≤ now)).getD false)
  if t.terminal then s
  else if cs.waiting && !cs.took && decide (cs.stepT + 1000000 ≤ now) then s.collBad t 0x23 (table + 32 + 32 * cs.step)
  else if refused then s.faultSat n 0x23 0 1
  else s

/-- COLL_NOTICE_TIMEOUT (R286): 1 ms after its first sending the notice of the collective `n` is still refused, or 1 ms after its step began its WAIT
has taken no entry, though every free entry has been offered: cause 0x23. -/
def execCollNoticeTimeout (n : Nat) (s : State) : Host.Outcome State Fault Refusal :=
  match s.sats.find? fun t => t.sid == n with
  | none => .next s
  | some t =>
    let s := s.collWaits t.loc
    match s.sats.find? fun t => t.sid == n with
    | some t =>
      match t.task with
      | .coll table _ _ cs => .next (s.noticeLate n t table cs)
      | _ => .next s
    | none => .next s

end Sys2Proof.Machine
end

