-- ==== Sys2Proof/Machine/Msgs.lean ====
section
/-! DEFINITION. Sys2Proof/Machine/Msgs.lean: messages at their sender (spec/11 R317 to R325) and the handler table (R326, R327). -/

namespace Sys2Proof.Machine

/-! ### Send queues (R317, R319, R325) -/

/-- The entries of a core's queue on a virtual network, of 16. -/
def State.sendUsed (s : State) (l : Loc) (vn : Nat) : List SendEntry := s.sendq.filter fun q => q.loc == l && q.vn == vn

/-- A free entry of a core's queue. -/
def State.freeSend (s : State) (l : Loc) (vn : Nat) : Option Nat :=
  (List.range 16).find? fun n => (s.sendUsed l vn).all fun q => q.id != n

/-- An entry of a queue is freed. -/
def State.dropSend (s : State) (l : Loc) (vn id : Nat) : State :=
  { s with sendq := s.sendq.filter fun q => !(q.loc == l && q.vn == vn && q.id == id) }

/-- What a send reserves for its dispatch-queue entry `entry`: a queue entry, and with `reply` a reply slot; otherwise cause 0x11 or 0x12. -/
def State.reserveSend (s : State) (vn entry : Nat) (reply : Bool) : Except Nat (Nat × Option Nat) × State :=
  let l := s.me.loc
  match s.freeSend l vn with
  | none => (.error 0x11, s)
  | some id =>
    if !reply then (.ok (id, none), { s with sendq := s.sendq ++ [⟨l, vn, id, s.me.uid, entry, false, none⟩] })
    else match s.freeSlots l with
      | [] => (.error 0x12, s)
      | n :: _ =>
        let s := s.reserveSlot l n s.me.uid s.me.rid s.myHolder none
        (.ok (id, some n), { s with sendq := s.sendq ++ [⟨l, vn, id, s.me.uid, entry, false, some n⟩] })

/-- The reservation that a dispatch-queue entry of an agent holds. -/
def State.reserved (s : State) (l : Loc) (uid entry : Nat) : Option SendEntry :=
  s.sendq.find? fun q => q.loc == l && q.uid == uid && q.entry == entry && !q.sent

/-- The reply key that the key unit derives from doubleword 0 of `k(B+1)` for a reply slot (R320). -/
def State.replyKey (s : State) (l : Loc) (k0 slot : Nat) : Key :=
  s.signed (keyOf k0 (slot + (s.rslot l slot).seq * 2 ^ 16) (256 + 0x08 * 2 ^ 40 + 0xFFFF * 2 ^ 48) 0)

/-- The null key. -/
def nullKey : Key := 0

/-- A message of the agent whose turn it is leaves through a reservation: OP 4 on VN0, 5 on VN1. -/
def State.launchMessage (s : State) (q : SendEntry) (key : Key) (hid k0 : Nat) (data : List Byte) : State :=
  let reply := match q.slot with
    | some n => s.replyKey q.loc k0 n
    | none => nullKey
  let m : Msg := ⟨hid, s.myHolder, s.me.rid, s.me.uid, s.me.loc, data, q.vn, key, reply⟩
  let pkt := { Packet.request s.me.loc key 0 (4 + q.vn) hid s.myHolder data [] with msg := some m }
  let same (a : SendEntry) : Bool := a.loc == q.loc && a.vn == q.vn && a.id == q.id
  { s with sendq := mapIf same (fun a => { a with sent := true }) s.sendq }.request s.me.loc s.me.rid pkt (.message m q.id)

/-! ### `send`, `send.r`, `sendr` at issue (R317, R318) -/

/-- The checks of the key that a message goes through, in order (R317 step 3, R318). -/
def sendKeyCause (k : Key) (mod vn : Nat) : Option Nat :=
  if !kRouted k mod || decide (kKind k < 2) || !kHas k 3 || (kKind k == 4 && !kHas k 7) then some 0x09
  else if vn = 1 then (if kKind k = 2 && kHolder k == 0xFFFF then none else some 0x09)
  else if kHolder k = 0xFFFF then some 0x0A
  else none

/-- The checks of the key that a `send.r` attaches (R318). -/
def State.attachCause (s : State) (k : Key) : Option Nat :=
  if !s.tagOk k then some 0x07
  else if kHolder k != s.myHolder then some 0x0A
  else if kKind k != 2 || kVout k != s.me.loc.mod || kDie k != s.me.loc.die || kUnit k != s.me.loc.core then some 0x09
  else none

/-- A send at issue: on network `vn`, and with `reply` as `send.r`. A class-0 thread's message, with its empty payload, leaves at once (R319). -/
def sendIssue (i : Instr) (vn : Nat) (reply : Bool) (h : Hdr) (o : MSG) (s : State) : Host.Outcome State Fault Refusal :=
  s.issue h { xr := [o.ext.c], kr := o.k :: (if reply then [o.k + 1] else []) } fun s =>
    let hid := (s.x o.ext.c).toNat
    let k := s.k o.k
    let att := s.k (o.k + 1)
    if 256 ≤ hid then s.fail 0x01
    else if vn = 0 && s.me.isHandler then s.fail 0x1E
    else match sendKeyCause k s.me.loc.mod vn with
      | some c => s.fail c
      | none =>
        match (if reply then s.attachCause att else none) with
        | some c => s.fail c
        | none =>
          if s.me.cls != 0 && s.me.queueFull then .hold s
          else match s.reserveSend vn s.me.nextSeq reply with
            | (.error c, _) => s.fail c
            | (.ok _, t) =>
              if s.me.cls = 0 then
                match t.reserved t.me.loc t.me.uid t.me.nextSeq with
                | some q => .ok (t.launchMessage q k hid (getField att 0 64) [])
                | none => .ok t
              else .ok (t.upd fun a => a.enqueued { t.newEntry i [t.x o.ext.c] k with tok := BitVec.ofNat 64 (getField att 0 64) })

def execSend (h : Hdr) (o : MSG) (s : State) := sendIssue (.send h o) 0 false h o s
def execSendR (h : Hdr) (o : MSG) (s : State) := sendIssue (.sendR h o) 0 true h o s
def execSendr (h : Hdr) (o : MSG) (s : State) := sendIssue (.sendr h o) 1 false h o s

/-! ### Sends in the vector stream (R319) -/

/-- The payload register, the network and whether a reply slot is needed, of a send entry. -/
def Instr.sendForm : Instr → Option (Reg × Nat × Bool)
  | .send _ o => some (o.a, 0, false)
  | .sendR _ o => some (o.a, 0, true)
  | .sendr _ o => some (o.a, 1, false)
  | _ => none

/-- The address stage of a send of the agent whose turn it is: the payload's checks, then what a stop released is reserved anew. -/
def State.stageSend (s : State) (e : Entry) (vn : Nat) (reply : Bool) : State :=
  if 64 < e.vl || s.me.mvl 32 < e.vl then s.upd fun a => a.stopAt 0 (e.elemTrap 0x01 0 0)
  else if kLen e.key < 4 * e.vl then s.upd fun a => a.stopAt 0 (e.elemTrap 0x08 0 0)
  else if (s.reserved s.me.loc s.me.uid e.seq).isSome then s.passEntry e
  else match s.reserveSend vn e.seq reply with
    | (.error c, _) => s.upd fun a => a.stopAt 0 (e.elemTrap c 0 0)
    | (.ok _, s) => s.passEntry e

/-- The message of a send entry leaves with elements 0 to `vl` − 1 of its register, read at e32. -/
def State.runSend (s : State) (e : Entry) (r : Reg) : State :=
  match s.reserved s.me.loc s.me.uid e.seq with
  | none => s
  | some q =>
    let data := natBytes (4 * e.vl) (s.me.v[r.toNat]'(r.isLt)).toNat
    s.launchMessage q e.key (e.xs.getD 0 0).toNat e.tok.toNat data

/-- `sqfree` (R325). -/
def execSqfree (h : Hdr) (o : LI) (s : State) : Host.Outcome State Fault Refusal :=
  s.issue h { xw := [o.a] } fun s =>
    let l := s.me.loc
    if o.i.int = 0 then
      .ok (s.setX o.a (BitVec.ofNat 64 ((s.freeSlots l).length * 2 ^ 8 + (16 - (s.sendUsed l 0).length))))
    else if o.i.int = 1 then .ok (s.setX o.a (BitVec.ofNat 64 (16 - (s.sendUsed l 1).length)))
    else s.fail 0x01

/-! ### The handler table (R326, R327) -/

/-- The entry of a handler id on a core, none where it is EMPTY. -/
def State.hentry (s : State) (l : Loc) (id : Nat) : Option HandlerEntry := s.htab.find? fun e => e.loc == l && e.id == id

/-- Replace an entry. -/
def State.setHentry (s : State) (e : HandlerEntry) : State :=
  { s with htab := upsert (fun a => a.loc == e.loc && a.id == e.id) e s.htab }

/-- An entry becomes EMPTY. -/
def State.dropHentry (s : State) (l : Loc) (id : Nat) : State :=
  { s with htab := s.htab.filter fun e => !(e.loc == l && e.id == id) }

/-- Messages that wait for an id begin to find their entry locked, or no longer do. -/
def State.relock (s : State) (l : Loc) (id : Nat) (at_ : Option Nat) : State :=
  let f (w : Waiting) : Waiting := { w with lockedAt := if at_.isNone then none else w.lockedAt.or at_ }
  { s with waiting := mapIf (fun w => w.loc == l && w.hid == id) f s.waiting }

/-- The entry id of class HID: a register, or an immediate read unsigned. -/
def State.hid (s : State) (t : RegImm) : Nat :=
  match t with
  | .reg r => (s.x r).toNat
  | .imm i => i.nat

/-- The common part of `hclr`, `hset` and `hmask`: 0x01 for an id above 255, 0x06 for another region's entry. -/
def withHid (c : List Reg) (h : Hdr) (o : HID) (f : State → Nat → Res) (s : State) : Host.Outcome State Fault Refusal :=
  s.issue h { xr := RegImm.regs o.t ++ c } fun s =>
    let id := s.hid o.t
    if 256 ≤ id then s.fail 0x01
    else if ((s.hentry s.me.loc id).map HandlerEntry.rid).getD s.me.rid != s.me.rid then s.fail 0x06
    else f s id

/-- Field C of class HID. -/
def HID.c (o : HID) : Reg := (o.ext.map Ext.c).getD 0

/-- `hclr`. -/
def execHclr (h : Hdr) (o : HID) (s : State) : Host.Outcome State Fault Refusal :=
  withHid [] h o (fun s id =>
    .ok ((s.setHentry ⟨s.me.loc, id, s.me.rid, false, 0⟩).relock s.me.loc id (some (s.cycle s.me.loc)))) s

/-- `hset`. -/
def execHset (h : Hdr) (o : HID) (s : State) : Host.Outcome State Fault Refusal :=
  withHid [HID.c o] h o (fun s id =>
    let v := s.x (HID.c o)
    if v = 0 then .ok ((s.dropHentry s.me.loc id).relock s.me.loc id none)
    else if v.getLsbD 0 then s.fail 0x04
    else .ok ((s.setHentry ⟨s.me.loc, id, s.me.rid, true, v⟩).relock s.me.loc id none)) s

/-- `hmask`. -/
def execHmask (h : Hdr) (o : HID) (s : State) : Host.Outcome State Fault Refusal :=
  withHid [HID.c o] h o (fun s id =>
    let v := s.x (HID.c o)
    if 1 < v.toNat then s.fail 0x01
    else .ok (s.updCore s.me.loc fun c => { c with hmask := setField c.hmask id 1 v.toNat })) s

/-! ### Messages that wait (R48, R52, R322 to R324, R471) -/

/-- A message joins the start order of its handler id; it finds its entry locked from now on where it is. -/
def State.wait (s : State) (l : Loc) (hid : Nat) (m : Msg) (w : Wait) : State :=
  let locked := match s.hentry l hid with
    | some e => !e.set
    | none => false
  { s with waiting := s.waiting ++ [⟨l, hid, m, w, if locked then some (s.cycle l) else none⟩] }

/-- The messages in a core's inbox, of 64 slots. -/
def State.inboxUsed (s : State) (l : Loc) : Nat := countIf (fun w : Waiting => w.loc == l && w.wait == .inbox) s.waiting

/-- A message reaches a core's inbox: refused with 0x80 where its entry is EMPTY, with 0x82 where the inbox is full (R48, R52). Where both
hold, the spec does not say which reason the refusal bears: the model answers 0x80 (DESIGN CHOICE, log entry 55). -/
def State.acceptInbox (s : State) (l : Loc) (m : Msg) : Except Nat Unit × State :=
  if (s.hentry l m.hid).isNone then (.error 0x80, s)
  else if 64 ≤ s.inboxUsed l then (.error 0x82, s)
  else (.ok (), s.wait l m.hid m .inbox)

/-- The record of a dropped message (R324), with its sender in `THREAD` (spec/15 R378). -/
def dropRecord (s : State) (m : Msg) (reason : Nat) : Record :=
  ⟨0x26, false, false, false, false, s.confidential m.src.mod m.rid, ((s.agent? m.uid).map fun a => a.tidWord.toNat).getD 0, 0, 0, BitVec.ofNat 64 (m.hid * 256 + reason),
    s.meridian m.src.mod, 0, 0, m.rid, m.src⟩

/-- The park of a thread ends as a message of it is dropped (R324): at `swait` or `sleepu`, and at a wait marker where it can take the trap. -/
def Agent.wokenByDrop (a : Agent) : Bool :=
  match a.life with
  | .parked (.swait _) => true
  | .parked (.sleepu _) => true
  | .parked .marker => !a.uta
  | _ => false

/-- A message that nobody takes is dropped: its sender, if it is a live thread, takes 0x26 at a boundary, and is woken for it, as a STATE record shows
(spec/19 R454); otherwise a record is written (R324). -/
def State.dropMessage (s : State) (m : Msg) (reason : Nat) : State :=
  let thread : Bool := match s.agent? m.uid with
    | some a => a.life != Life.exited && !a.isHandler
    | none => false
  if thread then
    let s := match s.agent? m.uid with
      | some a => if a.wokenByDrop then s.traceState a 2 0 else s
      | none => s
    s.updAgent m.uid fun a =>
      { a with late := a.late ++ [(⟨0x26, 0, 0, BitVec.ofNat 64 (m.hid * 256 + reason), false, 0⟩ : Trap)],
               life := if a.wokenByDrop then .ready else a.life }
  else s.record m.src m.rid (dropRecord s m reason)

/-- What a waiting message holds is free again: its sender's queue entry and reply slot, or its own reply slot. A return from reply slot k (R471) is
kept as entry 32 + k. -/
def State.freeWait (s : State) (w : Waiting) : State :=
  match w.wait with
  | .inbox => s
  | .returned entry _ _ =>
    if 32 ≤ entry then s.freeSlot w.loc (entry - 32) else
    -- a `send.r` that was refused after its acceptance names its slot in the reply key (R320)
    if entry = 16 then
      let n := kBase w.msg.reply % 32
      if w.msg.reply != nullKey && (s.rslot w.loc n).used && (s.rslot w.loc n).seq == bits (kBase w.msg.reply) 16 16 then s.freeSlot w.loc n else s
    else
    let s := match s.sendq.find? fun q => q.loc == w.loc && q.vn == w.msg.vn && q.id == entry with
      | some q => match q.slot with
        | some n => s.freeSlot w.loc n
        | none => s
      | none => s
    s.dropSend w.loc w.msg.vn entry
  | .slot n _ => s.freeSlot w.loc n

/-- A message goes back to handler 0 of its sender's core (R322, R324): dropped at once where that handler's entry is EMPTY. -/
def State.returnMessage (s : State) (m : Msg) (w : Wait) (reason : Nat) : State :=
  if (s.hentry m.src 0).isSome then s.wait m.src 0 m w
  else (s.freeWait ⟨m.src, 0, m, w, none⟩).dropMessage m reason

/-- A waiting message leaves the order of its id. -/
def State.unwait (s : State) (n : Nat) : State := { s with waiting := s.waiting.eraseIdx n }

/-- A waiting message is refused at the core where it waits, with a reason (R52, R324, R471). An inbox message goes back to its sender, whose
queue entry its acceptance has freed: it waits outside the queue (log entry 9). -/
def State.refuseWaiting (s : State) (n : Nat) (w : Waiting) (reason : Nat) : State :=
  let s := s.unwait n
  match w.wait with
  | .inbox => s.returnMessage w.msg (.returned 16 reason w.msg.vn) reason
  | .returned _ r _ => (s.freeWait w).dropMessage w.msg r
  | .slot k notice =>
    -- the sender of R324 is the agent for which the slot was reserved
    let r := s.rslot w.loc k
    let m := { w.msg with key := nullKey, uid := r.uid, rid := r.rid, src := w.loc }
    s.returnMessage m (.returned (32 + k) reason (if notice then 2 else 1)) reason

end Sys2Proof.Machine
end

