-- ==== Sys2Proof/Machine/Threads.lean ====
section
/-! DEFINITION. Sys2Proof/Machine/Threads.lean: threads from creation to exit (spec/02 R34, R60; spec/11 R328 to R332), and the ready queues that
they enter (spec/16 R407). -/

namespace Sys2Proof.Machine

/-! ### Creation (R34) -/

/-- A thread of a class as it is created, with its entry address and arguments. -/
def freshAgent (uid rid tid level cls : Nat) (l : Loc) (pc x10 x11 : Word) (named : Option Nat) (k : Vector Key 16) (acq : Nat) : Agent :=
  let a := (Agent.vacant.setX 10 x10).setX 11 x11
  { a with uid := uid, rid := rid, tid := tid, level := level, cls := cls, loc := l, pc := pc &&& ~~~1, named := named, k := k,
           acq := acq, life := .queued, slip := 8, gangto := 262144, mcfgv := 0x11 }

/-- The numbers of the live threads of a region: those that exist, and those that a `spawn` has created and not yet queued. -/
def State.liveTids (s : State) (mod rid : Nat) : List Nat :=
  (s.agents.filter fun a => a.loc.mod == mod && a.rid == rid && !a.isHandler && a.life != .exited).map Agent.tid
    ++ s.deferred.filterMap fun d => if d.loc.mod = mod ∧ d.rid = rid then d.agent.map Agent.tid else none

/-- A free number below the region's thread limit (spec/15 R379), none when the region has as many live threads (R329). The spec does not say which free
number is taken; the model takes the lowest (DESIGN CHOICE, log entry 55). -/
def State.freeTid (s : State) (r : Region) : Option Nat :=
  let live := s.liveTids r.mod r.rid
  if s.left r Region.tlimit ≤ live.length then none else (List.range (live.length + 1)).find? fun t => !live.contains t

/-- A region may use a die (R403). -/
def Region.allows (r : Region) (die : Nat) : Bool := r.dies == 0 || r.dies.testBit die

/-- The lowest die that a region may use. -/
def Region.lowDie (r : Region) : Nat := ((List.range 8).find? fun d => r.allows d).getD 0

/-- The die whose ready queue a thread created on a core enters (R407). -/
def Region.dieFor (r : Region) (die : Nat) : Nat := if r.allows die then die else r.lowDie

/-- A created thread enters a ready queue. -/
def State.enlist (s : State) (a : Agent) (die : Nat) : State :=
  ({ s with others := s.others ++ [{ a with loc := ⟨a.loc.mod, die, a.loc.core⟩ }] }).enqueue a.loc.mod die a.rid a.uid

/-- The handle of the next agent. -/
def State.takeUid (s : State) : State := { s with nextUid := s.nextUid + 1 }

/-! ### `spawn` (R329) -/

/-- The `k` registers that a spawned thread receives: those held for the region. -/
def spawnKeys (a : Agent) (holder : Nat) : Vector Key 16 := a.k.map fun k => if kHolder k = holder then k else nullKey

/-- `spawn`: the thread exists from now on, and is queued when the release on behalf of the spawning thread is complete. -/
def execSpawn (h : Hdr) (o : SPN) (s : State) : Host.Outcome State Fault Refusal :=
  s.issue h { xr := [o.b, o.ext.c], kr := (List.range 16).map (BitVec.ofNat 4) } fun s =>
    if 5 < o.cls.toNat then s.fail 0x01
    else if (s.x o.b).getLsbD 0 then s.fail 0x04
    else match s.myRegion with
      | none => s.fail 0x24
      | some r =>
        match s.freeTid r with
        | none => s.fail 0x24
        | some tid =>
          let l : Loc := ⟨s.me.loc.mod, r.dieFor s.me.loc.die, 0⟩
          let a := freshAgent s.nextUid s.me.rid tid s.me.level o.cls.toNat l (s.x o.b) (s.x o.ext.c) 0 none (spawnKeys s.me s.myHolder) 3
          let d : Deferred := ⟨s.nextUid, s.me.uid, s.me.loc, s.me.rid, s.me.nextSeq, s.nextReq, false, 0, 0, 0, some a, s.storeTag 0⟩
          .ok { s.takeUid with deferred := s.deferred ++ [d] }

/-- The vector entries that an agent issued before a position of its stream have made their accesses. -/
def State.streamPast (s : State) (uid upto : Nat) : Bool :=
  match s.agent? uid with
  | none => true
  | some a => (((a.aside.map Aside.queue).getD []) ++ a.queue).all fun e => decide (upto ≤ e.seq)

/-- A deferred step is over. -/
def State.dropDeferred (s : State) (id : Nat) : State := { s with deferred := s.deferred.filter fun d => d.id != id }

/-- SPAWN_QUEUE: the release of the deferred spawn `n` is complete, and the new thread is queued on its die. -/
def execSpawnQueue (n : Nat) (s : State) : Host.Outcome State Fault Refusal :=
  match s.deferred.find? fun d => d.id == n && !d.join with
  | some d =>
    match d.agent with
    | some a =>
      if s.streamPast d.uid d.upto then .next (((s.release d.loc 3).dropDeferred n).enlist a a.loc.die) else .next s
    | none => .next s
  | none => .next s

/-! ### Join blocks (R60, R332) -/

/-- `jdec`: the block is checked at issue, and the decrement follows the release. -/
def execJdec (h : Hdr) (o : XB) (s : State) : Host.Outcome State Fault Refusal :=
  s.issue h { xr := [o.b] } fun s =>
    let b := s.x o.b
    s.accessAt b 32 .write true true fun pa v s =>
      .ok { s.takeUid with deferred := s.deferred ++
        [⟨s.nextUid, s.me.uid, s.me.loc, s.me.rid, s.me.nextSeq, s.nextReq, true, b.toNat, pa, v.key, none, s.storeTag b⟩] }

/-- The record of a continuation that is not created. -/
def joinRecord (s : State) (d : Deferred) (cause : Nat) : Record :=
  ⟨cause, false, false, false, false, s.confidential d.loc.mod d.rid, d.tag.tid, 0, BitVec.ofNat 64 d.block, 0, s.meridian d.loc.mod, 0, 0,
    d.rid, d.loc⟩

/-- The continuation of a block whose count reached 0: `JPC`, `JARG`, `JCLASS`. Where several of the conditions under which none is created hold at once, the
spec does not say which cause the record bears: the model takes 0x01, then 0x04, then 0x24 (DESIGN CHOICE, log entry 55). -/
def State.joinContinue (s : State) (d : Deferred) (jpc jarg jclass : Nat) : State :=
  match s.region? d.loc.mod d.rid with
  | none => s
  | some r =>
    if 6 ≤ jclass then s.record d.loc d.rid (joinRecord s d 0x01)
    else if bit jpc 0 then s.record d.loc d.rid (joinRecord s d 0x04)
    else match s.freeTid r with
      | none => s.record d.loc d.rid (joinRecord s d 0x24)
      | some tid =>
        let l : Loc := ⟨d.loc.mod, r.dieFor d.loc.die, 0⟩
        let a := freshAgent s.nextUid d.rid tid r.level jclass l (BitVec.ofNat 64 jpc) (BitVec.ofNat 64 jarg) (BitVec.ofNat 64 d.block) none
          (Vector.replicate 16 0) 4
        s.takeUid.enlist a l.die

/-- The decrement at the block's home (R60): a counted line refuses it, and poisoned data is reported. -/
def State.joinStep (s : State) (d : Deferred) : State :=
  let v : Via := { s.via d.loc d.rid with key := d.key }
  let ep := d.loc.mod
  let line := d.pa / 128
  let s := s.reachHome v line
  if (s.counted? ep line).isSome then { s with reports := s.reports ++ [⟨d.tag, 0x25⟩] }
  else if s.poisoned ep line then
    let s := s.foundError d.loc (s.poisonUnit ep line) d.pa
    { s with reports := s.reports ++ [⟨d.tag, 0x22⟩] }
  else
    let bs := s.homeSeen ep d.key d.pa 32
    let n := bytesNat (bs.take 8)
    let s := s.pokeAs ep d.key d.pa (natBytes 8 ((n + 2 ^ 64 - 1) % 2 ^ 64))
    if n = 1 then
      s.joinContinue d (bytesNat ((bs.drop 8).take 8)) (bytesNat ((bs.drop 16).take 8)) (bytesNat (bs.drop 24))
    else s

/-- JOIN_DECREMENT: the release of the deferred decrement `n` is complete. -/
def execJoinDecrement (n : Nat) (s : State) : Host.Outcome State Fault Refusal :=
  match s.deferred.find? fun d => d.id == n && d.join with
  | some d =>
    if s.streamPast d.uid d.upto && s.remotesAcked d.uid && s.writesAcked d.loc.mod d.reqAt then .next (((s.release d.loc 4).dropDeferred n).joinStep d) else .next s
  | none => .next s

/-! ### `exit`, `yield`, `hret` (R328, R330, R331) -/

/-- A slot that a thread carries from another core, as a record (spec/02 R55, R56). -/
def carriedRecord (s : State) (a : Agent) (c : Carried) : Record :=
  ⟨(c.record.getD 0 0).toNat % 256, false, true, false, false, s.confidential a.loc.mod a.rid, 0, c.token, c.record.getD 1 0,
    c.record.getD 2 0, s.meridian a.loc.mod, c.record.getD 3 0, BitVec.ofNat 64 (c.promise.getD 0), a.rid, a.loc⟩

/-- The slice of an agent has no holder any more (spec/09 R238). -/
def State.dropSlice (s : State) (uid : Nat) : State :=
  { s with slices := mapIf (fun l => l.holder == some uid) (fun l => { l with holder := none }) s.slices }

/-- The thread whose turn it is ends (R330, spec/02 R56). -/
def State.exitThread (s : State) : State :=
  let a := s.me
  let s := (a.failures.filter Failure.armed).foldl (fun s f => s.record a.loc a.rid (failureRecord s a f.trap)) s
  let s := (a.carried.filter fun c => c.status == 3).foldl (fun s c => s.record a.loc a.rid (carriedRecord s a c)) s
  let s := ((s.detachAll a.uid).dropSlice a.uid).traceState a 5 0
  s.upd Agent.gone

/-- `exit`: cause 0x1E in a handler; held until the dispatch queue is empty. -/
def execExit (h : Hdr) (s : State) : Host.Outcome State Fault Refusal :=
  s.issue h {} fun s =>
    if s.me.isHandler then s.fail 0x1E
    else if !s.me.streamDone then .hold s
    else .gone s.exitThread

/-- The contexts of a core that hold an agent. -/
def State.usedContexts (s : State) (l : Loc) : List Nat :=
  (s.agents.filter fun a => a.loc == l && a.placed && a.life != .exited).map Agent.ctx

/-- The contexts of a core that are free for threads. -/
def State.freeContexts (s : State) (l : Loc) : List Nat := (List.range 7).filter fun n => !(s.usedContexts l).contains n

/-- `yield`: the thread is pre-empted, and with it its gang (spec/09 R253), when a thread of its region waits on the die and no context of its core is free; nothing in a handler. -/
def execYield (h : Hdr) (s : State) : Host.Outcome State Fault Refusal :=
  s.issue h {} fun s =>
    let a := s.me
    let waits : Bool := match s.rqueue? a.loc.mod a.loc.die a.rid with
      | some q => !(s.queueThreads q).isEmpty
      | none => false
    if !a.isHandler && waits && (s.freeContexts a.loc).isEmpty then .ok (s.preemptThread a) else .ok s

/-- `hret`: 0x01 in a thread. The pending results and the handler's entries are waited for; a failure found in the wait is taken instead (R89). -/
def execHret (h : Hdr) (s : State) : Host.Outcome State Fault Refusal :=
  s.issue h {} fun s =>
    if !s.me.isHandler then s.fail 0x01
    else if !s.me.inflight.isEmpty || !s.me.streamDone then .hold s
    else
      let s := s.deliverAll s.me.uid
      if !s.me.failures.isEmpty then .hold (s.upd Agent.clearPending)
      else .gone ((s.traceState s.me 7 0).endHandler s.me.uid)

end Sys2Proof.Machine
end

