-- ==== Sys2Proof/Machine/Handlers.lean ====
section
/-! DEFINITION. Sys2Proof/Machine/Handlers.lean: how a waiting message starts its handler, or is refused (spec/02 R48 to R52, spec/11 R322 to R324,
R471). -/

namespace Sys2Proof.Machine

/-! ### Contexts and handler shares (R32, R48) -/

/-- The contexts of a core that are free for a handler: context 7 first. -/
def State.handlerContexts (s : State) (l : Loc) : List Nat := [7, 0, 1, 2, 3, 4, 5, 6].filter fun n => !(s.usedContexts l).contains n

/-- The handlers that run on a core. -/
def State.handlersOn (s : State) (l : Loc) : List Agent :=
  s.agents.filter fun a => a.loc == l && a.isHandler && a.placed && a.life != .exited

/-- The clusters of a core whose handler share is free. -/
def State.handlerShares (s : State) (l : Loc) : List Nat :=
  (List.range 4).filter fun g => (s.handlersOn l).all fun a => !a.cmask.getLsbD g

/-- A handler of an id runs on a core. -/
def State.running (s : State) (l : Loc) (hid : Nat) : Bool := (s.handlersOn l).any fun a => a.kind == .handler hid

/-- The waiting message `n` is the first of its id on its core. -/
def State.firstWaiting (s : State) (n : Nat) (w : Waiting) : Bool :=
  (s.waiting.take n).all fun v => !(v.loc == w.loc && v.hid == w.hid)

/-! ### Starting a handler (R49, R322, R471) -/

/-- The entry values of `x10`, `x11`, `x13`, `x14` and `k15`, with the scope of the acquire that the handler begins with. -/
def Waiting.entryState (w : Waiting) : Nat × Nat × Nat × Nat × Key × Nat :=
  match w.wait with
  | .returned entry reason x14 => (0x100, reason, w.msg.hid, x14, if 32 ≤ entry then nullKey else w.msg.key, 0)
  | .slot _ notice => (w.hid, w.msg.holder, 0, 0, nullKey, if notice then 4 else 0)
  | .inbox => (w.hid, w.msg.holder, 0, 0, w.msg.reply, 0)

/-- A handler as it starts. -/
def handlerAgent (uid : Nat) (w : Waiting) (e : HandlerEntry) (level c g now time : Nat) : Agent :=
  let q := w.entryState
  let n := w.msg.data.length
  let a := freshAgent uid e.rid (0x80000000 + w.hid) level 3 w.loc e.addr (BitVec.ofNat 64 q.1) (BitVec.ofNat 64 q.2.1) none
    (Vector.replicate 16 0) q.2.2.2.2.2
  let a := ((a.setX 12 (BitVec.ofNat 64 n)).setX 13 (BitVec.ofNat 64 q.2.2.1)).setX 14 (BitVec.ofNat 64 q.2.2.2.1)
  { a.setK 15 q.2.2.2.2.1 with
    kind := .handler w.hid, ctx := c, cmask := BitVec.ofNat 4 (2 ^ g), life := .ready, placed := true, started := now, saveTime := time,
    mgang := BitVec.ofNat 16 (2 ^ (w.loc.core % 16)), vl := ceilDiv n 4, v := a.v.set 0 (BitVec.ofNat 8192 (bytesNat w.msg.data)), done := [0] }

/-- The waiting message `n` starts its handler in context `c` and the handler share of cluster `g`. -/
def State.startHandler (s : State) (n : Nat) (w : Waiting) (e : HandlerEntry) (c g : Nat) : State :=
  let level := ((s.region? w.loc.mod e.rid).map Region.level).getD 0
  let a := handlerAgent s.nextUid w e level c g (s.cycle w.loc) (s.meridian w.loc.mod)
  let s := ((s.unwait n).freeWait w).takeUid
  let s := s.acquire w.loc a.acq
  let a := { a with acq := 0 }
  ({ s with others := s.others ++ [a] }).traceState a 6 0

/-- HANDLER_START: the waiting message `n` starts its handler in context `c` and cluster `g`, if its entry is set and unmasked, no handler of its
id runs, its turn has come and context and share are free. Where its entry is EMPTY it is refused with reason 0x80. -/
def execHandlerStart (n c g : Nat) (s : State) : Host.Outcome State Fault Refusal :=
  match s.waiting[n]? with
  | none => .next s
  | some w =>
    match s.hentry w.loc w.hid with
    | none => .next (s.refuseWaiting n w 0x80)
    | some e =>
      if e.set && !(s.core w.loc).hmask.getLsbD w.hid && !s.running w.loc w.hid && s.firstWaiting n w
          && (s.handlerContexts w.loc).contains c && (s.handlerShares w.loc).contains g then
        .next (s.startHandler n w e c g)
      else .next s

/-- HANDLER_BUSY_TIMEOUT (R52): the waiting message `n` has found its entry locked for 4,096 cycles, and is refused with reason 0x81. -/
def execHandlerBusyTimeout (n : Nat) (s : State) : Host.Outcome State Fault Refusal :=
  match s.waiting[n]? with
  | none => .next s
  | some w =>
    match w.lockedAt with
    | some t =>
      if ((s.hentry w.loc w.hid).any fun e => !e.set) && decide (t + 4096 ≤ s.cycle w.loc) then .next (s.refuseWaiting n w 0x81) else .next s
    | none => .next s

/-- The handler cycle limit of a region (R50, spec/16 R403). -/
def Region.cycleLimit (r : Region) : Nat := if r.hcycles = 0 then 65536 else r.hcycles

/-- HANDLER_CYCLE_LIMIT (R50): the handler `n` has run longer than its region allows; it takes cause 0x24 at its next boundary (spec/15 R377). -/
def execHandlerCycleLimit (n : Nat) (s : State) : Host.Outcome State Fault Refusal :=
  match s.agent? n with
  | none => .next s
  | some a =>
    let limit := ((s.region? a.loc.mod a.rid).map Region.cycleLimit).getD 65536
    if a.isHandler && a.placed && a.life != .exited && decide (a.started + limit < s.cycle a.loc) then
      .next (s.updAgent n fun a => { a with cycleLimit := true })
    else .next s

end Sys2Proof.Machine
end

