-- ==== Sys2Proof/Machine/Links.lean ====
section
/-! DEFINITION. Sys2Proof/Machine/Links.lean: flits, replay and training of the links between modules and vault nodes (spec/18 R426, R428 to R431). Packets
themselves move as flights; a link keeps what it sent until it is acknowledged. -/

namespace Sys2Proof.Machine

/-- The time at an endpoint: a module's meridian time, or at a vault node the domain's, which its reference counts (R440). -/
def State.timeAt (s : State) (ep : Nat) : Nat :=
  if ep < 512 then s.meridian ep
  else match s.modules.find? fun a => a.up && a.refr with
    | some a => s.meridian a.mod
    | none => s.now

/-! ### Packets as flits (R426, R428) -/

/-- The 64 bytes of a packet's header. -/
def Packet.header (p : Packet) : List Byte :=
  natBytes 32 p.key.toNat ++ natBytes 8 p.off
    ++ natBytes 8 (p.holder % 2 ^ 16 * 2 ^ 48 + p.op % 2 ^ 8 * 2 ^ 40 + p.sub % 2 ^ 8 * 2 ^ 32 + p.body.length % 2 ^ 9)
    ++ natBytes 8 (p.srcMod % 2 ^ 9 * 2 ^ 55 + p.srcDie % 16 * 2 ^ 51 + p.bucket % 64 * 2 ^ 45 + p.seq % 2 ^ 16 * 2 ^ 29) ++ natBytes 8 (p.stamp % 2 ^ 32)

/-- Bytes cut into payloads of 240, the last one filled with zeros. -/
def payloads : Nat → List Byte → List (List Byte)
  | 0, _ => []
  | n + 1, bs => (bs.take 240 ++ List.replicate (240 - bs.length) 0) :: payloads n (bs.drop 240)

/-- How many data flits a packet fills: each packet begins a flit of its own (log entry 21). -/
def Packet.flits (p : Packet) : Nat := ceilDiv p.size 240

/-- The payloads of a packet's flits. -/
def Packet.payloads (p : Packet) : List (List Byte) := Sys2Proof.Machine.payloads p.flits (p.header ++ p.body)

/-- A port has room in its replay buffer of 384 flits for a packet (R430). -/
def Port.takes (q : Port) (p : Packet) : Bool := decide (q.replay.length + p.flits ≤ 384)

/-- Both ends of the link between module `m` and vault node `k` work, and the module's end has room for a packet. -/
def State.uplink (s : State) (m k : Nat) (p : Packet) : Bool := (s.port m k).works && (s.port (512 + k) m).works && (s.port m k).takes p

/-- The same from the vault node to the module. -/
def State.downlink (s : State) (k m : Nat) (p : Packet) : Bool := (s.port m k).works && (s.port (512 + k) m).works && (s.port (512 + k) m).takes p

/-! ### The check of a flit (R429) -/

/-- One byte into the CRC register: polynomial 0x42F0E1EBA9EA3693, most significant bit first. -/
def crc64Bits : Nat → Nat → Nat
  | 0, r => r
  | n + 1, r => crc64Bits n (if r.testBit 63 then (2 * r % 2 ^ 64) ^^^ 0x42F0E1EBA9EA3693 else 2 * r)

/-- The register after one byte. -/
def crc64Step (reg : Nat) (b : Byte) : Nat := crc64Bits 8 (reg ^^^ (b.toNat * 2 ^ 56))

/-- The `CRC` of the first 248 bytes of a flit, with the sequence of the next data flit folded in. -/
def flitCrc (seq : Nat) (bs : List Byte) : Nat :=
  ((bs.take 248).foldl crc64Step ((2 ^ 64 - 1) ^^^ seq)) ^^^ (2 ^ 64 - 1)

/-- The header doubleword of a flit. -/
def flitHead (ack : Nat) (nak : Bool) (cr0 cr1 ty first : Nat) : Nat :=
  ack % 1024 * 2 ^ 54 + bnat nak * 2 ^ 53 + cr0 % 16 * 2 ^ 44 + cr1 % 16 * 2 ^ 40 + ty % 256 * 2 ^ 32 + first % 16 * 2 ^ 28

/-- A whole flit as a number, little-endian: header, payload of 240 bytes, CRC. -/
def flitOf (seq head : Nat) (payload : List Byte) : Nat :=
  let bs := natBytes 8 head ++ payload
  bytesNat (bs ++ natBytes 8 (flitCrc seq bs))

/-- The data flits of a packet as a port sends them: numbered, with `FIRST` 0 where the packet begins, what the port expects and owes of the other
direction, and their checks. -/
def Port.form (q : Port) (p : Packet) : List (Nat × List Byte) :=
  p.payloads.mapIdx fun i b =>
    let seq := (q.sendSeq + i) % 1024
    let head := if i = 0 then flitHead q.recvSeq q.nak (min 15 q.owed0) (min 15 q.owed1) 1 0 else flitHead q.recvSeq q.nak 0 0 1 15
    (seq, natBytes 256 (flitOf seq head b))

/-- A packet leaves on a port: its data flits are numbered, the replay buffer keeps them, and each spends a credit of the packet's network (R428). -/
def State.sendOn (s : State) (ep n : Nat) (p : Packet) : State :=
  let now := s.timeAt ep
  s.updPort ep n fun q =>
    { q with replay := q.replay ++ q.form p, sendSeq := (q.sendSeq + p.flits) % 1024, acked := if q.replay.isEmpty then now else q.acked,
             owed0 := q.owed0 - 15, owed1 := q.owed1 - 15,
             credit0 := q.credit0 - (if p.vn = 0 then p.flits else 0), credit1 := q.credit1 - (if p.vn = 1 then p.flits else 0) }

/-- The other end of the link of port `n` of an endpoint. -/
def farEnd (ep n : Nat) : Nat × Nat := if ep < 512 then (512 + n, ep) else (n, ep - 512)

/-- The idle flit that the other end of a port sends when it has received everything that the port sent: it returns the credits that it owes. -/
def State.ackFlit (s : State) (ep n : Nat) : Nat :=
  let q := s.port ep n
  let far := s.port (farEnd ep n).1 (farEnd ep n).2
  flitOf q.recvSeq (flitHead q.sendSeq false (min 15 far.owed0) (min 15 far.owed1) 0 15) (List.replicate 240 0)

/-! ### Receiving (R429, R430) -/

/-- A port begins to train: it is down meanwhile, and keeps its replay buffer and both sequences. -/
def Port.retrain (q : Port) : Port := { q with training := true, resends := 0 }

/-- `ACKSEQ` and `NAK` of a flit that passed: flits before `ACKSEQ` leave the replay buffer; a NAK has the rest sent again, and a sequence
that has been sent again 16 times without passing makes the port retrain (R430). -/
def Port.acknowledge (q : Port) (now ack : Nat) (nak : Bool) : Port :=
  let first := (q.replay.head?.map Prod.fst).getD q.sendSeq
  let n := (ack + 1024 - first) % 1024
  let q := if n ≠ 0 ∧ n ≤ q.replay.length then { q with replay := q.replay.drop n, acked := now, resends := 0 } else q
  if !nak || q.replay.isEmpty then q
  else if 16 ≤ q.resends then q.retrain
  else { q with resends := q.resends + 1 }

/-- The networks of the packets that stand one after the other in some bytes, as far as their `OP` is there (R426), and what is there of one that has
not ended; what begins with no `OP` is no packet. -/
def packetNets : Nat → List Byte → List Nat × List Byte
  | 0, _ => ([], [])
  | f + 1, bs =>
    if bs.length < 48 then ([], bs)
    else
      let op := (bs.getD 45 0).toNat
      let size := 64 + 16 * ceilDiv (bits (bytesNat ((bs.drop 40).take 8)) 0 9) 16
      let net := bnat (op == 5 || op == 6 || op == 7)
      if op = 0 then ([], [])
      else if bs.length < size then ([net], bs)
      else
        let r := packetNets f (bs.drop size)
        (net :: r.1, r.2)

/-- A data flit received: a credit of its network is to be returned, which is that of the packet that it continues or, if it continues none, of the one that
begins at unit `first`; until that packet's `OP` has come, the flit is due. -/
def Port.credited (q : Port) (first : Nat) (bs : List Byte) : Port :=
  let payload := (bs.drop 8).take 240
  let starts := if first = 15 then [] else payload.drop (16 * first)
  let whole := packetNets 16 (if q.part.isEmpty then starts else q.part ++ payload)
  let rest := if q.part.isEmpty || !whole.2.isEmpty then whole.2 else (packetNets 16 starts).2
  match whole.1 with
  | [] => { q with part := rest, dues := if rest.isEmpty then 0 else q.dues + 1 }
  | net :: _ =>
    { q with part := rest, dues := 0, owed0 := q.owed0 + (if net = 0 then q.dues + 1 else 0), owed1 := q.owed1 + (if net = 1 then q.dues + 1 else 0) }

/-- A flit at a port that works: checked with the sequence that the port expects; a failure, and a reserved `TYPE`, is discarded and answered with NAK. -/
def Port.receive (q : Port) (now f : Nat) : Port :=
  let bs := natBytes 256 f
  let h := bytesNat (bs.take 8)
  let ty := bits h 32 8
  if bytesNat (bs.drop 248) ≠ flitCrc q.recvSeq bs ∨ 3 ≤ ty then { q with nak := true }
  else
    let q := if ty = 1 then q.credited (bits h 28 4) bs else q
    let q := { q with nak := false, credit0 := q.credit0 + bits h 44 4, credit1 := q.credit1 + bits h 40 4,
                      recvSeq := if ty = 1 then (q.recvSeq + 1) % 1024 else q.recvSeq }
    q.acknowledge now (bits h 54 10) (bit h 53)

/-- An idle flit that carries credits takes them from what its sender owes; a data flit did so when it was formed. -/
def Port.returned (q : Port) (f : Nat) : Port :=
  if bits f 32 8 = 0 then { q with owed0 := q.owed0 - bits f 44 4, owed1 := q.owed1 - bits f 40 4 } else q

/-- FLIT_RECEIVE: the flit `f` arrives at port `n` of endpoint `ep`. -/
def execFlitReceive (ep n f : Nat) (s : State) : Host.Outcome State Fault Refusal :=
  if (s.port ep n).works then
    .next (((s.updPort ep n fun q => q.receive (s.timeAt ep) f).updPort (farEnd ep n).1 (farEnd ep n).2 fun q => q.returned f).pump)
  else .next s

/-- ACK_TIMEOUT: no `ACKSEQ` has advanced for 4 µs while flits of the port are outstanding. -/
def execAckTimeout (ep n : Nat) (s : State) : Host.Outcome State Fault Refusal :=
  let q := s.port ep n
  if q.works && !q.replay.isEmpty && decide (q.acked + 4000 ≤ s.timeAt ep) then .next (s.updPort ep n Port.retrain) else .next s

/-! ### Training (R431) -/

/-- The outcome of a training: the lanes that passed, as bits [1:0]. The third failure within 1 s leaves the port down for good. -/
def Port.trained (q : Port) (now lanes : Nat) : Port :=
  if lanes % 4 ≠ 0 then { q with lanes := lanes % 4, up := true, training := false, acked := now }
  else
    let fails := now :: q.fails.filter fun t => decide (now < t + 1000000000)
    let dead := decide (3 ≤ fails.length)
    { q with lanes := 0, up := false, training := !dead, dead := dead, fails := fails }

/-- LINK_RETRAIN: a training of port `n` of endpoint `ep` ends with the lanes `lanes`. -/
def execLinkRetrain (ep n lanes : Nat) (s : State) : Host.Outcome State Fault Refusal :=
  let q := s.port ep n
  if q.training && !q.dead then .next (s.updPort ep n fun q => q.trained (s.timeAt ep) lanes).pump else .next s

/-- PORT_RESET: the platform resets a port that three failed trainings left down; it trains again. -/
def execPortReset (ep n : Nat) (s : State) : Host.Outcome State Fault Refusal :=
  if (s.port ep n).dead then .next (s.updPort ep n fun q => { q with dead := false, fails := [], training := true }) else .next s

end Sys2Proof.Machine
end

