-- ==== Sys2Proof/Machine/Fabric.lean ====
section
/-! DEFINITION. Sys2Proof/Machine/Fabric.lean: packets after they leave their source: the checking points (spec/11 R302), vault nodes (spec/18 R432),
the ingress with its bucket order (R435), and answers at the source (R434, spec/11 R303, R315, R321, R322). -/

namespace Sys2Proof.Machine

/-! ### Packets under way -/

/-- A packet sent at `now` as an answer to `p`: OP 6 with data, or OP 7 with a reason (R426). -/
def Packet.answer (p : Packet) (now : Nat) (ans : Except Nat (List Byte)) : Packet :=
  let p := { p with key := keyOf (p.srcMod * 2 ^ 24) 0 0 0, off := 0, stamp := now % 2 ^ 32, aux := [], msg := none }
  match ans with
  | .ok bs => { p with op := 6, sub := 0, data := bs }
  | .error c => { p with op := 7, sub := c, data := [] }

/-- What an answer says. -/
def Packet.says (p : Packet) : Except Nat (List Byte) := if p.op = 6 then .ok p.data else .error p.sub

/-- A packet is 200,000 ns or more behind the time of a point (R427). -/
def State.stale (s : State) (ep : Nat) (p : Packet) : Bool :=
  let d := (s.timeAt ep + 2 ^ 32 - p.stamp) % 2 ^ 32
  decide (200000 ≤ d) && decide (d < 2 ^ 31)

/-- A flight goes. -/
def State.dropFlight (s : State) (n : Nat) : State := { s with flights := s.flights.eraseIdx n }

/-- A flight moves on, behind those that came to its new place before it. -/
def State.moveFlight (s : State) (n : Nat) (f : Flight) : State := { s with flights := s.flights.eraseIdx n ++ [f] }

/-- A request of the same stream and bucket that was sent earlier still waits at its egress for its number: packets are numbered in the order of their
sending. -/
def State.behind (s : State) (n : Nat) (p : Packet) : Bool :=
  !p.given && (s.flights.take n).any fun g => g.place == .egress && !g.pkt.given && g.pkt.srcMod == p.srcMod && g.pkt.srcDie == p.srcDie
    && g.pkt.target == p.target && g.pkt.bucket == p.bucket && g.pkt.req != p.req && s.reqs.any fun q => q.req == g.pkt.req && !q.pkt.given

/-- An earlier packet of the same network stands before this one in the buffer of a vault node for the same port: each port has a buffer for VN0 and one for
VN1, and neither network waits for the other (R432). -/
def State.buffered (s : State) (n k : Nat) (p : Packet) : Bool :=
  let out (q : Packet) : Nat := if q.isAnswer then q.srcMod else q.target
  (s.flights.take n).any fun g => g.place == .vault k && g.pkt.vn == p.vn && out g.pkt == out p

/-- The port by which a packet that waits at its egress leaves: its own, or, while that is down, one of the path set that is up (R431, R433). -/
def State.wayOut (s : State) (f : Flight) : Nat :=
  if f.port = 255 || (s.port f.pkt.srcMod f.port).works then f.port
  else
    let resent := ((s.reqs.find? fun q => q.req == f.pkt.req).map Request.resent).getD 0
    (s.choosePort f.pkt.srcMod f.pkt.key f.pkt.line resent).getD f.port

/-- An answer at the egress of the module that gives it: it leaves by the port by which its request came, once that works and has room (R430, R431). -/
def State.answerOut (s : State) (n : Nat) (f : Flight) : State :=
  let p := f.pkt
  if s.stale p.target p then s.dropFlight n
  else if s.uplink p.target f.port p then (s.moveFlight n { f with place := .vault f.port }).sendOn p.target f.port p
  else s

/-- EGRESS_CHECK (R302): the packet of flight `n` at its egress port; an answer of a module leaves by R432. A request is checked: stale, its tag, its holder, then out with its number, which a packet refused here
does not use up (R435; log entry 8). While every port of its path set is down it stays. -/
def execEgressCheck (n : Nat) (s : State) : Host.Outcome State Fault Refusal :=
  match s.flights[n]? with
  | none => .next s
  | some f =>
    let p := f.pkt
    let refuse (c : Nat) : State := s.moveFlight n ⟨p.answer (s.timeAt p.srcMod) (.error c), .back, f.port⟩
    if f.place != .egress then .next s
    else if p.isAnswer then .next (s.answerOut n f)
    else if s.stale p.srcMod p then .next (s.dropFlight n)
    else if !s.tagOk p.key then .next (refuse 0x07)
    else if !(p.op == 5 && kHolder p.key == 0xFFFF) && kHolder p.key != p.holder then .next (refuse 0x0A)
    else
      let port := s.wayOut f
      if s.behind n p || (port != 255 && !s.uplink p.srcMod port p) then .next s
      else match s.numbered p with
        | none => .next (s.dropFlight n)
        | some (p, t) =>
          if port = 255 then .next (t.moveFlight n ⟨p, .ingress p.target, 255⟩)
          else .next ((t.moveFlight n ⟨p, .vault port, port⟩).sendOn p.srcMod port p)

/-- A vault node is in a key's path set (R302, R304). -/
def inPathSet (k : Key) (v : Nat) : Bool := (List.range (kPaths k)).any fun j => kPort k j == v

/-- VAULT_FORWARD (R432): the packet of flight `n` in its vault node is checked for age (R427); an answer goes back on the port of its source module; a
request is checked for tag and path set, and goes on to `VOUT`. -/
def execVaultForward (n : Nat) (s : State) : Host.Outcome State Fault Refusal :=
  match s.flights[n]? with
  | none => .next s
  | some f =>
    match f.place with
    | .vault k =>
      let p := f.pkt
      let refuse (c : Nat) : State := s.moveFlight n ⟨p.answer (s.timeAt (512 + k)) (.error c), .vault k, f.port⟩
      if s.stale (512 + k) p then .next (s.dropFlight n)
      else if s.buffered n k p then .next s
      else if p.isAnswer then
        if s.downlink k p.srcMod p then .next ((s.moveFlight n { f with place := .back }).sendOn (512 + k) p.srcMod p) else .next s
      else if !s.tagOk p.key then .next (refuse 0x07)
      else if !inPathSet p.key k then .next (refuse 0x09)
      else if 512 ≤ p.target then
        if p.target = 512 + k then .next (s.moveFlight n { f with place := .ingress p.target }) else .next (refuse 0x09)
      else if (s.module? p.target).isNone then .next (refuse 0x09)
      else if s.downlink k p.target p then .next ((s.moveFlight n { f with place := .ingress p.target }).sendOn (512 + k) p.target p)
      else .next s
    | _ => .next s

/-! ### Endpoints at the ingress (R302, R437, R470) -/

/-- A kind-0 name of a module that nobody owns is taken by a region whose address space maps a page of the granule (R470). -/
def State.claim (s : State) (k : Key) : State :=
  let e := s.keyEndpoint k
  if kKind k = 0 && decide (kVout k < 512) && decide (kDie k < 8) && e.owner.isNone then
    match s.granuleHeir (kVout k) (kDie k) (bits (kBase k) 30 27) 0x10000 with
    | some r => s.setEndpoint (e.pass (some r))
    | none => s
  else s

/-- No endpoint of a module stands there: dies 10 to 15 do not exist, and no memory and no core stands on a die from 8 on (spec/01 R14). -/
def noEndpoint (k : Key) : Bool := decide (kVout k < 512) && (decide (10 ≤ kDie k) || (decide (kKind k < 4) && decide (8 ≤ kDie k)))

/-- The generation check: 0x0B for an older or retired generation, for a kind-0 or kind-1 name of a module without an owner, and where no endpoint stands.
A vault has no regions that could own a name of it, and R154 gives accesses to a vault their meaning: a vault's kind-0 name needs no owner (log entry 5). -/
def State.genCause (s : State) (k : Key) : Option Nat :=
  let e := s.keyEndpoint k
  if e.retired || e.gen != kGen k || (decide (kKind k < 2) && decide (kVout k < 512) && e.owner.isNone) || noEndpoint k then some 0x0B else none

/-- The window of a kind-0 key lies within one granule (R437). -/
def granuleOk (k : Key) : Bool := kKind k != 0 || decide (kBase k % 2 ^ 30 + kLen k ≤ 2 ^ 30)

/-- How far into the window a packet reaches. -/
def Packet.reach (p : Packet) : Nat :=
  if p.op = 1 then
    let rec go : List Word → Nat
      | o :: n :: t => max (o.toNat + n.toNat) (go t)
      | _ => 0
    go p.aux
  else if p.op = 3 then p.off + 8
  else if p.op = 2 then p.off + p.data.length
  else p.data.length

/-- The rights and kinds of an operation at the ingress (R311, R318, spec/10 R281). -/
def Packet.rightful (p : Packet) : Bool :=
  let k := p.key
  match p.op with
  | 1 => kHas k 0 && decide (kKind k < 2)
  | 2 => kHas k 1 && decide (kKind k < 2) && (saRedop (p.aux.getD 0 0) == 0 || kHas k 2)
  | 3 => kHas k 2 && kKind k == 0
  | 4 => kHas k 3 && decide (2 ≤ kKind k) && decide (kKind k ≤ 5) && (kKind k != 4 || kHas k 7)
  | 5 => kKind k == 2
  | 8 => kHas k 3 && kKind k == 3
  | _ => true

/-- The checks of R302 at the ingress: generation, window, rights. -/
def State.ingressCause (s : State) (p : Packet) : Option Nat :=
  match s.genCause p.key with
  | some c => some c
  | none =>
    if p.op = 9 then none
    else if kLen p.key < p.reach || !granuleOk p.key then some 0x08
    else if !p.rightful then some 0x09
    else none

/-! ### Accesses at the target (R424, spec/11 R305, R313, R314, R316) -/

/-- The lines of a core's scratchpad behind a kind-1 key, 0x08 where one lies beyond the owner's allocation (R305). A key never names the issuing thread's own
lane slices (spec/05 R126), but the spec gives no cause for a key that does: the model serves such an access like any other (DESIGN CHOICE, log entry 55). -/
def State.targetLines (s : State) (k : Key) (a n : Nat) : Except Nat (Loc × Nat × List (Nat × Nat × Nat)) :=
  let l : Loc := ⟨kVout k, kDie k, kUnit k⟩
  let rid := ((s.keyEndpoint k).owner).getD 0
  let spans := windowSpans a n
  if spans.all fun q => decide (q.2.1 + q.2.2 ≤ s.laneBytes l rid) then .ok (l, rid, spans) else .error 0x08

/-- A read of some pieces (offset, bytes); none while a line of a scratchpad is PENDING. -/
def State.targetRead (s : State) (k : Key) : List Word → Option (Except Nat (List Byte)) × State
  | o :: n :: t =>
    let a := (kBase k + o.toNat) % 2 ^ 64
    let here : Option (Except Nat (List Byte)) × State :=
      if kKind k = 1 then
        match s.targetLines k a n.toNat with
        | .error c => (some (.error c), s)
        | .ok (l, rid, sp) =>
          if sp.any fun q => (s.sline l rid q.1 (q.2.1 / 128)).pending then (none, s)
          else match sp.find? fun q => (s.sline l rid q.1 (q.2.1 / 128)).bad with
            | some q => (some (.error 0x22), s.foundError l 4 (q.1 * 16384 + q.2.1))
            | none => (some (.ok (s.windowRead l rid sp)), s)
      else match s.targetSpans k .read a n.toNat with
        | (.error c, s) => (some (.error c), s)
        | (.ok l, s) =>
          match s.badSpan a l with
          | some q => (some (.error 0x22), s.foundError q.2.2.loc (s.poisonUnit q.2.2.loc.mod (q.2.1 / 128)) q.2.1)
          | none =>
            let r := s.readVias l
            (some (.ok r.1), r.2)
    match here with
    | (some (.ok bs), s) =>
      match s.targetRead k t with
      | (some (.ok cs), s) => (some (.ok (bs ++ cs)), s)
      | r => r
    | r => r
  | _ => (some (.ok []), s)

/-- The lines of a put into scratchpad are written (spec/05 R134), each FULL with its last bytes. -/
def State.fillLines (s : State) (l : Loc) (rid readers : Nat) (last : Bool) : List (Nat × Nat × Nat) → List Byte → State
  | [], _ => s
  | (sl, o, n) :: t, bs =>
    (s.fillPart l rid sl (o / 128) (o % 128) (bs.take n) (!t.isEmpty || last) readers).fillLines l rid readers last t (bs.drop n)

/-- The lines of a put into scratchpad (spec/05 R134): each is posted as its first bytes arrive. Where one of them refuses that, none is written: a unit
that is not counted holds all of its old bytes or all of its new ones (spec/10 R275). -/
def State.putLines (s : State) (l : Loc) (rid readers : Nat) (cont last : Bool) (spans : List (Nat × Nat × Nat)) (bs : List Byte) :
    Except Nat Unit × State :=
  match (spans.drop (bnat cont)).findSome? fun q => (s.sline l rid q.1 (q.2.1 / 128)).postCause with
  | some c => (.error c, s)
  | none => (.ok (), s.fillLines l rid readers last spans bs)

/-- A write at the target: of a store, or with `aux` the unit of a put. -/
def State.targetWrite (s : State) (p : Packet) : Except Nat (List Byte) × State :=
  let k := p.key
  let a := (kBase k + p.off) % 2 ^ 64
  let done (r : Except Nat Unit × State) : Except Nat (List Byte) × State :=
    match r with
    | (.error c, s) => (.error c, s)
    | (.ok (), s) => (.ok [], s)
  if kKind k = 1 then
    match s.targetLines k a p.data.length with
    | .error c => (.error c, s)
    | .ok (l, rid, sp) =>
      match p.aux with
      | sattr :: flags :: _ => done (s.putLines l rid (saReaders sattr) (flags.toNat.testBit 0) (flags.toNat.testBit 1) sp p.data)
      | _ =>
        match sp.findSome? fun q => (s.sline l rid q.1 (q.2.1 / 128)).storeCause with
        | some c => (.error c, s)
        | none => (.ok [], s.windowWrite l rid sp p.data)
  else match s.targetSpans k .write a p.data.length with
    | (.error c, s) => (.error c, s)
    | (.ok l, s) => done (s.unitSpans .none (p.aux.getD 0 0) l p.data)

/-- An atomic at the target (R314): the old value. -/
def State.targetAtomic (s : State) (p : Packet) : Except Nat (List Byte) × State :=
  match s.targetSpans p.key .write ((kBase p.key + p.off) % 2 ^ 64) 8 with
  | (.error c, s) => (.error c, s)
  | (.ok [], s) => (.error 0x04, s)
  | (.ok ((pa, _, v) :: _), s) =>
    let ep := v.loc.mod
    let s := s.reachHome v (pa / 128)
    if (s.counted? ep (pa / 128)).isSome then (.error 0x25, s)
    else if s.poisoned ep (pa / 128) then (.error 0x22, s.foundError v.loc (s.poisonUnit ep (pa / 128)) pa)
    else
      let old := bytesNat (s.homeSeen ep v.key pa 8)
      match ramoNew p.sub old (bytesNat p.data) (p.aux.getD 0 0).toNat with
      | none => (.ok (natBytes 8 old), s)
      | some new =>
        match s.unitWrite v .none pa (natBytes 8 new) with
        | (.error c, s) => (.error c, s)
        | (.ok (), s) => (.ok (natBytes 8 old), s)

/-- The bytes that a read, a write or an atomic names behind its key: offset and count. -/
def Packet.ranges (p : Packet) : List (Nat × Nat) :=
  let rec go : List Word → List (Nat × Nat)
    | o :: n :: t => (o.toNat, n.toNat) :: go t
    | _ => []
  match p.op with
  | 1 => go p.aux
  | 2 => [(p.off, p.data.length)]
  | 3 => [(p.off, 8)]
  | _ => []

/-- The physical lines at the target that a packet through a kind-0 key names, as far as they can be reached, each with the memory key of its leaf. -/
def State.packetLines (s : State) (p : Packet) : List (Nat × Nat) → List (Nat × Nat) × State
  | [] => ([], s)
  | (o, n) :: t =>
    match s.targetSpans p.key (if p.op = 1 then .read else .write) ((kBase p.key + o) % 2 ^ 64) n with
    | (.error _, s) => ([], s)
    | (.ok l, s) =>
      let r := s.packetLines p t
      (l.map (fun q => (q.1 / 128, q.2.2.key)) ++ r.1, r.2)

/-- The RDC of the die that sent a read may keep what it returns. -/
def State.keeping (s : State) (p : Packet) : Bool := p.op == 1 && s.reqs.any fun q => q.req == p.req && q.keep

/-- A packet is to be performed on a line of its target: bytes that its source die still holds dirty of the line go home before it; the line leaves that die's
RDC, under whichever address the die read it, before a change of it and before a read that the RDC does not keep; and of several reads of the line the RDC
keeps only the last, so that no later read there returns older bytes (spec/05 R147, R155, spec/17 R419). -/
def State.beforeLine (s : State) (p : Packet) (line : Nat) : State :=
  let s := if !s.keeping p || (s.rdc? p.srcMod p.srcDie p.target line).any fun r => r.dirty != 0 then s.evictRdc p.srcMod p.srcDie p.target line else s
  let earlier (q : Request) : Bool := q.loc.mod == p.srcMod && q.loc.die == p.srcDie && q.target == p.target && q.req != p.req && q.line == some line
  { s with reqs := mapIf earlier (fun q => { q with keep := false }) s.reqs }

/-- A packet is to be performed on some lines. -/
def State.beforePacket (s : State) (p : Packet) (lines : List (Nat × Nat)) : State := lines.foldl (fun s l => s.beforeLine p l.1) s

/-- A read of one line has been performed: its request learns the physical line and the memory key of its leaf (spec/17 R419); a counted line is not kept
(spec/05 R136). -/
def State.afterRead (s : State) (p : Packet) : List (Nat × Nat) → State
  | [l] =>
    let kept (q : Request) : Request := { q with line := some l.1, lkey := l.2, keep := q.keep && (s.counted? p.target l.1).isNone }
    { s with reqs := mapIf (fun q => q.req == p.req && q.loc.mod == p.srcMod && q.loc.die == p.srcDie) kept s.reqs }
  | _ => s

/-- A read, a write, an atomic or a probe performed at its target. -/
def State.atTarget (s : State) (p : Packet) : Option (Except Nat (List Byte)) × State :=
  let r := if kKind p.key = 0 then s.packetLines p p.ranges else ([], s)
  let s := r.2.beforePacket p r.1
  match p.op with
  | 1 =>
    match s.targetRead p.key p.aux with
    | (some (.ok bs), t) => (some (.ok bs), t.afterRead p r.1)
    | a => a
  | 2 => let a := s.targetWrite p; (some a.1, a.2)
  | 3 => let a := s.targetAtomic p; (some a.1, a.2)
  | _ => (some (.ok []), s)

/-! ### The ingress (R435) -/

/-- A bucket of a stream at its target. -/
def State.bucket? (s : State) (p : Packet) : Option Bucket :=
  s.buckets.find? fun b => b.mod == p.srcMod && b.die == p.srcDie && b.target == p.target && b.bucket == p.bucket

/-- Record a bucket. -/
def State.setBucket (s : State) (b : Bucket) : State :=
  { s with buckets := upsert (fun a => a.mod == b.mod && a.die == b.die && a.target == b.target && a.bucket == b.bucket) b s.buckets }

/-- What the target does with a packet: its answer, or none where it must wait. -/
abbrev Act := State → Packet → Option (Except Nat (List Byte)) × State

/-- The answer of a packet goes back the way that the packet came: from a module through its egress, from a vault node at once. -/
def answerFlight (p : Packet) (port : Nat) : Flight :=
  ⟨p, if port = 255 then .back else if 512 ≤ p.target then .vault port else .egress, port⟩

/-- An earlier packet of the stream and bucket is still unanswered at its source. -/
def State.older (s : State) (p : Packet) : Bool :=
  s.reqs.any fun q => q.loc.mod == p.srcMod && q.loc.die == p.srcDie && q.target == p.target && q.pkt.bucket == p.bucket && q.pkt.given &&
    q.pkt.seq != p.seq && decide ((p.seq + 65536 - q.pkt.seq) % 65536 < 32768)

/-- The packet of flight `n` at its ingress: taken in turn, held, answered again, or discarded. Of an unknown bucket the oldest packet that is still
unanswered is taken as number n: one that has overtaken it waits for it (R155; log entry 8). -/
def State.arrive (s : State) (n : Nat) (f : Flight) (act : Act) : State :=
  let p := f.pkt
  if s.stale p.target p then s.dropFlight n
  else if (s.bucket? p).isNone && s.older p then s
  else
    let b := (s.bucket? p).getD ⟨p.srcMod, p.srcDie, p.target, p.bucket, p.seq, [], [], s.now⟩
    let b := { b with last := s.now }
    let d := (p.seq + 65536 - b.expect) % 65536
    if d = 0 then
      let r : Option (Except Nat (List Byte)) × State := match s.ingressCause p with
        | some c => (some (.error c), s)
        | none => act s p
      match r with
      | (none, _) => s
      | (some ans, t) =>
        let a := p.answer (s.timeAt p.target) ans
        let next := (p.seq + 1) % 65536
        let more : List Flight := (b.held.filter fun q => q.seq == next).map fun q => ⟨q, .ingress p.target, f.port⟩
        let kept := b.kept ++ [a]
        let t := t.setBucket { b with expect := next, held := b.held.filter fun q => q.seq != next, kept := kept.drop (kept.length - 32) }
        { t with flights := more ++ t.flights.eraseIdx n ++ [answerFlight a f.port] }
    else if d ≤ 31 then
      let held := if b.held.any fun q => q.seq == p.seq then b.held else b.held ++ [p]
      (s.dropFlight n).setBucket { b with held := held }
    else if 65504 ≤ d then
      let again : List Flight := (b.kept.filter fun a => a.seq == p.seq).map fun a => answerFlight a f.port
      let t := (s.dropFlight n).setBucket b
      { t with flights := t.flights ++ again }
    else (s.dropFlight n).setBucket b

/-- A packet of some operations at an ingress; kind-0 names that nobody owns are taken first. -/
def State.atIngress (s : State) (n : Nat) (ops : List Nat) (act : Act) : State :=
  match s.flights[n]? with
  | none => s
  | some f =>
    if f.place == .ingress f.pkt.target && ops.contains f.pkt.op then (s.claim f.pkt.key).arrive n f act else s

/-- INGRESS_PACKET: a read, a write, an atomic or a probe of flight `n`. -/
def execIngressPacket (n : Nat) (s : State) : Host.Outcome State Fault Refusal :=
  .next (s.atIngress n [1, 2, 3, 9] State.atTarget)

/-- Threads that wait at `wfi` see an event of a queue endpoint (spec/15 R401; log entry 18). -/
def State.wakeWfi (s : State) (mod : Nat) (vif : Option Nat) : State :=
  s.mapAgents fun a =>
    let mine := match vif with
      | none => true
      | some v => ((s.region? mod a.rid).map Region.vif) == some v
    if a.loc.mod == mod && mine then { a with wfiSeen := true } else a

/-- A message at its target endpoint (R321, spec/02 R48, spec/16 R413, R414). -/
def State.acceptMessage (s : State) (p : Packet) (m : Msg) : Except Nat (List Byte) × State :=
  let k := p.key
  let mod := p.target
  match kKind k with
  | 2 =>
    match s.acceptInbox ⟨mod, kDie k, kUnit k⟩ m with
    | (.error c, s) => (.error c, s)
    | (.ok (), s) => (.ok [], s)
  | 4 =>
    if !(s.module? mod).any ModuleState.ready then (.error 0x82, s)
    else
      let q : Launch := ⟨mod, kDie k, m.src.mod, m.rid, none, dwords 8 (m.data ++ List.replicate 64 0), [], [], false⟩
      (.ok [], { s with launches := s.launches ++ [q] }.wakeWfi mod none)
  | 5 =>
    let vif := bits (kBase k) 0 6
    let q := s.hostq mod vif (kUnit k)
    if q.room then
      let msg := m.holder + m.hid * 2 ^ 16 + m.data.length * 2 ^ 32
      let e := hostEntry 1 m.rid (s.meridian mod) msg m.data
      (.ok [], (s.setHostq (q.push (s.meridian mod) e)).wakeWfi mod (some vif))
    else (.error 0x82, s)
  | _ => (.ok [], s.wakeWfi mod none)

/-- MESSAGE_ACCEPT: a VN0 message of flight `n` at its target. -/
def execMessageAccept (n : Nat) (s : State) : Host.Outcome State Fault Refusal :=
  .next (s.atIngress n [4] fun s p =>
    match p.msg with
    | none => (some (.ok []), s)
    | some m => let r := s.acceptMessage p m; (some r.1, r.2))

/-- A reply under a reply key (R320): its slot is reserved with the key's sequence and has not been filled, or 0x83. -/
def State.acceptReply (s : State) (p : Packet) (m : Msg) : Except Nat (List Byte) × State :=
  let k := p.key
  let l : Loc := ⟨p.target, kDie k, kUnit k⟩
  let n := bits (kBase k) 0 5
  let r := s.rslot l n
  if r.used && !r.full && r.addn.isNone && r.seq == bits (kBase k) 16 16 then
    (.ok [], (s.updRslot l n fun r => { r with full := true }).wait l m.hid m (.slot n false))
  else (.error 0x83, s)

/-- REPLY_ACCEPT: a VN1 reply of flight `n` at its target core. -/
def execReplyAccept (n : Nat) (s : State) : Host.Outcome State Fault Refusal :=
  .next (s.atIngress n [5] fun s p =>
    match p.msg with
    | none => (some (.ok []), s)
    | some m => let r := s.acceptReply p m; (some r.1, r.2))

/-- COLL_NOTICE_ARRIVAL (spec/10 R286): a notice of flight `n` at its core: counted in the notice table, or refused with 0x82 where it is full. -/
def execCollNoticeArrival (n : Nat) (s : State) : Host.Outcome State Fault Refusal :=
  .next (s.atIngress n [8] fun s p =>
    let r := s.takeNotice ⟨p.target, kDie p.key, kUnit p.key⟩ (p.aux.getD 0 0).toNat (p.aux.getD 1 0).toNat
    if r.1 then (some (.ok []), r.2) else (some (.error 0x82), s))

/-! ### Answers at the source (R434, spec/11 R303) -/

/-- The outstanding request that an answer belongs to (R432): of its source die and stream, with its `BUCKET` and `SEQ`. A packet that was refused at its
egress has no number yet and is known there. -/
def State.answered (s : State) (p : Packet) : Option Request :=
  s.reqs.find? fun q => q.loc.mod == p.srcMod && q.loc.die == p.srcDie && q.target == p.target && q.pkt.bucket == p.bucket && !q.queued &&
    (if p.given then q.pkt.given && q.pkt.seq == p.seq else q.req == p.req)

/-- A request is over, and held ones of its bucket may leave. -/
def State.dropRequest (s : State) (req : Nat) : State := { s with reqs := s.reqs.filter fun q => q.req != req }

/-- A result comes back for the register that waits for it: its value, or the failure of R90. -/
def State.giveResult (s : State) (uid req : Nat) (ans : Except Nat Word) : State :=
  let give (i : Inflight) : Inflight :=
    if i.req != some req then i
    else match ans with
      | .ok v => { i with val := v.setWidth 256, ready := true, req := none }
      | .error c =>
        { i with val := freeKey s.fresh, ready := true, req := none,
                 fail := some ⟨c, 0, i.pc, BitVec.ofNat 64 (bnat i.isK * 32 + i.reg), false, 0⟩ }
  { s with fresh := s.fresh + 4 }.updAgent uid fun a => { a with inflight := a.inflight.map give }

/-- One element of a remote load comes back (R316). -/
def giveLane (seq i : Nat) (ans : Except Nat (List Byte)) (e : Entry) : Entry :=
  if e.seq != seq then e
  else
    let f (l : Lane) : Lane := match ans with
      | .ok bs => { l with val := some (bytesNat bs) }
      | .error c => { l with cause := c }
    { e with lanes := mapIf (fun l => l.i == i) f e.lanes }

/-- The value of a read as its register receives it. -/
def resultWord (width : Nat) (sign : Bool) (bs : List Byte) : Word :=
  if sign then sext width (bytesNat bs) else BitVec.ofNat 64 (bytesNat bs)

/-- What an `addn`'s answer does to its reply slot (R315): a new value of 0 fills it with the notice, everything else frees it. -/
def State.addnSlot (s : State) (q : Request) (slot : Nat) (ans : Except Nat (List Byte)) : State :=
  let r := s.rslot q.loc slot
  match ans, r.addn with
  | .ok bs, some (hid, ws) =>
    if (bytesNat bs + bytesNat q.pkt.data) % 2 ^ 64 = 0 then
      let m : Msg := ⟨hid, r.holder, r.rid, r.uid, q.loc, wordsBytes ws, 1, nullKey, nullKey⟩
      (s.updRslot q.loc slot fun r => { r with full := true }).wait q.loc hid m (.slot slot true)
    else s.freeSlot q.loc slot
  | _, _ => s.freeSlot q.loc slot

/-- The answer of a request, or its end-to-end failure, completes it by its use. -/
def State.complete (s : State) (q : Request) (ans : Except Nat (List Byte)) : State :=
  let s := s.dropRequest q.req
  let s := match q.use with
    | .result uid _ width sign =>
      let s := match ans with
        | .ok bs => s.keyedKeep q (q.pkt.aux.getD 0 0).toNat bs
        | .error _ => s
      s.giveResult uid q.req (ans.map (resultWord width sign))
    | .addn uid _ slot => (s.giveResult uid q.req (ans.map (resultWord 64 false))).addnSlot q slot ans
    | .probe uid _ =>
      let w : Word := match ans with
        | .ok _ => 0xF
        | .error c => if c = 0x0B then 0xB else 0x3
      s.giveResult uid q.req (.ok w)
    | .store tag =>
      match ans with
      | .ok _ => s
      | .error c => { s with reports := s.reports ++ [(⟨tag, c⟩ : Report)] }
    | .element uid seq i tag =>
      if q.pkt.op = 2 then
        match ans with
        | .ok _ => s
        | .error c => { s with reports := s.reports ++ [(⟨tag, c⟩ : Report)] }
      else
        let inAside (b : Aside) : Aside := { b with queue := b.queue.map (giveLane seq i ans) }
        s.updAgent uid fun a => { a with queue := a.queue.map (giveLane seq i ans), aside := a.aside.map inAside }
    | .message m entry =>
      match ans with
      | .ok _ => s.dropSend m.src m.vn entry
      | .error c => s.returnMessage m (.returned entry c m.vn) c
    | .unit sid => s.answerUnit sid ans
    | .notice sid => s.answerNotice sid ans
    | .dropped => s
  s.pump

/-- A request that carries a message. -/
def Request.isMessage (q : Request) : Bool := match q.use with | .message _ _ => true | _ => false

/-- The answer of flight `n` at its source, for the requests and outcomes that `own` names; one that answers nothing, or is too old (R427), is dropped (R432). -/
def State.answerBack (s : State) (n : Nat) (own : Request → Nat → Bool) (late : Bool) : State :=
  match s.flights[n]? with
  | none => s
  | some f =>
    if f.place != .back || !f.pkt.isAnswer then s
    else if s.stale f.pkt.srcMod f.pkt then s.dropFlight n
    else match s.answered f.pkt with
      | none => if late then s.dropFlight n else s
      | some q => if own q f.pkt.op then (s.dropFlight n).complete q f.pkt.says else s

/-- REMOTE_RESPONSE: the answer of flight `n` to anything but a message reaches its source. -/
def execRemoteResponse (n : Nat) (s : State) : Host.Outcome State Fault Refusal :=
  .next (s.answerBack n (fun q _ => !q.isMessage) true)

/-- SEND_ACK (R321): the acceptance of a message reaches its sender, whose queue entry is freed. -/
def execSendAck (n : Nat) (s : State) : Host.Outcome State Fault Refusal :=
  .next (s.answerBack n (fun q op => q.isMessage && op == 6) false)

/-- MESSAGE_RETURN (R322, R324): a refused message returns to its sender. -/
def execMessageReturn (n : Nat) (s : State) : Host.Outcome State Fault Refusal :=
  .next (s.answerBack n (fun q op => q.isMessage && op == 7) false)

/-! ### Retransmission and the end-to-end limit (R434, R441) -/

/-- When a request is sent again, in ns after its first sending. -/
def resendAt (resent : Nat) : Nat := [8000, 24000, 56000].getD resent 0

/-- RETRANSMIT: the unanswered request `n` is sent again, with the same header, on the next path (R433). -/
def execRetransmit (n : Nat) (s : State) : Host.Outcome State Fault Refusal :=
  match s.reqs.find? fun q => q.req == n with
  | none => .next s
  | some q =>
    if q.queued || decide (3 ≤ q.resent) || decide (s.meridian q.loc.mod < q.first + resendAt q.resent) then .next s
    else match s.choosePort q.loc.mod q.pkt.key q.pkt.line (q.resent + 1) with
      | none => .next s
      | some port =>
        if !s.mayInject q.loc.mod port q.rid q.pkt.size then .next s
        else
          let s := s.injected q.loc.mod port q.rid q.pkt.size
          .next { s with reqs := mapIf (fun r => r.req == n) (fun r => { r with resent := r.resent + 1 }) s.reqs,
                         flights := s.flights ++ [⟨q.pkt, .egress, port⟩] }

/-- END_TO_END_FAILURE: the request `n` is unanswered 100,000 ns after its first sending, or has been held behind down ports for so long (R433), and
fails with cause 0x23. -/
def execEndToEndFailure (n : Nat) (s : State) : Host.Outcome State Fault Refusal :=
  match s.reqs.find? fun q => q.req == n with
  | none => .next s
  | some q =>
    let due := decide (q.first + 100000 ≤ s.meridian q.loc.mod)
    if due && (!q.queued || (s.choosePort q.loc.mod q.pkt.key q.pkt.line 0).isNone) then .next (s.complete q (.error 0x23)) else .next s

/-- STREAM_STATE_RELEASE (R435): the target `t` has seen no packet of the stream of (m, d) for 1 ms and forgets it. -/
def execStreamStateRelease (m d t : Nat) (s : State) : Host.Outcome State Fault Refusal :=
  let mine (b : Bucket) : Bool := b.mod == m && b.die == d && b.target == t
  if (s.buckets.filter mine).all fun b => decide (b.last + 1000000 ≤ s.now) then
    .next { s with buckets := s.buckets.filter fun b => !mine b }
  else .next s

/-- INJECTION_RELEASE (R441): the held request `n`, and any other that may, leaves as the limiter's window allows. -/
def execInjectionRelease (n : Nat) (s : State) : Host.Outcome State Fault Refusal :=
  if s.reqs.any fun q => q.req == n && q.queued then .next s.pump else .next s

end Sys2Proof.Machine
end

