-- ==== Sys2Proof/Machine/VecIssue.lean ====
section
/-! DEFINITION. Sys2Proof/Machine/VecIssue.lean: the issue of the page-3 instructions (spec/08). Each captures its scalar operands in the order
of its fields and takes a dispatch-queue entry. -/

namespace Sys2Proof.Machine

/-- The issue of an ADR form: base and index registers are captured (R208, R216). -/
def vissueAdr (i : Instr) (h : Hdr) (o : ADR) (s : State) : Host.Outcome State Fault Refusal :=
  vissue i h { xr := ADR.regs o } (fun s => (ADR.regs o).map s.x) s

/-- The issue of a VST form with a scalar third operand. -/
def vissueStride (i : Instr) (h : Hdr) (o : VST) (s : State) : Host.Outcome State Fault Refusal :=
  vissue i h { xr := [o.b, o.ext.c] } (fun s => [s.x o.b, s.x o.ext.c]) s

/-- The issue of a VIX form: the index is a vector. -/
def vissueIndex (i : Instr) (h : Hdr) (o : VST) (s : State) : Host.Outcome State Fault Refusal :=
  vissue i h { xr := [o.b] } (fun s => [s.x o.b]) s

/-- The issue of an instruction without a scalar operand. -/
def vissuePlain (i : Instr) (h : Hdr) (s : State) : Host.Outcome State Fault Refusal := vissue i h {} (fun _ => []) s

def execVld (h : Hdr) (o : ADR) (s : State) := vissueAdr (.vld h o) h o s
def execVlds (h : Hdr) (o : VST) (s : State) := vissueStride (.vlds h o) h o s
def execVldx (h : Hdr) (o : VST) (s : State) := vissueIndex (.vldx h o) h o s
def execVst (h : Hdr) (o : ADR) (s : State) := vissueAdr (.vst h o) h o s
def execVsts (h : Hdr) (o : VST) (s : State) := vissueStride (.vsts h o) h o s
def execVstx (h : Hdr) (o : VST) (s : State) := vissueIndex (.vstx h o) h o s
def execVlsp (h : Hdr) (o : ADR) (s : State) := vissueAdr (.vlsp h o) h o s
def execVlspx (h : Hdr) (o : VST) (s : State) := vissueIndex (.vlspx h o) h o s
def execVssp (h : Hdr) (o : ADR) (s : State) := vissueAdr (.vssp h o) h o s
def execVsspx (h : Hdr) (o : VST) (s : State) := vissueIndex (.vsspx h o) h o s
def execVlspc (h : Hdr) (o : ADR) (s : State) := vissueAdr (.vlspc h o) h o s
def execVldc (h : Hdr) (o : ADR) (s : State) := vissueAdr (.vldc h o) h o s
def execVstc (h : Hdr) (o : VST) (s : State) := vissueStride (.vstc h o) h o s
def execVperm (h : Hdr) (o : VRR) (s : State) := vissuePlain (.vperm h o) h s
/-- `vslide` captures its offset register (R222). -/
def execVslide (h : Hdr) (o : VXS) (s : State) :=
  vissue (.vslide h o) h { xr := RegImm.regs o.t } (fun s => (RegImm.regs o.t).map s.x) s
def execVredsum (h : Hdr) (o : VU) (s : State) := vissuePlain (.vredsum h o) h s
def execVredmax (h : Hdr) (o : VU) (s : State) := vissuePlain (.vredmax h o) h s
def execVredmin (h : Hdr) (o : VU) (s : State) := vissuePlain (.vredmin h o) h s
def execVfredsum (h : Hdr) (o : VU) (s : State) := vissuePlain (.vfredsum h o) h s
def execVscan (h : Hdr) (o : VU) (s : State) := vissuePlain (.vscan h o) h s
def execVcompress (h : Hdr) (o : VU) (s : State) := vissuePlain (.vcompress h o) h s
/-- `vappend` captures the descriptor's address (R227). -/
def execVappend (h : Hdr) (o : VU) (s : State) := vissue (.vappend h o) h { xr := [o.b] } (fun s => [s.x o.b]) s
def execVcvt (h : Hdr) (o : CVT) (s : State) := vissuePlain (.vcvt h o) h s
def execVcvtef (h : Hdr) (o : CVT) (s : State) := vissuePlain (.vcvtef h o) h s
def execPlog (h : Hdr) (o : PLG) (s : State) := vissuePlain (.plog h o) h s
def execPcnt (h : Hdr) (o : PCT) (s : State) := vissuePlain (.pcnt h o) h s
def execPfirst (h : Hdr) (o : PCT) (s : State) := vissuePlain (.pfirst h o) h s

/-- The vector length that `setvl` grants for a request (R234). -/
def Agent.grantVl (a : Agent) (o : SVL) (v : Word) : Nat := min v.toNat (a.mvl (widthBits (extSel o.ext)))

/-- `setvl` (R234): xA at once, and `vl` by an entry that takes effect at the address stage. -/
def execSetvl (h : Hdr) (o : SVL) (s : State) : Host.Outcome State Fault Refusal :=
  if s.me.cls = 0 then .next (s.takeTrap (issueTrap 0x01 s.me.pc 0 0))
  else s.issue h { xr := RegImm.regs o.t, xw := [o.a] } fun s =>
    let v := BitVec.ofNat 64 (s.me.grantVl o (s.val o.t))
    s.dispatch (s.newEntry (.setvl h o) ((RegImm.regs o.t).map s.x) 0) fun s => s.setX o.a v

/-- `vmvx` (R235): its element comes at its position in the stream, as a long-latency result. -/
def execVmvx (h : Hdr) (o : VXS) (s : State) : Host.Outcome State Fault Refusal :=
  if s.me.cls = 0 then .next (s.takeTrap (issueTrap 0x01 s.me.pc 0 0))
  else s.issue h { xr := RegImm.regs o.t, xw := [o.a] } fun s =>
    let seq := s.me.nextSeq
    s.dispatch (s.newEntry (.vmvx h o) ((RegImm.regs o.t).map s.x) 0) fun s => s.postX o.a (Inflight.ofEntry seq)

def execVmvv (h : Hdr) (o : VU) (s : State) := vissuePlain (.vmvv h o) h s
def execVfault (h : Hdr) (o : VFL) (s : State) := vissuePlain (.vfault h o) h s

end Sys2Proof.Machine
end

