-- ==== Sys2Proof/Machine/VecEvents.lean ====
section
/-! DEFINITION. Sys2Proof/Machine/VecEvents.lean: the two steps of a dispatch-queue entry: the address stage (spec/02 R42) and the work of a cluster
(R40, R41, R43), with the retirement of entries (R39). -/

namespace Sys2Proof.Machine

/-! ### The address stage (R42) -/

/-- The predicate field that an entry reads as its mask, with its inversion; 15 for all elements (spec/03 R74, spec/09 R261, R263). -/
def Instr.maskPred (i : Instr) : Nat × Bool :=
  match i with
  | .mdrn _ o => (o.i.field 2 4, false)
  | .mdrnx _ o => (o.i.field 6 4, false)
  | _ =>
    match Instr.maskOf i with
    | some m => (m.pred.toNat, m.inv)
    | none => (15, false)

/-- Entries whose addresses come from a vector register: they wait for every earlier entry. -/
def Instr.indexed : Instr → Bool
  | .vldx _ _ | .vstx _ _ | .vlspx _ _ | .vsspx _ _ | .mdrnx _ _ => true
  | _ => false

/-- The mask of an entry as its predicate stands now. -/
def Agent.readMask (a : Agent) (i : Instr) : BitVec 1024 :=
  let m := Instr.maskPred i
  let v := if m.1 = 15 then BitVec.allOnes 1024 else a.getP (BitVec.ofNat 4 m.1)
  if m.2 then ~~~v else v

/-- The first entry that has not passed the address stage, with those before it that have not retired. -/
def Agent.nextToStage (a : Agent) : Option (Entry × List Entry) :=
  (a.queue.find? fun e => !e.passed).map fun e => (e, a.queue.takeWhile fun q => q.seq != e.seq)

/-- An earlier `vcvtef` still has to use and leave `efc`: an `mtcr` of it waits for that (spec/03 R67, spec/04 R120). -/
def efcBlocked (e : Entry) (before : List Entry) : Bool :=
  match e.instr with
  | .mtcrEfc _ _ => before.any fun q => match q.instr with | .vcvtef _ _ => true | _ => false
  | _ => false

/-- An earlier entry still has to write the mask, the addresses or the carry of an entry. -/
def stageBlocked (e : Entry) (before : List Entry) : Bool :=
  let m := (Instr.maskPred e.instr).1
  efcBlocked e before || (m != 15 && before.any fun q => (Instr.predDest q.instr).map BitVec.toNat == some m) || (Instr.indexed e.instr && !before.isEmpty)

/-- `vl` after `setvl` or `mtcr vl` (spec/08 R234, spec/06 R183). -/
def Agent.vlAfter (a : Agent) (e : Entry) : Nat :=
  match e.instr with
  | .setvl _ o =>
    a.grantVl o (match o.t with
      | .reg _ => e.xs.getD 0 0
      | .imm i => i.word)
  | .mtcrVl _ _ => min (e.xs.getD 0 0).toNat (4 * classMvl a.cls)
  | _ => a.vl

/-- An entry that is an `mfcr` of `efc`. -/
def Entry.readsEfc (e : Entry) : Bool := match e.instr with | .mfcrStream _ o => o.i.nat == 5 | _ => false

/-- `mtcr efc` takes effect as its entry passes the address stage (spec/03 R67). An `mfcr` of `efc` before it that has still to complete keeps the value
of its own position, in `aux` above bit 32. -/
def Agent.passEfc (a : Agent) (e : Entry) : Agent :=
  { a with
    efc := (e.xs.getD 0 0).setWidth 32,
    queue := mapIf (fun q => decide (q.seq < e.seq) && q.readsEfc && decide (q.aux < 2 ^ 32)) (fun q => { q with aux := 2 ^ 32 + a.efc.toNat }) a.queue }

/-- The address stage of the agent whose turn it is takes its next entry. -/
def State.addressStage (s : State) : State :=
  match s.me.nextToStage with
  | none => s
  | some (e, before) =>
    if s.me.vstop.isSome || stageBlocked e before then s
    else
      let vl := if e.redo then e.vl else s.me.vl
      let e := { e with vl := vl, n := min vl (s.me.mvl (Instr.vwidth e.instr)), mask := s.me.readMask e.instr }
      match e.instr with
      | .mdrn _ _ => s.stageDrain e
      | .mdrnx _ _ => s.stageDrain e
      | .vappend _ _ => s.stageAppend e
      | .setvl _ _ => (if e.redo then s else s.upd fun a => { a with vl := a.vlAfter e }).passEntry e
      | .mtcrVl _ _ => (if e.redo then s else s.upd fun a => { a with vl := a.vlAfter e }).passEntry e
      | .mtcrEfc _ _ => (if e.redo then s else s.upd fun a => a.passEfc e).passEntry e
      | .mfcrStream _ o =>
        (if o.i.nat = 0 then s.upd fun a => a.answer e.seq (BitVec.ofNat 64 e.vl) else s).passEntry e
      | i =>
        match Instr.sendForm i, Instr.memKind i with
        | some (_, vn, reply), _ => s.stageSend e vn reply
        | none, some k => s.stageMem e k
        | none, none => s.passEntry e

/-- An agent whose vector stream moves: placed and not exited, or a handler that a trap has ended with messages still to send (spec/15 R374). -/
def Agent.streams (a : Agent) : Bool := if a.life = .exited then !a.queue.isEmpty else a.placed

/-- What becomes of a trap of an agent that has ended: no stop follows, and the entry is abandoned (spec/15 R374; log entry 63). -/
def State.endedStop (s : State) : State :=
  match s.me.vstop with
  | some v => if s.me.life = .exited then s.abandonEntry s.me.uid v.seq else s
  | none => s

/-- VECTOR_ADDRESS_STAGE: the next entry of the agent `n` passes its address stage, or waits for what it must. -/
def execVectorAddressStage (n : Nat) (s : State) : Host.Outcome State Fault Refusal :=
  match s.agent? n with
  | some a => if a.streams then .next (s.asAgent n fun s => s.addressStage.endedStop) else .next s
  | none => .next s

/-! ### Clusters (R40, R41, R43) -/

/-- The least number of completed entries over the granted clusters. -/
def Agent.minDone (a : Agent) : Nat :=
  match a.done with
  | [] => a.nextSeq
  | d :: t => t.foldl min d

/-- Entries that are barriers: those of R41 and sends (spec/11 R319). -/
def Instr.barrier (i : Instr) : Bool := Instr.cross i || (Instr.sendForm i).isSome

/-- The next entry of cluster index `g`, if it has been issued. -/
def Agent.comingTo (a : Agent) (g : Nat) : Option Entry := a.queue.find? fun e => e.seq == a.done.getD g 0

/-- The slip limit holds an entry that cluster index `g` has come to (R40). -/
def Agent.slipHolds (a : Agent) (g : Nat) (e : Entry) : Bool := decide (e.slip < a.done.getD g 0 - a.minDone)

/-- A cross-cluster barrier holds an entry that cluster index `g` has come to (R41). -/
def Agent.barrierHolds (a : Agent) (g : Nat) (e : Entry) : Bool := Instr.barrier e.instr && a.done.any fun x => x != a.done.getD g 0

/-- The entry that cluster index `g` may work on now: its next one, past the address stage, within the slip limit, before entry F of a stop, and for a
barrier with every cluster at it; an entry that meets a register of an earlier one at another width waits for that one in every cluster (log entry 26). -/
def Agent.nextFor (a : Agent) (g : Nat) : Option Entry :=
  match a.comingTo g with
  | none => none
  | some e =>
    let stopped := match a.vstop with
      | some v => decide (v.seq ≤ e.seq)
      | none => false
    let narrows := a.queue.any fun q => decide (q.seq < e.seq) && Instr.widthChange q.instr e.instr
    if !e.passed || stopped || narrows || a.slipHolds g e || a.barrierHolds g e then none else some e

/-- The effect of an entry that takes place when it retires, every cluster having completed it: the reads of R67 but for `vl`, and the clearing of
`vfmc` (spec/07 R198, spec/08 R236). -/
def Agent.retireEntry (a : Agent) (e : Entry) : Agent :=
  let a := match e.instr with
    | .mfcrStream _ o =>
      let n := o.i.nat
      let c := a.vfmcAt e.seq
      if n = 3 then a.answer e.seq (vfmcWord c.1 c.2)
      else if n = 5 then a.answer e.seq (if e.aux < 2 ^ 32 then a.efc.setWidth 64 else BitVec.ofNat 64 (e.aux % 2 ^ 32))
      else if n = 6 then a.answer e.seq (fpcsrWord e.sp e.en (BitVec.ofNat 5 e.aux) e.rm)
      else a
    | .vmerge _ _ => { a with vfmcLog := addLog ⟨e.seq, 1024, 0, 0, true, 0, 0⟩ a.vfmcLog }
    | .vfault _ _ => { a with vfmcLog := addLog ⟨e.seq, 1024, 0, 0, true, 0, 0⟩ a.vfmcLog }
    | _ => a
  { a.foldVfmc (e.seq + 1) with retired := (a.retired + 1) % 2 ^ 64 }

/-- Entries that every cluster has completed retire, oldest first (R39). -/
def Agent.retireHeads : Nat → Agent → Agent
  | 0, a => a
  | n + 1, a =>
    match a.queue with
    | [] => a
    | e :: t => if e.seq < a.minDone then Agent.retireHeads n { (a.retireEntry e) with queue := t } else a

/-- Some clusters of the agent whose turn it is have completed an entry. -/
def Agent.completed (a : Agent) (e : Entry) (gs : List Nat) : Agent :=
  let a := { a with done := a.done.mapIdx fun g d => if gs.contains g then e.seq + 1 else d }
  Agent.retireHeads (a.queue.length + 1) a

/-- The clusters that have completed an entry have done so at a time (spec/19 R453). -/
def Agent.pipesEnd (a : Agent) (gs : List Nat) (now : Nat) : Agent :=
  { a with pipeEnd := (List.range a.done.length).map fun g => if gs.contains g then some now else a.pipeEnd.getD g none }

/-- An entry of a scratchpad load or tile that touches a PENDING line (spec/05 R134). -/
def State.pendingHolds (s : State) (g : Nat) (e : Entry) : Bool :=
  e.passed && ((Instr.memKind e.instr).any fun k => k.scratch && !k.store) && s.mustWaitLine e g

/-- What holds the next entry of cluster index `g` now, by the codes of `STALL` (spec/19 R453): 1 the slip limit, 2 a barrier, 3 a PENDING line, 4 the address
stage, 5 an entry not yet issued. -/
def State.holdsNow (s : State) (g : Nat) : List Nat :=
  match s.me.comingTo g with
  | none => [5]
  | some e =>
    (if s.me.slipHolds g e then [1] else []) ++ (if s.me.barrierHolds g e then [2] else []) ++ (if s.pendingHolds g e then [3] else [])
      ++ (if e.passed then [] else [4])

/-- What holds the clusters `gs` now has held their next entries; with `anew` they have just ended the entry before. -/
def State.noteHolds (s : State) (gs : List Nat) (anew : Bool) : State :=
  s.upd fun a => { a with
    holds := (List.range a.done.length).map fun g =>
      let old := a.holds.getD g []
      if !gs.contains g then old else ((if anew then [] else old) ++ s.holdsNow g).eraseDups }

/-- `STALL` of an entry that begins later than its cluster's previous entry ended (spec/19 R453): code 5 where it had not yet been issued, and of
several others the one that `pick` names, else the first (the spec does not say which; DESIGN CHOICE, log entry 39). -/
def stallCode (held : List Nat) (pick : Nat) : Nat :=
  if held.contains 5 then 5 else if held.contains pick then pick else held.headD 0

/-- The PIPE records of a cluster, one for each pipe (spec/19 R453): the first begun at meridian time `b`, but not before the cluster's previous entry
ended, a second one `ns` later, and each held since that end. -/
def State.tracePipe (s : State) (e : Entry) (g b pick ns : Nat) : State :=
  let a := s.me
  let now := s.meridian a.loc.mod
  let before := a.pipeEnd.getD g none
  let b := min now (max b (before.getD 0))
  let stall := if b = before.getD b then 0 else stallCode (a.holds.getD g []) pick
  let elems := ((a.clusterElems g e.n).filter fun i => e.active i).length
  (Instr.pipes e.instr).zipIdx.foldl (fun s p =>
    let b := min now (b + p.2 * ns)
    s.trace a.loc a.ctx a.rid 4 b (BitVec.ofNat 64 (e.seq % 2 ^ 32 * 2 ^ 32 + e.pc.toNat % 2 ^ 32))
      (BitVec.ofNat 64 ((now - b) % 2 ^ 32 * 2 ^ 32 + elems % 4096 * 2 ^ 8 + a.clusters.getD g 0 * 2 ^ 6 + stall * 8 + p.1))
      (BitVec.ofNat 64 (a.tidWord.toNat % 2 ^ 32 * 2 ^ 32 + (b - before.getD b) % 2 ^ 32))) s

/-- What a cluster's work on an entry comes to: it waits, it traps at an element, or some clusters have completed it. -/
inductive Work where
  | waits (s : State)
  | trap (elem : Nat) (t : Trap) (s : State)
  | done (gs : List Nat) (s : State)

/-- The outcome of a part that touches no memory. -/
def laneWork (s : State) (gs : List Nat) : LaneRes → Work
  | .error t => .trap t.1 t.2 s
  | .ok a => .done gs { s with me := a }

/-- The outcome of a part that may fail. -/
def memWork (gs : List Nat) : Except (Nat × Trap) Unit × State → Work
  | (.error t, s) => .trap t.1 t.2 s
  | (.ok (), s) => .done gs s

/-- Every cluster of the agent whose turn it is does its part of a memory entry. -/
def State.overClusters (s : State) (gs : List Nat) (f : State → Nat → State) : State := gs.foldl f s

/-- The parts of an entry in scratchpad, one cluster after the other, until one fails. -/
def State.scrParts (f : State → Nat → Except (Nat × Trap) Unit × State) : List Nat → State → Except (Nat × Trap) Unit × State
  | [], s => (.ok (), s)
  | g :: t, s =>
    match f s g with
    | (.error x, s) => (.error x, s)
    | (.ok (), s) => State.scrParts f t s

/-- The trap of the lowest element among those of several clusters (R43). -/
def lowestTrap (l : List (Nat × Trap)) : Option (Nat × Trap) :=
  l.foldl (fun b t => match b with
    | none => some t
    | some u => if t.1 < u.1 then some t else b) none

/-- The first cluster that works on a conversion within one register keeps the source for the others (spec/07 R188; log entry 26). -/
def Agent.keepSource (a : Agent) (e : Entry) : Agent × Entry :=
  match e.instr with
  | .vcvt _ o =>
    if Instr.selfWidth e.instr && e.src.isNone then
      let e := { e with src := some (a.v[o.b.toNat]'(o.b.isLt)) }
      (a.putEntry e, e)
    else (a, e)
  | _ => (a, e)

/-- A cluster works on an entry of the agent whose turn it is; a barrier is the work of all clusters at once. -/
def State.work (s : State) (e : Entry) (g : Nat) : Work :=
  let a := s.me
  let all := List.range (max 1 a.nclusters)
  let gs := if Instr.barrier e.instr then all else [g]
  match e.instr with
  | .vldc _ _ =>
    -- where a line is not counted, the entry writes no register element (spec/05 R138), in no cluster: so every cluster has come to it
    if all.all fun h => a.done.getD h 0 == e.seq then memWork all (s.runVldc e all) else .waits s
  | .vstc _ _ =>
    if e.readers = 0 then .done [g] (s.runStore e g)
    else
      let group := a.lineGroup e g
      if group.all fun h => a.done.getD h 0 == e.seq then memWork group (s.runVstc e group) else .waits s
  | .vappend _ _ => .done all (s.runAppend e)
  | .rvld _ _ =>
    match s.runRvld e g with
    | .waits s => .waits s
    | .trap i t s => .trap i t s
    | .done s => .done [g] s
  | .rvst _ _ => .done [g] (s.runRvst e g)
  | i =>
    match Instr.sendForm i, Instr.memKind i with
    | some (r, _, _), _ => .done all (s.runSend e r)
    | none, some k =>
      if k.scratch then
        if k.store then
          -- every cluster's lines are checked before any cluster writes; the lowest element counts (R43)
          match lowestTrap (gs.filterMap fun h => match (s.runScrStore e h).1 with | .error t => some t | .ok _ => none) with
          | some t => .trap t.1 t.2 s
          | none => memWork gs (State.scrParts (fun s h => s.runScrStore e h) gs s)
        else if gs.any fun h => s.mustWaitLine e h then .waits s
        else if k.consume then memWork gs (State.scrParts (fun s h => s.runScrConsume e h) gs s)
        else .done gs (s.overClusters gs fun s h => s.runScrLoad e h)
      else if k.store then .done gs (s.overClusters gs fun s h => s.runStore e h)
      else .done gs (s.overClusters gs fun s h => s.runLoad e h)
    | none, none =>
      if Instr.barrier i then laneWork s all (runCross a e)
      else
        let q := a.keepSource e
        laneWork s [g] (runLocal q.1 q.2 g)

/-- Cluster index `g` of the agent whose turn it is works on its next entry, if it may. -/
def State.clusterStep (s : State) (g b pick ns : Nat) : State :=
  match s.me.nextFor g with
  | none => s.noteHolds [g] false
  | some e =>
    match s.work e g with
    | .waits s => s.noteHolds [g] false
    | .trap i t s => (s.upd fun a => a.stopAt i t).endedStop
    | .done gs s =>
      ((gs.foldl (fun s h => s.tracePipe e h b pick ns) s).upd fun a => (a.completed e gs).pipesEnd gs (s.meridian a.loc.mod)).noteHolds gs true

/-- CLUSTER_EXECUTE_ENTRY: cluster index `g` of the agent `n` works on its next entry; the records of its work name the begin `b`, which of several
things that held it (`stall`), and how much later a second pipe begins (spec/19 R453). -/
def execClusterExecuteEntry (n g b stall ns : Nat) (s : State) : Host.Outcome State Fault Refusal :=
  match s.agent? n with
  | some a => if a.streams && decide (g < a.done.length) then .next (s.asAgent n fun s => s.clusterStep g b stall ns) else .next s
  | none => .next s

end Sys2Proof.Machine
end

