-- ==== Sys2Proof/Machine/Boundary.lean ====
section
/-! DEFINITION. Sys2Proof/Machine/Boundary.lean: instruction boundaries (spec/15 R377), arriving results (spec/03 R86, R88, R90), reports of stores
(spec/06 R171) and the end of parks (spec/02 R35). -/

namespace Sys2Proof.Machine

/-! ### Long-latency results -/

/-- A result that arrives is written to its register, unless it failed and keeps it; its flags are raised; a failure waits for its point (R90).
The register stays pending until a wait marker or a point of R89 empties the set (R87). The flags of an `fdiv` or `fsqrt` are raised as its result arrives,
so that an `mfcr` of `fpcsr` issued while it is in flight does not read them: the spec does not say whether it does (R180; DESIGN CHOICE, log entry 55). -/
def Agent.receive (a : Agent) (i : Inflight) : Agent :=
  let a := { a with inflight := a.inflight.filter fun j => !(j.order == i.order && j.isK == i.isK && j.reg == i.reg) }
  let a := if i.keep then a
    else if i.isK then a.setK (BitVec.ofNat 4 i.reg) i.val
    else a.setX (BitVec.ofNat 5 i.reg) (i.val.setWidth 64)
  let a := if i.era = a.fpera then { a with fpflags := a.fpflags ||| i.flags } else a
  match i.fail with
  | some t => { a with failures := addFailure ⟨i.order, t, false⟩ a.failures }
  | none => a

/-- The park of a wait marker ends when nothing it waits for is left (R88). -/
def Agent.endMarker (a : Agent) : Agent :=
  if a.life = .parked .marker && !a.markerWaits then { a.clearPending with life := .ready, marked := false } else a

/-- LONG_LATENCY_RESULT: the result that the instruction of issue order `o` of the agent `n` waits for arrives; an agent whose park it ends is woken, as a
STATE record shows (spec/19 R454). -/
def execLongLatencyResult (n o : Nat) (s : State) : Host.Outcome State Fault Refusal :=
  match s.agent? n with
  | none => .next s
  | some a =>
    match a.inflight.find? fun i => i.order == o && i.ready with
    | none => .next s
    | some i =>
      let wakes := a.life == .parked .marker && (a.receive i).endMarker.life == .ready
      .next ((if wakes then s.traceState a 2 0 else s).updAgent n fun a => (a.receive i).endMarker)

/-- Bytes of the same vector entry's stores have still to reach their homes: its report waits for them, so that it names the lowest failing element
(spec/08 R215). -/
def State.entryDirty (s : State) (r : Report) : Bool :=
  r.tag.entry && s.rdc.any fun l => l.tags.any fun t => t.entry && t.uid == r.tag.uid && t.order == r.tag.order

/-- Another report of the same vector entry, or the same report. -/
def Report.mate (r q : Report) : Bool := q == r || (r.tag.entry && q.tag.entry && q.tag.uid == r.tag.uid && q.tag.order == r.tag.order)

/-- A write of a satellite is refused at its home: the satellite faults, if it still runs; else its region's queue gets a record (log entry 14). -/
def State.unitRefused (s : State) (r : Report) : State :=
  match s.sats.find? fun t => t.sid == r.tag.sid && !t.terminal with
  | some t => s.faultSat r.tag.sid r.cause r.tag.data.toNat t.lateSide.toNat
  | none => s.record r.tag.loc r.tag.rid (storeRecord s r)

/-- STORE_HOME_FAILURE: report `n` of a store refused at its home, or one that met an uncorrectable error, reaches its core; the reports of one vector
entry come together. -/
def execStoreHomeFailure (n : Nat) (s : State) : Host.Outcome State Fault Refusal :=
  match s.reports[n]? with
  | none => .next s
  | some r =>
    if s.entryRuns r || s.entryDirty r then .next s
    else if r.tag.sid != 0 then .next ({ s with reports := s.reports.eraseIdx n }.unitRefused r)
    else
      let mates := (s.reports.filter r.mate).foldl (fun l q => joinReport q l) []
      .next (mates.foldl State.deliver { s with reports := s.reports.filter fun q => !r.mate q })

/-! ### Parks (R35) -/

/-- The event that a parked agent waits for has come. -/
def State.parkOver (s : State) (a : Agent) : Bool :=
  match a.life with
  | .parked .marker => !a.markerWaits
  | .parked (.swait w) =>
    match a.carriedOf w with
    | some _ => true
    | none =>
      match s.satOf a.loc w with
      | some t => t.terminal
      | none => true
  | .parked .swaitall => s.allTerminal a.uid
  | .parked (.sleepu t) => decide (t ≤ s.meridian a.loc.mod)
  | .parked (.wfi t) => a.wfiSeen || decide (t ≤ s.meridian a.loc.mod)
  | _ => false

/-- `wfi` ends: the thread goes on with the next chain. -/
def Agent.endWfi (a : Agent) : Agent :=
  match parseChain a.ir with
  | .error _ => { a with life := .ready, wfiSeen := false, wfiFrom := none }
  | .ok c => { a with life := .ready, wfiSeen := false, wfiFrom := none, pc := a.pc + BitVec.ofNat 64 (2 * c.len) }.retireChain c.wait

/-- PARK_WAKE: the event that the parked agent `n` waits for has come, and it is ready. -/
def execParkWake (n : Nat) (s : State) : Host.Outcome State Fault Refusal :=
  match s.agent? n with
  | none => .next s
  | some a =>
    if s.parkOver a then
      .next ((s.traceState a 2 0).updAgent n fun a =>
        match a.life with
        | .parked .marker => a.endMarker
        | .parked (.wfi _) => a.endWfi
        | _ => { a with life := .ready })
    else .next s

/-! ### The events of a boundary, in the order of R377 -/

/-- The trap of a pre-emption (R45). -/
def preemptTrap : Trap := ⟨0x1F, 0, 0, 0, false, 0⟩

/-- The stop of the vector stream has settled: no cluster has an entry before F left (R43). -/
def Agent.settled (a : Agent) (v : VStop) : Bool := a.done.all fun d => decide (v.seq ≤ d)

/-- The trap of a stop of the stream; a deferred fault at a merge reports `vfmc.CAUSE` as every earlier entry has left it (spec/07 R198). -/
def Agent.stopTrap (a : Agent) (v : VStop) : Trap :=
  if v.trap.cause = 0x14 then { v.trap with info := BitVec.ofNat 64 (v.elem * 2 ^ 32 + (a.vfmcAt v.seq).2 % 256) } else v.trap

/-- The vector-stream trap that may be taken now. -/
def Agent.streamTrap (a : Agent) : Option Trap :=
  match a.vstop with
  | some v => if a.settled v then some (a.stopTrap v) else none
  | none => none

/-- The first reported failure. -/
def Agent.failure? (a : Agent) : Option Failure := a.failures.find? Failure.armed

/-- The asynchronous cause to take: none while `UTA` is set; those held by it in their arrival order; else 0x26 before 0x13. -/
def Agent.late? (a : Agent) : Option Trap :=
  if a.uta then none
  else match a.late.find? fun t => t.seq == 1 with
    | some t => some t
    | none =>
      match a.late.find? fun t => t.cause == 0x26 with
      | some t => some t
      | none => a.late.head?

/-- The pre-emption of the thread whose turn it is: its image is written, without `HOLD` unless a `ctxsave` asked for it (R45, R377, R395). -/
def State.preemptNow (s : State) : State :=
  let s := s.dueFailures
  let a := s.me
  let r := trapRecord s a (a.hereTrap preemptTrap)
  let s := (s.traceState a 3 0x1F).stopStream a.uid
  (s.upd Agent.clearPending).shelve a.uid a.hold r.words

/-- An agent that waits for results before a trap (R89): when they have arrived the trap is taken, or a failure found in the wait instead (R370); a
failure found at a pre-emption waits for the restore (R90). -/
def State.endWait (s : State) (t : Trap) : State :=
  if s.me.mustWait t then s else if t.cause = 0x1F then s.preemptNow else s.takeTrap t

/-- A trap of a boundary is taken: an agent that parks or waits at a fence leaves that first. A STATE record shows a park that ends with a trap at `utvec`
(spec/19 R454). -/
def State.boundaryTrap (s : State) (t : Trap) : State :=
  let s := if s.me.takesAtUtvec t then s.wakes s.me else s
  (s.upd fun a => { a with life := .ready }).takeTrap t

/-- A pre-emption at a boundary: results are waited for first (R89). -/
def State.boundaryPreempt (s : State) : State :=
  if s.me.mustWait preemptTrap then s.upd fun a => { a with life := .trapping preemptTrap, preempt := false } else s.preemptNow

/-- The trap of step 2 is still to come: the stream has stopped and some cluster has not reached F. -/
def Agent.stopping (a : Agent) : Bool := a.vstop.isSome && a.streamTrap.isNone

/-- The code entries with `ACTION` 0 that match the chain at which the agent whose turn it is stands ready (spec/19 R445). -/
def State.codeStops (s : State) : List DebugEntry :=
  if s.me.life == .ready && !s.me.stopping then s.codeMatches.filter fun e => !e.watch else []

/-- The first pending event of the agent whose turn it is; none when nothing is pending, or while a stop of the stream settles. -/
def State.nextEvent (s : State) : Option State :=
  let a := s.me
  match a.life with
  | .exited => none
  | .queued => none
  | .trapping t => if a.mustWait t then none else some (s.endWait t)
  | _ =>
    match a.debugStop with
    | some t => some (s.boundaryTrap (a.hereTrap t))
    | none =>
      if !s.codeStops.isEmpty then some (s.watchCode.debugStop s.codeStops (issueTrap 0x20 a.pc 0 0)) else
      match a.streamTrap with
      | some t => some (s.boundaryTrap t)
      | none =>
        if a.stopping then none else
        match a.failure? with
        | some f => some (s.boundaryTrap (a.hereTrap f.trap))
        | none =>
          if a.cycleLimit then some (s.boundaryTrap (a.hereTrap ⟨0x24, 0, 0, 0, false, 0⟩))
          else match a.late? with
            | some t => some (s.boundaryTrap (a.hereTrap { t with seq := 0 }))
            | none => if a.preempt && !a.isHandler then some s.boundaryPreempt else none

/-- EVENT_BOUNDARY: the agent `n` takes the first event pending at its boundary. -/
def execEventBoundary (n : Nat) (s : State) : Host.Outcome State Fault Refusal :=
  match s.agent? n with
  | some _ => .next (s.asAgent n fun s => s.nextEvent.getD s)
  | none => .next s

end Sys2Proof.Machine
end

