-- ==== Sys2Proof/Machine/Mint.lean ====
section
/-! DEFINITION. Sys2Proof/Machine/Mint.lean: keys as the Keywright of a module mints them (spec/18 R438): charters, probes, and the mint itself, for
`kmint` (spec/15 R399) and for the `key` clauses of a launch (spec/03 R99). -/

namespace Sys2Proof.Machine

/-- A number lies in one of some ranges, each a first number and a count. -/
def inRanges (l : List (Nat × Nat)) (n : Nat) : Bool := l.any fun r => decide (r.1 ≤ n) && decide (n < r.1 + r.2)

/-- The address space that a kind-0 key of this module reaches is within a charter's range. -/
def State.asidChartered (s : State) (c : Charter) (k : Key) : Bool :=
  kKind k != 0 || kVout k != c.mod ||
    ((s.keyEndpoint k).owner.bind (s.region? c.mod)).any fun r => inRanges c.asids r.asid

/-- A charter allows an endpoint. -/
def State.endpointChartered (s : State) (c : Charter) (k : Key) : Bool :=
  inRanges c.outs (kVout k) && c.dies.testBit (kDie k) && c.kinds.testBit (kKind k) && s.asidChartered c k
    && (kKind k != 5 || bits (kBase k) 0 6 == c.vif)

/-- Some charter of a module allows a key: its endpoint and its holder. The launch right goes only to a region that holds it. -/
def State.chartered (s : State) (m : Nat) (k : Key) : Bool :=
  (s.charters.any fun c => c.mod == m && s.endpointChartered c k && inRanges c.holders (kHolder k))
    && (kKind k != 4 || !kHas k 7 || s.regions.any fun r => r.mod == m && r.holder == kHolder k && r.state == .bound && r.launch)

/-- What the own probe of the Keywright of module `m` meets at another module's endpoint (spec/18 R438): a module that is not attached is refused by the vault node (R432), and
one that does not answer fails by the end-to-end limit (R434); the probe is made within the instruction (log entry 24). -/
def State.probeCause (s : State) (m : Nat) (k : Key) : Option Nat :=
  if kEgr k = 255 then none
  else if (s.choosePort m k (kBase k / 128) 0).isNone then some 0x23
  else if 512 ≤ kVout k then none
  else match s.module? (kVout k) with
    | none => some 0x09
    | some a => if a.up then none else some 0x23

/-- A key that the Keywright of module `m` mints: the words of `k` with the endpoint's current generation and a new tag. Refused with 0x09 where its routing
is not well formed, with 0x06 outside the charter or for a retired endpoint, and as the Keywright's probe is (R399, spec/18 R438). -/
def State.mint (s : State) (m : Nat) (k : Key) : Except Nat Key × State :=
  if !kRouted k m then (.error 0x09, s)
  else
    let t := s.claim k
    let e := t.keyEndpoint k
    if !t.chartered m k then (.error 0x06, s)
    else match s.probeCause m k with
      | some c => (.error c, s)
      | none => if e.retired then (.error 0x06, s) else (.ok (t.signed (setField k 52 12 e.gen)), t)

/-- The keys of a launch block, each minted for the holder id of the new region (spec/03 R99). A launch is refused with 0x01 for a key whose routing is not
well formed, and with 0x06 for any other key that the Keywright does not mint: R414 has no other cause for either (DESIGN CHOICE, log entry 64). -/
def State.mintAll (s : State) (m holder : Nat) : List (Nat × Key) → Except Nat (List (Nat × Key)) × State
  | [] => (.ok [], s)
  | (n, k) :: t =>
    match s.mint m (setField k 176 16 holder) with
    | (.error c, s) => (.error (if c = 0x09 then 0x01 else 0x06), s)
    | (.ok k, s) =>
      match s.mintAll m holder t with
      | (.error c, s) => (.error c, s)
      | (.ok l, s) => (.ok ((n, k) :: l), s)

end Sys2Proof.Machine
end

