-- ==== Sys2Proof/Machine/Restore.lean ====
section
/-! DEFINITION. Sys2Proof/Machine/Restore.lean: what a placement reads back of a context image (spec/15 R379 to R387, spec/02 R46). The image in
memory decides, as software may have altered it; what an image does not hold (an entry's captured key, the values of a pending event)
the thread keeps. -/

namespace Sys2Proof.Machine

/-! ### Reading the image -/

/-- The doubleword at an offset of some bytes. -/
def wordAt (bs : List Byte) (o : Nat) : Nat := bytesNat ((bs.drop o).take 8)

/-- Read pieces at offsets from a base, up to the first that fails. -/
def State.loadPieces (s : State) (r : Region) (loc : Loc) (base : Nat) : List (Nat × Nat) → Except Nat (List (List Byte)) × State
  | [] => (.ok [], s)
  | (o, n) :: t =>
    match s.loadBytes r loc (base + o) n with
    | (.error a, s) => (.error a, s)
    | (.ok bs, s) =>
      match s.loadPieces r loc base t with
      | (.error a, s) => (.error a, s)
      | (.ok l, s) => (.ok (bs :: l), s)

/-- The bytes of an image: its header, the register areas, and with them the vector registers up to their marks, the residue, the slot records and the
matrix areas. -/
structure RawImage where
  hdr  : List Byte
  x    : List Byte
  ctl  : List Byte
  k    : List Byte
  p    : List Byte
  fm   : List Byte
  mks  : List Byte
  rest : List (List Byte)
  deriving DecidableEq, Repr

/-- The header says that the image holds matrix state (R380 `SLICE`). -/
def RawImage.slice (i : RawImage) : Bool := bit (wordAt i.hdr 8) 12

/-- The byte count of a vector register in an image. -/
def RawImage.mark (i : RawImage) (v : Nat) : Nat := min 1024 (bytesNat ((i.mks.drop (4 * v)).take 4))

/-- The areas of an image that its first part decides: 32 vector registers, residue, slot records, and five matrix areas. -/
def RawImage.areas (i : RawImage) (moved tiles : Bool) : List (Nat × Nat) :=
  (List.range 32).map (fun v => (0x1000 + 0x400 * v, i.mark v))
    ++ [(0x9000, 64 * min 128 (bits (wordAt i.hdr 0x18) 32 32)), (0xB000, if moved then 64 * min 256 (wordAt i.hdr 0x50) else 0)]
    ++ (if tiles && i.slice then [(0xF000, 32768), (0x17000, 32768), (0x1F000, 256), (0x1F100, 256), (0x1F200, 16)] else [])

/-- The image of a thread of class `cls`; `moved` where it is placed on another core, `tiles` where its tiles are not live in the slice. -/
def State.readImage (s : State) (r : Region) (l : Loc) (base cls : Nat) (moved tiles : Bool) : Except Nat RawImage × State :=
  match s.loadPieces r l base ([(0, 192), (0x100, 256), (0x200, 168), (0x300, 512)]
      ++ if cls = 0 then [] else [(0x500, 1536), (0xB00, 128), (0xB80, 128)]) with
  | (.error a, s) => (.error a, s)
  | (.ok f, s) =>
    let i : RawImage := ⟨f.getD 0 [], f.getD 1 [], f.getD 2 [], f.getD 3 [], f.getD 4 [], f.getD 5 [], f.getD 6 [], []⟩
    match s.loadPieces r l base (i.areas moved tiles) with
    | (.error a, s) => (.error a, s)
    | (.ok g, s) => (.ok { i with rest := g }, s)

/-! ### The residue (R382, R387) -/

/-- A sequence number counted from the first residue entry (R387); one before it stands for an entry that has left the queue. -/
def renumbered (first n : Nat) : Nat := if first ≤ n then n - first else 2 ^ 40 + n

/-- The same for a sequence number of an image, modulo 2^32 (spec/02 R39). -/
def imageSeq (first n : Nat) : Nat := (n + 2 ^ 32 - first % 2 ^ 32) % 2 ^ 32

/-- The scalar operands of an entry, as many as it captured. -/
def restoredXs (old : List Word) (bs : List Byte) : List Word := old.mapIdx fun i x => if i < 3 then BitVec.ofNat 64 (wordAt bs (0x20 + 8 * i)) else x

/-- A field of a register word that reads as zero where it holds a reserved code, one from `first` on (spec/00 R8). -/
def zeroReserved (lo n first w : Nat) : Nat := if first ≤ bits w lo n then w - bits w lo n * 2 ^ lo else w

/-- One residue entry from its 64 bytes: none where [18:16] is 0, 6 or 7, or its halfwords are no instruction. -/
def restoredEntry (known : List Entry) (first : Nat) (bs : List Byte) : Option Entry :=
  let w := wordAt bs 0x10
  let n := bits w 16 3
  let hs := ((List.range 4).map fun i => (BitVec.ofNat 16 (bits (wordAt bs 8) (16 * i) 16) : Half)) ++ [BitVec.ofNat 16 (bits w 0 16)]
  if n = 0 || 6 ≤ n then none
  else match decodeHalves (hs.take n) with
    | .error _ => none
    | .ok i =>
      let seq := bits w 32 32
      let old := (known.find? fun e => e.seq % 2 ^ 32 == seq).getD
        ⟨seq, 0, 0, [], i, [0, 0, 0], 0, 0, false, 0, 8, 0, false, false, false, 0, 0, 0, [], 0, 0, none⟩
      some { old with
        seq := imageSeq first seq, pc := BitVec.ofNat 64 (wordAt bs 0), halfs := hs.take n, instr := i, xs := restoredXs old.xs bs,
        rm := BitVec.ofNat 3 (bits (zeroReserved 21 3 6 w) 21 3), sp := bit w 24, en := BitVec.ofNat 5 (bits w 25 5), passed := false, redo := bit w 19,
        vl := wordAt bs 0x18,
        tok := (match i with
          | .vappend _ _ => BitVec.ofNat 64 (wordAt bs 0x38) | .mdrn _ _ => BitVec.ofNat 64 (wordAt bs 0x38)
          | .mdrnx _ _ => BitVec.ofNat 64 (wordAt bs 0x38) | _ => old.tok),
        aux := (match i with | .vappend _ _ => wordAt bs 0x30 | _ => old.aux) }

/-- The entries of a residue, each with whether it is set aside; the index of an unreadable entry otherwise. -/
def restoredQueue (known : List Entry) (first : Nat) : Nat → Nat → List Byte → Except Nat (List (Bool × Entry))
  | 0, _, _ => .ok []
  | n + 1, k, bs =>
    match restoredEntry known first (bs.take 64) with
    | none => .error k
    | some e =>
      match restoredQueue known first n (k + 1) (bs.drop 64) with
      | .error j => .error j
      | .ok l => .ok ((bit (wordAt bs 0x10) 31, e) :: l)

/-! ### The registers -/

/-- Restart indices of the granted clusters: those of the clusters of the saved `CMASK`, in order, counted from the first residue entry. -/
def restoredDone (i : RawImage) (off first : Nat) : List Nat :=
  let cm := bits (wordAt i.hdr 8) 8 4
  ((List.range 4).filter fun c => cm.testBit c).map fun c =>
    imageSeq first (bits (wordAt i.hdr (off + 8 * (c / 2))) (32 * (c % 2)) 32)

/-- A vector register: the bytes below its mark, and unpredictable bytes above it (spec/02 R46). -/
def RawImage.vreg (i : RawImage) (fresh v : Nat) : BitVec 8192 :=
  let low := i.rest.getD v []
  BitVec.ofNat 8192 (bytesNat (low ++ (freeBytes (fresh + v) 1024).drop low.length))

/-- A pending event that the image still names, or that came after the image was written. -/
def RawImage.pends (i : RawImage) (a : Agent) (c : Nat) : Bool := bit (wordAt i.hdr 0x48) c || !bit a.pended c

/-- A slot record of a satellite on the core that the thread left (R383). -/
def restoredSlot (bs : List Byte) : Carried :=
  let w := wordAt bs 8
  ⟨BitVec.ofNat 64 (wordAt bs 0), bits w 0 3, bit w 4, if bit w 5 then some (wordAt bs 0x10) else none,
    (List.range 4).map fun j => BitVec.ofNat 64 (wordAt bs (0x20 + 8 * j))⟩

/-- The slot records of an image. -/
def RawImage.carried (i : RawImage) : List Carried :=
  let bs := i.rest.getD 33 []
  (List.range (bs.length / 64)).map fun j => restoredSlot (bs.drop (64 * j))

/-- A tile of an image. -/
def RawImage.tile (i : RawImage) (acc : Nat) : Tile :=
  let rows := i.rest.getD (34 + acc) []
  let carries := i.rest.getD (36 + acc) []
  let c := wordAt (i.rest.getD 38 []) (8 * acc)
  ⟨Vector.ofFn fun m : Fin 64 => BitVec.ofNat 4096 (bytesNat ((rows.drop (512 * m.val)).take 512)),
   Vector.ofFn fun m : Fin 64 => BitVec.ofNat 32 (bytesNat ((carries.drop (4 * m.val)).take 4)), bits c 0 16, bits c 16 16, bits c 32 16⟩

/-- `mcfgv` as an image gives it: the reserved field, reserved format codes and reserved rounding modes read as zero (spec/00 R8, spec/04 R101, R112, spec/09
R242). -/
def imageCfg (w : Nat) : Nat :=
  zeroReserved 0 4 12 (zeroReserved 4 4 12 (zeroReserved 8 4 12 (zeroReserved 20 4 12 (zeroReserved 17 3 6 (zeroReserved 24 8 1 w)))))

/-- The scalar state, the keys and the control registers (R380, R381); reserved fields and codes that software has set in the image read as zero (spec/00
R8). -/
def RawImage.scalars (i : RawImage) (a : Agent) : Agent :=
  let c (o : Nat) : Nat := wordAt i.ctl o
  let w (o : Nat) : Word := BitVec.ofNat 64 (c o)
  { a with
    x := Vector.ofFn fun n : Fin 32 => if n.val = 0 then 0 else BitVec.ofNat 64 (wordAt i.x (8 * n.val)),
    k := Vector.ofFn fun n : Fin 16 => BitVec.ofNat 256 (bytesNat ((i.k.drop (32 * n.val)).take 32)),
    pc := BitVec.ofNat 64 (wordAt i.hdr 0x10) &&& ~~~1, uta := bit (wordAt i.hdr 8) 14,
    vl := min (c 0x00) (4 * classMvl a.cls), efc := BitVec.ofNat 32 (c 0x08),
    fpsp := bit (c 0x10) 13, fpen := BitVec.ofNat 5 (bits (c 0x10) 8 5), fpflags := BitVec.ofNat 5 (bits (c 0x10) 3 5),
    fprm := BitVec.ofNat 3 (bits (zeroReserved 0 3 6 (c 0x10)) 0 3), slip := min 32 (bits (c 0x18) 0 6),
    vfmcCount := bits (c 0x20) 0 11, vfmcCause := bits (c 0x20) 16 8,
    sattr := w 0x28 &&& 0x1FFFFFFFF, sshape := w 0x30, slaunch := w 0x38, safter := w 0x40, mcfgv := BitVec.ofNat 64 (imageCfg (c 0x48)), msbase := w 0x50,
    mgang := BitVec.ofNat 16 (c 0x58), gangto := max 1024 (bits (c 0x60) 0 32),
    utvec := w 0x68 &&& ~~~1, ucause := w 0x70 &&& 0xFF, uepc := w 0x78 &&& ~~~1, uaddr := w 0x80, uinfo := w 0x88, pscratch := w 0xA0 }

/-- The vector state of a thread with clusters. -/
def RawImage.vectors (i : RawImage) (fresh : Nat) (a : Agent) : Agent :=
  if a.cls = 0 then a
  else { a with
    v := Vector.ofFn fun n : Fin 32 => i.vreg fresh n.val,
    marks := Vector.ofFn fun n : Fin 32 => i.mark n.val,
    p := Vector.ofFn fun n : Fin 12 => BitVec.ofNat 1024 (bytesNat ((i.p.drop (128 * n.val)).take (a.mvl 8 / 8))),
    fmask := BitVec.ofNat 1024 (bytesNat (i.fm.take (a.mvl 8 / 8))) }

/-- The vector stream and the pending events: sequence numbers start again from the first residue entry as 0, a result in flight stays pending with
its entry, and a failure found at a pre-emption is due (spec/03 R90). -/
def RawImage.stream (i : RawImage) (first : Nat) (q : List (Bool × Entry)) (a : Agent) : Agent :=
  let main := (q.filter fun e => !e.1).map Prod.snd
  let aq := (q.filter Prod.fst).map Prod.snd
  let inf := a.inflight.map fun r => { r with entry := r.entry.map (renumbered first) }
  let log := a.vfmcLog.map fun v => { v with seq := renumbered first v.seq }
  ({ a with
    queue := main, done := restoredDone i 0x20 first,
    aside := if bit (wordAt i.hdr 8) 13 then
        some ⟨aq, restoredDone i 0x30 first, imageSeq first (bits (wordAt i.hdr 0x40) 32 32), wordAt i.ctl 0x90, BitVec.ofNat 64 (wordAt i.hdr 0x58),
          (a.aside.map Aside.era).getD a.fpera, (a.aside.map Aside.marked).getD false,
          ((a.aside.map Aside.log).getD []).map fun v => { v with seq := renumbered first v.seq }⟩
      else none,
    nextSeq := ((aq ++ main).getLast?.map fun e => e.seq + 1).getD 0,
    inflight := inf.filter fun r => (aq ++ main).any fun e => r.entry == some e.seq,
    vfmcLog := log, userSeq := a.userSeq - first,
    failures := a.failures.filter fun f => i.pends a f.trap.cause,
    late := a.late.filter fun t => i.pends a t.cause,
    debugStop := if i.pends a 0x20 then a.debugStop else none } : Agent).clearPending

/-- The sequence number of the first residue entry (R380). -/
def Agent.firstSeq (a : Agent) : Nat :=
  ((((a.aside.map Aside.queue).getD [] ++ a.queue).head?).map Entry.seq).getD a.nextSeq

/-- The thread that an image holds; the offset of an unreadable residue entry otherwise. -/
def RawImage.agent (i : RawImage) (a : Agent) (fresh : Nat) : Except Nat Agent :=
  let first := a.firstSeq
  let bs := i.rest.getD 32 []
  match restoredQueue ((a.aside.map Aside.queue).getD [] ++ a.queue) first (bs.length / 64) 0 bs with
  | .error k => .error (0x9000 + 64 * k)
  | .ok q => .ok (i.stream first q (i.vectors fresh (i.scalars a)))

/-! ### Everything that counts in an agent's sequence numbers -/

/-- The positions in an agent's stream that satellites, deferred steps and requests hold, counted from the first residue entry. -/
def State.renumber (s : State) (uid first : Nat) : State :=
  let use (u : ReqUse) : ReqUse := match u with
    | .element v seq i tag => if v = uid then .element v (renumbered first seq) i tag else u
    | _ => u
  { s with
    sats := mapIf (fun t => t.issuer == uid) (fun t => { t with upto := t.upto - first }) s.sats,
    deferred := mapIf (fun d => d.uid == uid) (fun d => { d with upto := d.upto - first }) s.deferred,
    reqs := s.reqs.map fun q => { q with use := use q.use } }

end Sys2Proof.Machine
end

