-- ==== Sys2Proof/Machine/Sched.lean ====
section
/-! DEFINITION. Sys2Proof/Machine/Sched.lean: the schedulers of the compute dies (spec/16 R407 to R411, spec/02 R36): slots, places, time budgets; the
second stage of a save (spec/15 R385) and the move of a scratchpad (R388). -/

namespace Sys2Proof.Machine

/-- The quantum of R408, in ns. -/
def quantum : Nat := 100000

/-! ### Slots (R408) -/

/-- The waiting queue that the next slot to reach a boundary goes to: one that is pinned first, else the best. -/
def State.nextMapped (s : State) (m d : Nat) : Option RQueue :=
  match bestQueue ((s.waiters m d).filter RQueue.pinned) with
  | some q => some q
  | none => bestQueue (s.waiters m d)

/-- SLOT_BOUNDARY: the slot of region `r` on die `d` reaches a boundary: where a queue waits it is taken, and its threads on the die are pre-empted
(R410). -/
def execSlotBoundary (m d r : Nat) (s : State) : Host.Outcome State Fault Refusal :=
  let s := s.settleQueues m d
  match s.rqueue? m d r with
  | none => .next s
  | some q =>
    match q.slotAt with
    | none => .next s
    | some t =>
      if q.pinned || s.meridian m < t + quantum then .next s
      else match s.nextMapped m d with
        | none => .next (s.updQueue m d r fun q => { q with slotAt := some (t + quantum) })
        | some w =>
          let now := s.meridian m
          let s := s.updQueue m d r fun q => q.wait (s.basePrio q) now
          let s := s.updQueue m d w.rid fun q => q.map (s.basePrio q) now
          .next ((s.preemptWhere fun a => a.loc.mod == m && a.loc.die == d && a.rid == r).settleQueues m d)

/-- QUEUE_AGING: the queue of region `r` on die `d` has waited one more aging period, and its effective priority rises. Every other event of the die's
scheduler sees it risen too. -/
def execQueueAging (m d r : Nat) (s : State) : Host.Outcome State Fault Refusal :=
  let s := s.settleQueues m d
  .next (s.updQueue m d r fun q => q.agedTo (s.meridian m))

/-! ### Places (spec/02 R36) -/

/-- Where a thread is placed on a core: context, first granted cluster, first quarter of the share. -/
structure Seat where
  ctx : Nat
  g   : Nat
  q   : Nat
  deriving DecidableEq, Repr

/-- The form of a seat for a class. -/
def Seat.fits (t : Seat) (cls : Nat) : Bool :=
  decide (t.ctx < 7) &&
    match cls with
    | 1 => decide (t.g < 4) && decide (t.q < 4)
    | 2 => decide (t.g < 4) && (t.q == 0 || t.q == 2)
    | 3 => decide (t.g < 4) && t.q == 0
    | 4 => (t.g == 0 || t.g == 2) && t.q == 0
    | _ => t.g == 0 && t.q == 0

/-- The clusters that a class is granted from a first one, as bits. -/
def seatMask (cls g : Nat) : Nat :=
  match cls with
  | 0 => 0
  | 4 => 3 * 2 ^ g
  | 5 => 15
  | _ => 2 ^ g

/-- The quarters of each granted cluster's thread share that a class takes, as bits. -/
def shareOf (cls q : Nat) : Nat :=
  match cls with
  | 1 => 2 ^ q
  | 2 => 3 * 2 ^ q
  | _ => 15

/-- No thread of the core has any of the quarters that a seat takes. -/
def State.sharesFree (s : State) (l : Loc) (cls g q : Nat) : Bool :=
  s.agents.all fun b => b.isHandler || !b.placed || b.life == .exited || b.loc != l
    || seatMask cls g &&& b.cmask.toNat == 0 || shareOf cls q &&& shareOf b.cls b.quarter == 0

/-- The cores that hold threads of a region. -/
def State.coresOf (s : State) (m r : Nat) : List Loc :=
  ((s.agents.filter fun a => a.loc.mod == m && a.rid == r && a.placed && !a.isHandler && a.life != .exited).map Agent.loc).eraseDups

/-- A core is among those that the grant of a region's interface fixes (R412). -/
def State.coreGranted (s : State) (r : Region) (l : Loc) : Bool :=
  (s.vifs.find? fun v => v.mod == r.mod && v.vif == r.vif).all fun v => (v.coreset.getD l.die 0).testBit l.core

/-- A region's thread may be on a core: its dies, the grant of its interface, the core that the thread's creation named, the core where an incomplete image has its satellites (spec/15
R386), and the number of cores of its control block. -/
def State.coreAllowed (s : State) (r : Region) (a : Agent) (l : Loc) : Bool :=
  r.allows l.die && decide (l.die < 8) && decide (l.core < 128) && s.coreGranted r l
    && (a.named.all fun c => c == l.die * 128 + l.core)
    && (!a.saved || a.complete || a.loc == l)
    && ((s.coresOf r.mod r.rid).contains l || decide ((s.coresOf r.mod r.rid).length < s.left r Region.cores))

/-- Bytes of each lane slice of a core that allocations take. -/
def State.laneUsed (s : State) (l : Loc) : Nat := ((s.allocs.filter fun a => a.loc == l).map Alloc.bytes).sum

/-- A region has its scratchpad on a core, or can be granted it there (spec/05 R132). -/
def State.scratchFits (s : State) (r : Region) (l : Loc) : Bool :=
  s.left r Region.scratch == 0 || (s.allocs.any fun a => a.loc == l && a.rid == r.rid) || decide (s.laneUsed l + 128 * s.left r Region.scratch ≤ 16384)

/-- The handler entries that the launch block of a thread's region names (spec/03 R98). -/
def State.planned (s : State) (r : Region) (a : Agent) : List (Nat × Word) :=
  if a.launched then (s.plans.filter fun p => p.mod == r.mod && p.rid == r.rid).flatMap Plan.handlers else []

/-- Every such entry is EMPTY or the region's own on a core: for the first placement of a thread, and for any placement of one with `core=any`. -/
def State.planFits (s : State) (r : Region) (a : Agent) (l : Loc) : Bool :=
  (a.acq == 0 && a.named.isSome) || (s.planned r a).all fun h => (s.hentry l h.1).all fun e => e.rid == r.rid

/-- The matrix slice of a core is free (spec/09 R238). -/
def State.sliceFree (s : State) (l : Loc) : Bool :=
  match s.slice? l with
  | none => true
  | some q => q.holder.isNone && !s.matrixBusy l

/-- The header of a saved thread's image says that it holds matrix state. -/
def State.wantsSlice (s : State) (r : Region) (a : Agent) : Bool :=
  a.saved && a.complete &&
    match (s.loadBytes r a.loc (imageBase r a.tid + 8) 8).1 with
    | .ok bs => bit (bytesNat bs) 12
    | .error _ => false

/-- A thread can be placed in a seat of a core. -/
def State.seatOk (s : State) (r : Region) (a : Agent) (l : Loc) (t : Seat) : Bool :=
  t.fits a.cls && !(s.usedContexts l).contains t.ctx && s.sharesFree l a.cls t.g t.q && s.coreAllowed r a l && s.scratchFits r l && s.planFits r a l
    && (!(s.wantsSlice r a || (decide (1 < a.columns.length) && a.saved && a.complete)) || s.sliceFree l)

/-- Every seat of a core. -/
def allSeats : List Seat := (List.range 7).flatMap fun x => (List.range 4).flatMap fun g => (List.range 4).map fun q => ⟨x, g, q⟩

/-- The first seat in which a thread can be placed on a core. -/
def State.seatFor (s : State) (r : Region) (a : Agent) (l : Loc) : Option Seat := allSeats.find? fun t => s.seatOk r a l t

/-! ### Placing a thread -/

/-- A region is granted its scratchpad on a core (spec/05 R132, R134, spec/18 R470). -/
def State.grantScratch (s : State) (r : Region) (l : Loc) : State :=
  let n := s.left r Region.scratch
  if n = 0 || s.allocs.any fun a => a.loc == l && a.rid == r.rid then s
  else
    let s := { s with allocs := s.allocs ++ [(⟨l, r.rid, 128 * n⟩ : Alloc)] }
    if (s.endpoint l.mod l.die 1 l.core 0).owner.isNone then s.passScratch l else s

/-- The handler entries of a launch block are set on a core (spec/03 R98), and waiting messages find them so. -/
def State.grantHandlers (s : State) (r : Region) (l : Loc) (hs : List (Nat × Word)) : State :=
  hs.foldl (fun s h => (s.setHentry ⟨l, h.1, r.rid, true, h.2⟩).relock l h.1 none) s

/-- A thread in its seat: ready, or still at the park of a wait marker (spec/02 R469), with its clusters; a thread whose `mgang` names one column has the new core's (spec/09 R239). -/
def Agent.seated (a : Agent) (l : Loc) (t : Seat) (now : Nat) : Agent :=
  { a with
    loc := l, ctx := t.ctx, cmask := BitVec.ofNat 4 (seatMask a.cls t.g), quarter := t.q, placed := true,
    life := if a.marked then .parked .marker else .ready, saved := false,
    complete := false, hold := false, preempt := false, started := now, acq := 0, pipeEnd := [],
    done := if a.done.length = classClusters a.cls then a.done else List.replicate (classClusters a.cls) 0,
    mgang := if 1 < a.columns.length then a.mgang else BitVec.ofNat 16 (2 ^ l.column) }

/-- The slots that a thread leaves behind on another core are free (spec/15 R386). -/
def State.leaveSlots (s : State) (uid : Nat) : State := ((s.ownSats uid).map Sat.sid).foldl State.reap s

/-- A saved thread's image is read back; on another die its own earlier remote writes come before what it reads there through keys (spec/05 R147). A fault is cause 0x21 and ends the region (spec/15 R390). -/
def State.restoreThread (s : State) (r : Region) (a : Agent) (l : Loc) (t : Seat) : State :=
  let base := imageBase r a.tid
  let moved := a.loc != l || (s.ownSats a.uid).any fun q => q.loc != l
  match (s.acquire l (if a.loc.die = l.die then 3 else 4)).readImage r l base a.cls moved a.complete with
  | (.error e, s) => s.endRegion l r.rid (.saveFault (BitVec.ofNat 64 e) a.tid)
  | (.ok i, s) =>
    match i.agent a s.fresh with
    | .error o => s.endRegion l r.rid (.saveFault (BitVec.ofNat 64 (base + o)) a.tid)
    | .ok b =>
      let s := { s with fresh := s.fresh + 32 }
      let s := if moved then s.leaveSlots a.uid else s
      let b := if moved then { b with carried := i.carried } else b
      let tiles := a.complete && i.slice
      let s := if tiles then
          { s with slices := (s.slices.filter fun q => q.loc != l) ++ [⟨l, some a.uid, a.rid, i.tile 0, i.tile 1⟩] }
        else s
      (s.renumber a.uid a.firstSeq).updAgent a.uid fun _ => b.seated l t (s.meridian l.mod)

/-- The queue of a placed thread goes behind the others of the die: free contexts go round among equal priorities (R410). -/
def State.rotate (s : State) (m d r : Nat) : State :=
  let mine (q : RQueue) : Bool := q.mod == m && q.die == d && q.rid == r
  { s with rqueues := (s.rqueues.filter fun q => !mine q) ++ s.rqueues.filter mine }

/-- A thread leaves its queue for a seat. At its first placement its launch block's handler entries are set, and it begins with the acquire of its creation. -/
def State.seatThread (s : State) (r : Region) (a : Agent) (l : Loc) (t : Seat) : State :=
  let hs := if a.acq != 0 then s.planned r a else []
  let s := ((s.dequeue a.loc.mod a.loc.die a.rid a.uid).rotate a.loc.mod a.loc.die a.rid).grantScratch r l
  let s := (s.grantHandlers r l hs).acquire l a.acq
  let s := if a.saved then s.restoreThread r a l t else s.updAgent a.uid fun a => a.seated l t (s.meridian l.mod)
  match s.agent? a.uid with
  | some b => if b.placed then (s.coreChange l fun c => { c with last := some a.rid }).traceState b 0 0 else s
  | none => s

/-! ### THREAD_PLACE (R410, R411) -/

/-- The mapped queues of a die whose regions may have threads placed. -/
def State.openQueues (s : State) (m d : Nat) : List RQueue :=
  s.rqueues.filter fun q => q.mod == m && q.die == d && q.slotAt.isSome && s.hasWork q

/-- Some thread of a queue, but no member of a saved gang, can be placed on a core. -/
def State.queueWants (s : State) (q : RQueue) (l : Loc) : Bool :=
  match s.region? q.mod q.rid with
  | none => false
  | some r => (s.queueThreads q).any fun b => !(b.saved && decide (1 < b.columns.length)) && (s.seatFor r b l).isSome

/-- Queue `p` has a free context of a core before queue `q`: the higher effective priority, and in turn among equal ones. -/
def State.takesFirst (s : State) (q : RQueue) (l : Loc) : List RQueue → Bool
  | [] => false
  | p :: t =>
    if p.rid = q.rid then t.any fun p => decide (q.prio < p.prio) && s.queueWants p l
    else (decide (q.prio ≤ p.prio) && s.queueWants p l) || s.takesFirst q l t

/-- A gang of a higher effective priority waits for cores of this column (R411). -/
def State.gangWaits (s : State) (q : RQueue) (l : Loc) : Bool :=
  (s.openQueues l.mod l.die).any fun p => decide (q.prio < p.prio) && (s.gangHead p).any fun a => a.columns.contains l.column

/-- Every thread before this one in its queue waits for another core: none is a saved gang's, and none can be placed here. -/
def State.isNext (s : State) (r : Region) (q : RQueue) (a : Agent) (l : Loc) : Bool :=
  ((s.queueThreads q).takeWhile fun b => b.uid != a.uid && !a.gangMate b).all fun b =>
    !(b.saved && decide (1 < b.columns.length)) && (s.seatFor r b l).isNone

/-- The members of a saved gang take their own columns of a row, each in the first seat that fits; none if a member has no seat. -/
def State.seatGang (s : State) (r : Region) (row : Nat) : List Agent → Option State
  | [] => some s
  | a :: t =>
    let l : Loc := ⟨a.loc.mod, a.loc.die, 16 * row + a.loc.column⟩
    match s.seatFor r a l with
    | none => none
    | some q => (s.seatThread r a l q).seatGang r row t

/-- A placed thread that is to be pre-empted, or waits for results before it is. -/
def Agent.leaves (a : Agent) : Bool := a.placed && (a.preempt || match a.life with | .trapping t => t.cause == 0x1F | _ => false)

/-- A gang is placed as a whole on a row, or not at all (spec/09 R250): with a member still placed, only on that member's row. -/
def State.placeGang (s : State) (r : Region) (a : Agent) (l : Loc) : State :=
  let all := s.agents.filter fun b => a.gangMate b
  let saved := all.filter fun b => b.life == .queued
  -- a member that is still to be pre-empted is saved first: the gang leaves as a whole (spec/09 R253)
  if saved.any Agent.hold || (saved.any fun b => !b.saved) || all.any Agent.leaves then s
  else if (saved.length < all.length && l.row != a.loc.row) || saved.any (fun b => !b.columns.contains b.loc.column) then s
  else (s.seatGang r l.row saved).getD s

/-- THREAD_PLACE: the queued thread `n` is placed on core `c` (128 times the die plus the core) in context `x`, with its clusters from `g` on and the
quarters of their shares from `q` on; a member of a saved gang with its whole gang, on the row of `c`. -/
def execThreadPlace (n c x g q : Nat) (s : State) : Host.Outcome State Fault Refusal :=
  match s.agent? n with
  | none => .next s
  | some a =>
    let l : Loc := ⟨a.loc.mod, c / 128, c % 128⟩
    let s := s.settleQueues l.mod l.die
    match s.region? a.loc.mod a.rid, s.rqueue? a.loc.mod a.loc.die a.rid with
    | some r, some k =>
      if a.life == .queued && !a.hold && l.die == a.loc.die && k.slotAt.isSome && s.hasWork k && s.isNext r k a l
          && !s.gangWaits k l && !s.takesFirst k l (s.openQueues l.mod l.die) then
        if a.saved && 1 < a.columns.length then .next (s.placeGang r a l)
        else if s.seatOk r a l ⟨x, g, q⟩ then .next (s.seatThread r a l ⟨x, g, q⟩)
        else .next s
      else .next s
    | _, _ => .next s

/-- The placed threads of a row in the columns of a gang. -/
def State.rowHolders (s : State) (b : Agent) (row : Nat) : List Agent :=
  s.agents.filter fun a => a.loc.mod == b.loc.mod && a.loc.die == b.loc.die && a.loc.row == row && b.columns.contains a.loc.column
    && !a.isHandler && a.placed && a.life != .exited

/-- A thread is of a lower effective priority than a queue. -/
def State.lowerThan (s : State) (p : RQueue) (a : Agent) : Bool :=
  (s.rqueue? a.loc.mod a.loc.die a.rid).any fun q => decide (q.prio < p.prio)

/-- A row that a saved gang may take: every member that waits may be on its core of it, and a member that is still placed stands on it. -/
def State.rowAllowed (s : State) (b : Agent) (row : Nat) : Bool :=
  (s.agents.filter fun c => b.gangMate c).all fun c =>
    if c.placed then c.loc.row == row
    else (s.region? c.loc.mod c.rid).any fun r => s.coreAllowed r c ⟨c.loc.mod, c.loc.die, 16 * row + c.loc.column⟩

/-- The row whose members become free soonest for a gang: of the rows that its members may take, with only threads of a lower priority on them where there
is such a row, the first with the fewest threads to pre-empt (R411; log entry 60). -/
def State.gangRow (s : State) (p : RQueue) (b : Agent) : Option Nat :=
  let rows := (List.range 8).filter (s.rowAllowed b)
  let open_ := rows.filter fun r => (s.rowHolders b r).all (s.lowerThan p)
  (if open_.isEmpty then rows else open_).foldl (fun x r => match x with
    | none => some r
    | some y => if (s.rowHolders b r).length < (s.rowHolders b y).length then some r else x) none

/-- The thread `a` holds a core of the row that a gang of a higher effective priority, which has waited a quantum at the head of its queue, would have
(R411). -/
def State.inGangsWay (s : State) (a : Agent) : Bool :=
  (s.openQueues a.loc.mod a.loc.die).any fun p => s.lowerThan p a &&
    (s.gangHead p).any fun b => b.columns.contains a.loc.column && some a.loc.row == s.gangRow p b
      && p.gang.any fun g => g.1 == b.uid && decide (g.2 + quantum ≤ s.meridian a.loc.mod)

/-- THREAD_QUANTUM: the thread `n` has held its context for a quantum while another thread of its queue waits, or a gang of a higher priority has waited
as long for its core; it is pre-empted, and with it its gang. -/
def execThreadQuantum (n : Nat) (s : State) : Host.Outcome State Fault Refusal :=
  match s.agent? n with
  | none => .next s
  | some a =>
    let s := s.settleQueues a.loc.mod a.loc.die
    let waits : Bool := match s.rqueue? a.loc.mod a.loc.die a.rid with
      | some q => !(s.queueThreads q).isEmpty
      | none => false
    if !a.isHandler && a.placed && a.life != .exited
        && ((waits && decide (a.started + quantum ≤ s.meridian a.loc.mod)) || s.inGangsWay a) then
      .next (s.preemptThread a)
    else .next s

/-- A queued thread without a named core, complete if it was saved, moves to the tail of its region's queue on another die (R407); a saved gang moves as a
whole, when every member of it waits so (spec/09 R250). -/
def State.migrate (s : State) (uid die : Nat) : State :=
  match s.agent? uid with
  | none => s
  | some a =>
    match s.region? a.loc.mod a.rid with
    | none => s
    | some r =>
      let mates := if 1 < a.columns.length then s.agents.filter fun b => a.gangMate b else [a]
      let free (b : Agent) : Bool := b.life == .queued && !b.isHandler && b.named.isNone && (!b.saved || b.complete)
      if mates.all free && free a && die < 8 && r.allows die then
        mates.foldl (fun s b =>
          let s := s.dequeue b.loc.mod b.loc.die b.rid b.uid
          ((s.updAgent b.uid fun b => { b with loc := ⟨b.loc.mod, die, b.loc.core⟩ }).enqueue b.loc.mod die b.rid b.uid).settleQueues b.loc.mod b.loc.die) s
      else s

/-! ### Budgets (R410) -/

/-- What the W9 writes of a control block: `USED`, and `STATE` with the live threads (R403). -/
def State.writeRcb (s : State) (r : Region) : State :=
  let live := (s.liveTids r.mod r.rid).length
  let s := s.writeBlock r 0x38 (natBytes 8 r.used)
  (s.writeBlock r 0x60 (natBytes 8 (live * 2 ^ 32 + if r.state = .bound then 1 else 2))).updRegion r.mod r.rid fun r => { r with liveOut := live }

/-- The W9 brings the control block of a bound region up to date (R403; log entry 33). -/
def State.showRegion (s : State) (m r : Nat) : State :=
  match s.region? m r with
  | none => s
  | some g => if g.state = .bound then s.writeRcb g else s

/-- The queues of a region, changed. -/
def State.mapQueues (s : State) (m r : Nat) (f : RQueue → RQueue) : State :=
  { s with rqueues := mapIf (fun q => q.mod == m && q.rid == r) f s.rqueues }

/-- Every die of a module with its queues as their work has them. -/
def State.settleAll (s : State) (m : Nat) : State := (List.range 8).foldl (fun s d => s.settleQueues m d) s

/-- TIME_BUDGET_SPENT: a region's core-ns of the period have reached `TBUDGET`: its queues give up their slots, and its threads are pre-empted. -/
def execTimeBudgetSpent (m r : Nat) (s : State) : Host.Outcome State Fault Refusal :=
  match s.region? m r with
  | none => .next s
  | some g =>
    if g.state == .bound && g.tperiod != 0 && decide (g.tbudget ≤ g.periodUsed) && !g.exhausted then
      let s := s.updRegion m r fun g => { g with exhausted := true }
      .next ((s.preemptWhere fun a => a.loc.mod == m && a.rid == r).settleAll m)
    else .next s

/-- TIME_PERIOD_BEGIN: a new period of a region's time budget begins, at a multiple of `TPERIOD` from its binding. -/
def execTimePeriodBegin (m r : Nat) (s : State) : Host.Outcome State Fault Refusal :=
  match s.region? m r with
  | none => .next s
  | some g =>
    if g.state == .bound && g.tperiod != 0 && decide (g.periodStart + g.tperiod ≤ s.meridian m) then
      let k := (s.meridian m - g.periodStart) / g.tperiod
      .next ((s.updRegion m r fun g =>
        { g with periodStart := g.periodStart + k * g.tperiod, periodUsed := 0, exhausted := false }).settleAll m)
    else .next s

/-- LIFETIME_BUDGET: a region's core-ns have reached `HARDNS`, and it ends, with the `tid` that was charged at that moment (R406). The event's agent is the
one whose charge it was. -/
def execLifetimeBudget (m r _n : Nat) (s : State) : Host.Outcome State Fault Refusal :=
  match s.region? m r with
  | none => .next s
  | some g =>
    if g.state == .bound && g.hardns != 0 && decide (g.hardns ≤ g.used) then
      .next (s.endRegion ⟨m, 0, 0⟩ r (.budget g.spentBy))
    else .next s

/-! ### The second stage of a save (spec/15 R385) -/

/-- CONTEXT_SAVE_STAGE2: the last running satellite of the saved thread `n` has ended: its slot records and the matrix areas are written, then the header with
`COMPLETE` after a release at scope 3. The thread's slice is free (spec/09 R238). -/
def execContextSaveStage2 (n : Nat) (s : State) : Host.Outcome State Fault Refusal :=
  match s.agent? n with
  | none => .next s
  | some a =>
    match s.region? a.loc.mod a.rid with
    | none => .next s
    | some r =>
      if a.saved && a.life == .queued && !a.complete && (s.ownSats n).all Sat.terminal then
        let tiles := match s.sliceOf n with
          | some l => matrixPieces l
          | none => []
        match s.savePieces r a.loc (imageBase r a.tid) ((0xB000, (s.slotRecords a).flatMap wordsBytes) :: tiles) with
        | (.error e, s) => .next (s.endRegion a.loc a.rid (.saveFault (BitVec.ofNat 64 e) a.tid))
        | (.ok (), s) =>
          match (s.release a.loc 3).savePieces r a.loc (imageBase r a.tid) [(0, wordsBytes [headerWord0 true a.tid])] with
          | (.error e, s) => .next (s.endRegion a.loc a.rid (.saveFault (BitVec.ofNat 64 e) a.tid))
          | (.ok (), s) => .next (((s.release a.loc 3).dropSlice n).updAgent n fun a => { a with complete := true })
      else .next s

/-- The drain limit of a region (R403). -/
def Region.drainLimit (r : Region) : Nat := if r.drainns = 0 then 1000000 else r.drainns

/-- DRAIN_LIMIT_EXPIRY: the satellites of the saved thread `n` that still run when the drain limit passes are cancelled. -/
def execDrainLimitExpiry (n : Nat) (s : State) : Host.Outcome State Fault Refusal :=
  match s.agent? n with
  | none => .next s
  | some a =>
    let limit := ((s.region? a.loc.mod a.rid).map Region.drainLimit).getD 1000000
    if a.saved && a.life == .queued && !a.complete && decide (a.saveTime + limit ≤ s.meridian a.loc.mod) then
      .next (((s.ownSats n).filter fun t => !t.terminal).foldl (fun s t => s.cancelSat t.sid) s)
    else .next s

/-! ### The move of a scratchpad (R388) -/

/-- The bytes of an allocation: each lane slice in order, then one doubleword for each line: reader count in [15:8], state in [1:0]. -/
def State.scratchBytes (s : State) (l : Loc) (rid lines : Nat) : List Byte :=
  let all := (List.range 64).flatMap fun j => (List.range lines).map fun m => s.sline l rid j m
  (all.flatMap fun a => natBytes 128 a.data.toNat) ++ all.flatMap fun a => natBytes 8 (a.count * 256 + a.st)

/-- The lines that a save block holds, on a core; poisoned ones stay so. -/
def scratchLines (l : Loc) (rid lines : Nat) (bad : Nat → Nat → Bool) (bs : List Byte) : List SLine :=
  (List.range 64).flatMap fun j => (List.range lines).map fun m =>
    let n := j * lines + m
    let w := wordAt bs (64 * lines * 128 + 8 * n)
    (⟨l, rid, j, m, lineOf ((bs.drop (128 * n)).take 128), bits w 0 2, bits w 8 8, bad j m, 0, 0⟩ : SLine)

/-- A satellite fills or reads the scratchpad of a core through a kind-1 key. -/
def Sat.reaches (t : Sat) (l : Loc) : Bool :=
  let names (k : Key) : Bool := kKind k == 1 && kVout k == l.mod && kDie k == l.die && kUnit k == l.core
  match t.task with
  | .copy (.window k _) _ _ _ _ => names k
  | .copy _ (.window k _) _ _ _ => names k
  | .coll _ _ _ cs => cs.cur.any fun c => stAction c != 2 && stLen c != 0 && names (stKey c 0)
  | _ => false

/-- SCRATCHPAD_MOVE: the scratchpad of region `r` on core `c` of die `d` moves to core `c2` of die `d2`, once every satellite of the region that fills or
reads it is terminal, on whichever core, and no thread or handler of it is there. The generation of the old core's name advances before the contents are read. -/
def execScratchpadMove (m r d c d2 c2 : Nat) (s : State) : Host.Outcome State Fault Refusal :=
  let l : Loc := ⟨m, d, c⟩
  let k : Loc := ⟨m, d2, c2⟩
  match s.region? m r with
  | none => .next s
  | some g =>
    let held := s.allocs.any fun a => a.loc == l && a.rid == r
    let idle := (s.sats.all fun t => t.rid != r || t.terminal || !(t.loc == l || t.reaches l))
      && s.agents.all fun a => a.loc != l || a.rid != r || !a.placed || a.life == .exited
    if g.state == .bound && held && idle && g.allows d2 && decide (d2 < 8) && decide (c2 < 128)
        && !(s.allocs.any fun a => a.loc == k && a.rid == r) && decide (s.laneUsed k + s.laneBytes l r ≤ 16384) then
      let n := s.laneBytes l r
      let s := { s with allocs := s.allocs.filter fun a => !(a.loc == l && a.rid == r) }
      let s := s.passScratch l
      match s.saveBytes g l g.spsave (s.scratchBytes l r (n / 128)) with
      | (.error e, s) => .next (s.endRegion l r (.saveFault (BitVec.ofNat 64 e) 0))
      | (.ok (), s) =>
        match (s.release l 3).loadBytes g k g.spsave (64 * n + n / 2 * 8) with
        | (.error e, s) => .next (s.endRegion l r (.saveFault (BitVec.ofNat 64 e) 0))
        | (.ok bs, s) =>
          let kept := s.slines.filter fun a => !(a.loc == l && a.rid == r)
          let new := (scratchLines k r (n / 128) (fun j i => (s.sline l r j i).bad) bs).filter fun a => !(a.st == 0 && a.data == 0 && !a.bad)
          let s := { s with slines := kept ++ new, allocs := s.allocs ++ [(⟨k, r, n⟩ : Alloc)] }
          .next (if (s.endpoint m d2 1 c2 0).owner.isNone then s.passScratch k else s)
    else .next s

end Sys2Proof.Machine
end

