-- ==== Sys2Proof/Machine/Bind.lean ====
section
/-! DEFINITION. Sys2Proof/Machine/Bind.lean: region control blocks (spec/16 R403, R404, R412, R472): binding, reload and end of regions, by `rgnbind`
(spec/15 R396) and by launch messages (spec/16 R414). -/

namespace Sys2Proof.Machine

/-! ### The control block (R403) -/

/-- A region as its block of 256 bytes has it. -/
def rcbRegion (mod : Nat) (bs : List Byte) (addr parent vif now : Nat) : Region :=
  let w (o : Nat) : Nat := wordAt bs o
  let f (o lo n : Nat) : Nat := bits (w o) lo n
  { mod := mod, rid := f 0 48 16, holder := f 0 32 16, parent := parent, vif := vif, rcb := addr,
    pclass := f 0 12 4, observe := bit (w 0) 11, launch := bit (w 0) 10, level := f 0 8 2, conf := bit (w 0) 7, mkey := 0, dkey := 0, fdroot := bit (w 0) 6,
    prio := f 0 0 3, ways := f 0x08 48 16, tlimit := f 0x08 32 16, cores := f 0x08 16 11, satslots := f 0x08 0 9,
    counted := f 0x10 32 32, hcycles := f 0x10 0 32, drainns := f 0x18 32 32, asid := f 0x18 16 16, dies := f 0x18 8 8, scratch := f 0x18 0 8,
    tperiod := w 0x20, tbudget := w 0x28, hardns := w 0x30, used := 0, save := w 0x40, spsave := w 0x48, cslist := w 0x50, frq := w 0x58,
    state := .bound, periodStart := now, periodUsed := 0, exhausted := false, spentBy := 0, liveOut := 0, frSeen := 0 }

/-- The dies of a region as bits. -/
def Region.dieMask (r : Region) : Nat := if r.dies = 0 then 255 else r.dies

/-- The bits of `a` are among those of `b`. -/
def subMask (a b : Nat) : Bool := a &&& b == a

/-- An amount of a child stays within what its parent has not granted to its other children. -/
def State.amountOk (s : State) (p c : Region) (f : Region → Nat) : Bool := decide (f c + s.grantedBy p c.rid f ≤ f p)

/-- The child's share of a period is not above its parent's. -/
def shareOk (p c : Region) : Bool := p.tperiod == 0 || (c.tperiod != 0 && decide (c.tbudget * p.tperiod ≤ p.tbudget * c.tperiod))

/-- `WAYS` of a child that the host binds, die by die against its interface's grant (R472). -/
def waysGranted (v : Vif) (c : Region) : Bool :=
  (List.range 8).all fun d => !c.dieMask.testBit d || subMask c.ways (v.ways.getD d 0)

/-- The rules of R404 and R415 for a child's block; for a launch of the host also those of R472. -/
def State.grantOk (s : State) (host : Bool) (p c : Region) : Bool :=
  let v := s.vifs.find? fun v => v.mod == p.mod && v.vif == p.vif
  decide (c.level ≤ p.level) && decide (c.prio ≤ p.prio) && (c.conf || !p.conf) && (p.observe || !c.observe) && (p.launch || !c.launch)
    && c.ways != 0 && subMask c.ways p.ways && (!host || v.all fun v => waysGranted v c)
    && subMask c.dieMask p.dieMask
    && s.amountOk p c Region.cores && s.amountOk p c Region.tlimit && s.amountOk p c Region.satslots && s.amountOk p c Region.counted
    && s.amountOk p c Region.scratch
    && (c.pclass == p.pclass || v.any fun v => v.classes.testBit c.pclass)
    && decide (c.cycleLimit ≤ p.cycleLimit) && decide (c.drainLimit ≤ p.drainLimit) && shareOk p c
    && v.any fun v => decide (v.asidBase ≤ c.asid) && decide (c.asid < v.asidBase + v.asidCount)

/-- The ids that a new region may have (R403, R472): neither reserved nor a root region's, and no bound region's of the module. -/
def State.idsOk (s : State) (c : Region) : Bool :=
  c.rid != 0 && c.rid != 0xFFFF && !isRootRid c.rid && c.holder != 0xFFFF && !isRootRid c.holder
    && (s.region? c.mod c.rid).all fun r => r.state == .ended

/-! ### The tree -/

/-- `rid` is a descendant of `anc`, up to `f` levels below. -/
def State.descends (s : State) (mod anc : Nat) : Nat → Nat → Bool
  | 0, _ => false
  | f + 1, rid =>
    match s.region? mod rid with
    | none => false
    | some r => r.parent != r.rid && (r.parent == anc || s.descends mod anc f r.parent)

/-- A live descendant of a region. -/
def State.isDescendant (s : State) (mod anc rid : Nat) : Bool :=
  ((s.region? mod rid).any fun r => r.state == .bound) && s.descends mod anc s.regions.length rid

/-- A live region or descendant of it. -/
def State.within (s : State) (mod anc rid : Nat) : Bool :=
  (anc == rid && (s.region? mod rid).any fun r => r.state == .bound) || s.isDescendant mod anc rid

/-! ### Binding -/

/-- A region as it is bound: with a memory key and, where it is confidential, a dump key of its own (spec/20 R458). -/
def Region.withKeys (r : Region) (n : Nat) : Region := { r with mkey := 2 * n + 1, dkey := if r.conf then 2 * n + 2 else 0 }

/-- A region joins the tree, with its keys: `PARENT`, `USED` and `STATE` of its block are written (R403). -/
def State.joinRegion (s : State) (p c : Region) : State :=
  let rest := s.regions.filter fun r => !(r.mod == c.mod && r.rid == c.rid)
  let c := c.withKeys s.fresh
  let s := { s with fresh := s.fresh + 1 }
  ({ s with regions := rest ++ [c] }.writeBlock c 2 (natBytes 2 p.rid)).writeRcb c

/-- Bind the block at an address as a child of `p`: the cause of a refusal, or the new region's id. -/
def State.bindChild (s : State) (host : Bool) (p : Region) (addr : Nat) (bs : List Byte) : Except Nat Nat × State :=
  let c := rcbRegion p.mod bs addr p.rid p.vif (s.meridian p.mod)
  if s.idsOk c && s.grantOk host p c then (.ok c.rid, s.joinRegion p c) else (.error 0x24, s)

/-! ### Reload (R404, R410, spec/05 R141) -/

/-- A region with the budgets of its block; what its binding fixed stays: its ids, level, address space, confidentiality and keys (log entry 20). -/
def Region.reloaded (r c : Region) : Region :=
  { c with holder := r.holder, parent := r.parent, vif := r.vif, rcb := r.rcb, level := r.level, conf := r.conf, mkey := r.mkey, dkey := r.dkey, asid := r.asid,
           used := r.used, state := r.state, periodStart := r.periodStart, periodUsed := r.periodUsed, exhausted := r.exhausted, spentBy := r.spentBy,
           liveOut := r.liveOut, frSeen := r.frSeen }

/-- A new period begins at a reload that changes the time budget (R410). -/
def Region.freshPeriod (r c : Region) (now : Nat) : Region :=
  if r.tperiod = c.tperiod ∧ r.tbudget = c.tbudget then c else { c with periodStart := now, periodUsed := 0, exhausted := false }

/-- The placed threads of a region, the latest placed first. -/
def State.latestPlaced (s : State) (mod rid : Nat) : Option Agent :=
  (s.agents.filter fun a => a.loc.mod == mod && a.rid == rid && a.placed && !a.isHandler && a.life != .exited && !a.preempt).foldl
    (fun b a => match b with
      | none => some a
      | some b => if b.started < a.started then some a else some b) none

/-- The cores that hold threads of a region that stay. -/
def State.coresKept (s : State) (mod rid : Nat) : Nat :=
  ((s.agents.filter fun a => a.loc.mod == mod && a.rid == rid && a.placed && !a.isHandler && a.life != .exited && !a.preempt).map
    Agent.loc).eraseDups.length

/-- The latest placed threads are pre-empted until the cores fit. -/
def State.fitCores : Nat → State → Region → State
  | 0, s, _ => s
  | f + 1, s, r =>
    if s.coresKept r.mod r.rid ≤ s.left r Region.cores then s
    else match s.latestPlaced r.mod r.rid with
      | none => s
      | some a => State.fitCores f (s.preemptThread a) r

/-- Counted lines that leave a region's ways or dies go to its save list (spec/05 R141); a fault ends the region (spec/15 R390). -/
def State.saveLeaving (s : State) (r : Region) : List Counted → State
  | [] => s
  | c :: t =>
    match s.saveCounted r ⟨r.mod, 0, 0⟩ c with
    | (.error a, s) => s.endRegion ⟨r.mod, 0, 0⟩ r.rid (.saveFault (BitVec.ofNat 64 a) 0)
    | (.ok (), s) => s.saveLeaving r t

/-- The counted lines of a region that a reload from `old` to `new` takes a way from, or a die (spec/05 R141). -/
def State.leavingLines (s : State) (old new : Region) : List Counted :=
  let gone (c : Counted) : Bool :=
    (old.ways.testBit c.way && !new.ways.testBit c.way) || (old.allows (s.homeDie c.line) && !new.allows (s.homeDie c.line))
  s.counted.filter fun c => c.ep == new.mod && c.rid == new.rid && gone c

/-- The threads of a region leave the dies that it may not use any more: placed ones are pre-empted, and queued ones enter the queue of another die (R407). -/
def State.leaveDies (s : State) (r : Region) : State :=
  let off (a : Agent) : Bool := a.loc.mod == r.mod && a.rid == r.rid && !a.isHandler && a.life != .exited && !r.allows a.loc.die
  let queued := (s.agents.filter fun a => off a && a.life == .queued).map Agent.uid
  queued.foldl (fun s u => s.migrate u r.lowDie) (s.preemptWhere off)

/-- Reload a region from its block: refused with 0x24 beyond what its parent can grant, the block's `LEVEL` and `CONF` checked with the rest, and then
nothing changes. Each of at most 7 × 1,024 placed threads may have to go. -/
def State.reloadRegion (s : State) (host : Bool) (r : Region) (bs : List Byte) : Except Nat Nat × State :=
  let b := rcbRegion r.mod bs r.rcb r.parent r.vif 0
  let c := r.reloaded b
  match s.region? r.mod r.parent with
  | none => (.error 0x24, s)
  | some p =>
    if !s.grantOk host p { c with level := b.level, conf := b.conf } then (.error 0x24, s)
    else
      let c := r.freshPeriod c (s.meridian r.mod)
      let s := s.updRegion r.mod r.rid fun _ => c
      let s := (s.saveLeaving c (s.leavingLines r c)).leaveDies c
      let s := (State.fitCores 8192 s c).settleAll r.mod
      (.ok r.rid, s.writeRcb c)

/-! ### `rgnbind` (spec/15 R396) -/

/-- A page-7 instruction that needs a level: 0x1D below it (R75 step 4, spec/15 R366). -/
def State.privileged (s : State) (ok : Bool) (k : Host.Outcome State Fault Refusal) : Host.Outcome State Fault Refusal :=
  if ok then k else .next (s.takeTrap (issueTrap 0x1D s.me.pc 0 0))

/-- A result of an operation that either refuses with a cause or has its effect. -/
def resOf (s : State) {α : Type} : Except Nat α × State → Res
  | (.error c, _) => s.fail c
  | (.ok _, t) => .ok t

/-- `rgnbind`: the operation is x[C] [1:0]. -/
def rgnbind (h : Hdr) (o : XBC) (s : State) : Host.Outcome State Fault Refusal :=
  s.privileged (s.me.level != 0) <| s.issue h { xr := [o.b, o.ext.c] } fun s =>
    let addr := (s.x o.b).toNat
    let op := (s.x o.ext.c).toNat
    if addr % 256 ≠ 0 then s.failAt 0x04 (s.x o.b)
    else if 3 ≤ op then s.fail 0x01
    else match s.vread s.mySpace addr 256 with
      | (.error c, t) => t.failSeen c.1 (BitVec.ofNat 64 c.2)
      | (.ok bs, s') =>
        let mod := s.me.loc.mod
        let rid := bits (wordAt bs 0) 48 16
        match s.myRegion with
        | none => s.fail 0x24
        | some p =>
          if op = 0 then resOf s (s'.bindChild false p addr bs)
          else if !s.isDescendant mod p.rid rid then s.fail 0x06
          else match s.region? mod rid with
            | none => s.fail 0x06
            | some r =>
              if op = 1 then resOf s (s'.reloadRegion false r bs)
              else .ok (s'.endRegion s.me.loc rid .asked)

/-- `rgnbind` of operation 0 as the table's row; the operand decides at run time (log entry 11). -/
def execRgnbindBind (h : Hdr) (o : XBC) (s : State) : Host.Outcome State Fault Refusal := rgnbind h o s
/-- `rgnbind` of operation 1. -/
def execRgnbindReload (h : Hdr) (o : XBC) (s : State) : Host.Outcome State Fault Refusal := rgnbind h o s
/-- `rgnbind` of operation 2. -/
def execRgnbindEnd (h : Hdr) (o : XBC) (s : State) : Host.Outcome State Fault Refusal := rgnbind h o s

/-! ### Launch messages (R414) -/

/-- The region in which a launch acts: the sender's, or for a host the root region of its interface. -/
def Launch.actor (q : Launch) : Nat := match q.host with | some v => 0xFF00 + v | none => q.rid

/-- A doubleword of a launch's payload. -/
def Launch.word (q : Launch) (i : Nat) : Nat := (q.words.getD i 0).toNat

/-- The operation. -/
def Launch.op (q : Launch) : Nat := bits (q.word 0) 0 8

/-- The target region. -/
def Launch.target (q : Launch) : Nat := bits (q.word 0) 16 16

/-- Bits that are zero in every launch. -/
def Launch.formed (q : Launch) : Bool :=
  bits (q.word 0) 8 8 == 0 && bits (q.word 0) 32 32 == 0 && bits (q.word 3) 15 49 == 0 && (q.words.drop 4).all (· == 0)

/-- The launch `n` is the first that waits from its source. -/
def State.firstLaunch (s : State) (n : Nat) (q : Launch) : Bool :=
  (s.launches.take n).all fun p => !(p.mod == q.mod && p.die == q.die && p.src == q.src && p.rid == q.rid && p.host == q.host)

/-- The one result of a launch: `UEPC` the operation doubleword, `UADDR` the cause of a refusal, `UINFO` the new `tid` or region id. It goes to the fault
domain of the sender on its own module, or to host queue 0 for the host. -/
def State.launchResult (s : State) (q : Launch) (ans : Except Nat Nat) : State :=
  let l : Loc := ⟨q.src, q.die, 0⟩
  let a := match ans with | .ok _ => 0 | .error c => c
  let v := match ans with | .ok v => v | .error _ => 0
  let r : Record := ⟨0, false, false, false, false, s.confidential q.src q.actor, 0, q.words.getD 0 0, BitVec.ofNat 64 a, BitVec.ofNat 64 v,
    s.meridian q.src, 0, 0, q.actor, l⟩
  match q.host with
  | some v => s.hostRecord q.src v 0 3 q.actor r.sent
  | none => s.recordAs 3 l q.actor r

/-- The launch `n` is performed, if its turn has come, by an operation that answers as R414 says. A launch without form is refused with 0x01, one of a
region without the launch right with 0x06, and so is one from another module, whose regions are no descendants of its sender (log entry 60). -/
def State.perform (s : State) (n : Nat) (own : Launch → Bool) (act : State → Launch → Region → Except Nat Nat × State) : State :=
  match s.launches[n]? with
  | none => s
  | some q =>
    if !own q || !s.firstLaunch n q then s
    else
      let s := { s with launches := s.launches.eraseIdx n }
      match s.region? q.src q.actor with
      | none => s.launchResult q (.error 0x06)
      | some p =>
        if q.src ≠ q.mod || p.state = .ended || !(p.launch || q.host.isSome) then s.launchResult q (.error 0x06)
        else if !q.formed then s.launchResult q (.error 0x01)
        else match act s q p with
          | (.error c, _) => s.launchResult q (.error c)
          | (.ok v, t) => t.launchResult q (.ok v)

/-- The block at the address that a launch names, in the space of the region in which it acts. -/
def State.launchBlock (s : State) (q : Launch) (p : Region) : Except Nat (List Byte) × State :=
  if q.word 1 % 256 ≠ 0 then (.error 0x04, s)
  else match s.vread { s.space ⟨q.mod, q.die, 0⟩ .core p.rid 1 with level := 1 } (q.word 1) 256 with
    | (.error _, s) => (.error 0x06, s)
    | (.ok bs, s) => (.ok bs, s)

/-- LAUNCH_BIND: the launch `n` binds a new child region, with the handler entries of its launch block and the keys that the Keywright mints for it; a launch of an unknown operation is refused. -/
def execLaunchBind (n : Nat) (s : State) : Host.Outcome State Fault Refusal :=
  .next (s.perform n (fun q => q.op == 0 || decide (4 ≤ q.op)) fun s q p =>
    if q.op ≠ 0 then (.error 0x01, s)
    else match s.launchBlock q p with
      | (.error c, s) => (.error c, s)
      | (.ok bs, s) =>
        match s.bindChild q.host.isSome p (q.word 1) bs with
        | (.error c, s) => (.error c, s)
        | (.ok rid, s) =>
          match s.mintAll q.mod (((s.region? q.mod rid).map Region.holder).getD 0) q.keys with
          | (.error c, s) => (.error c, s)
          | (.ok ks, s) =>
            let rest := s.plans.filter fun a => !(a.mod == q.mod && a.rid == rid)
            let plans := rest ++ [(⟨q.mod, rid, q.handlers, ks⟩ : Plan)]
            (.ok rid, { s with plans := plans }))

/-- The keys with which a launch creates a thread: those that the region's launch block grants, for a thread of that block (spec/03 R99), and else null
keys. -/
def State.plannedKeys (s : State) (q : Launch) (rid : Nat) : Vector Key 16 :=
  let ps := if q.ofBlock then s.plans.filter fun p => p.mod == q.mod && p.rid == rid else []
  (ps.flatMap Plan.keys).foldl (fun k e => k.setIfInBounds e.1 e.2) (Vector.replicate 16 nullKey)

/-- Some entry that the launch block of a region sets is another region's on a named core (spec/03 R98). -/
def State.planRefused (s : State) (mod rid : Nat) (l : Loc) : Bool :=
  ((s.plans.filter fun p => p.mod == mod && p.rid == rid).flatMap Plan.handlers).any fun h => (s.hentry l h.1).any fun e => e.rid != rid

/-- LAUNCH_CREATE_THREAD: the launch `n` creates a thread in its target region. -/
def execLaunchCreateThread (n : Nat) (s : State) : Host.Outcome State Fault Refusal :=
  .next (s.perform n (fun q => q.op == 1) fun s q p =>
    match s.region? q.mod q.target with
    | none => (.error 0x06, s)
    | some r =>
      let cls := bits (q.word 3) 0 3
      let die := bits (q.word 3) 3 4
      let core := bits (q.word 3) 7 7
      let any := bit (q.word 3) 14
      if !s.within q.mod p.rid r.rid then (.error 0x06, s)
      else if 5 < cls || (!any && 8 ≤ die) then (.error 0x01, s)
      else if bit (q.word 1) 0 then (.error 0x04, s)
      else if !any && !r.allows die then (.error 0x24, s)
      else if q.ofBlock && !any && s.planRefused q.mod r.rid ⟨q.mod, die, core⟩ then (.error 0x06, s)
      else match s.freeTid r with
        | none => (.error 0x24, s)
        | some tid =>
          let d := if any then r.lowDie else die
          let a := freshAgent s.nextUid r.rid tid r.level cls ⟨q.mod, d, 0⟩ (q.words.getD 1 0) (q.words.getD 2 0) 0
            (if any then none else some (die * 128 + core)) (s.plannedKeys q r.rid) 4
          (.ok tid, s.takeUid.enlist { a with launched := q.ofBlock } d))

/-- LAUNCH_END_REGION: the launch `n` ends its target region. -/
def execLaunchEndRegion (n : Nat) (s : State) : Host.Outcome State Fault Refusal :=
  .next (s.perform n (fun q => q.op == 2) fun s q p =>
    if s.isDescendant q.mod p.rid q.target then (.ok q.target, s.endRegion ⟨q.mod, q.die, 0⟩ q.target .asked) else (.error 0x06, s))

/-- LAUNCH_RELOAD: the launch `n` reloads its target region's budgets. -/
def execLaunchReload (n : Nat) (s : State) : Host.Outcome State Fault Refusal :=
  .next (s.perform n (fun q => q.op == 3) fun s q p =>
    match s.launchBlock q p with
    | (.error c, s) => (.error c, s)
    | (.ok bs, s) =>
      if bits (wordAt bs 0) 48 16 ≠ q.target || !s.isDescendant q.mod p.rid q.target then (.error 0x06, s)
      else match s.region? q.mod q.target with
        | none => (.error 0x06, s)
        | some r => s.reloadRegion q.host.isSome r bs)

end Sys2Proof.Machine
end

