-- ==== Sys2Proof/Machine/Fetch.lean ====
section
/-! DEFINITION. Sys2Proof/Machine/Fetch.lean: fetching a chain through the core's instruction cache (spec/03 R91 to R93) and the
checks of R75 in their order, up to the instruction. -/

namespace Sys2Proof.Machine

/-- The line of a core's instruction cache that an address space fetched. -/
def State.code? (s : State) (sp : Space) (line : Nat) : Option CodeLine :=
  s.icache.find? fun c => c.loc == sp.loc && c.vif == sp.vif && c.asid == sp.asid && c.ep == sp.loc.mod && c.line == line

/-- A line put into a core's instruction cache, of 512 lines (spec/01 R17): in a full one the line held longest gives way (log entry 6). -/
def State.keepCode (s : State) (c : CodeLine) : State :=
  let mine := s.icache.filter fun a => a.loc == c.loc
  let keep := if mine.length < 512 then s.icache else (s.icache.reverse.eraseIdx (s.icache.reverse.findIdx fun a => a.loc == c.loc)).reverse
  { s with icache := c :: keep }

/-- A halfword at a virtual address, through the instruction cache: what the cache holds is used as it stands (R93), and a miss reads
the line as an agent of the die does. -/
def State.fetchHalf (s : State) (va : Word) : Except Nat Half × State :=
  match s.translate s.codeSpace va.toNat .fetch with
  | (.error c, s) => (.error c, s)
  | (.ok (pa, v), s) =>
    let line := pa / 128
    match s.code? s.codeSpace line with
    | some c => (.ok (BitVec.ofNat 16 (getField c.data (8 * (pa % 128)) 16)), s)
    | none =>
      if s.readBad v pa then (.error 0x22, s.foundError s.me.loc (s.poisonUnit s.me.loc.mod line) pa) else
      let r := s.readLine v (line * 128) 128
      let d := lineOf r.1
      let s := r.2.keepCode ⟨s.me.loc, s.codeSpace.vif, s.codeSpace.asid, s.me.loc.mod, line, d⟩
      (.ok (BitVec.ofNat 16 (getField d (8 * (pa % 128)) 16)), s)

/-- The halfwords of the chain at an address, up to its base word or a fifth prefix (R75 steps 1 and 2), or the cause and the address
of the first halfword that cannot be fetched. -/
def State.fetchChain : Nat → State → Word → List Half → Except (Nat × Word) (List Half) × State
  | 0, s, _, acc => (.ok acc, s)
  | n + 1, s, va, acc =>
    match s.fetchHalf va with
    | (.error c, s) => (.error (c, va), s)
    | (.ok w, s) => if w.isPfx then State.fetchChain n s (va + 2) (acc ++ [w]) else (.ok (acc ++ [w]), s)

/-- Firmware of the Keywright of a fabric die (spec/15 R366, R391). -/
def Agent.onFabric (a : Agent) : Bool := a.level == 2 && (a.loc.die == 8 || a.loc.die == 9)

/-- Step 4 of R75: an instruction below its level (R85, R371, R391). -/
def Agent.lacksLevel (a : Agent) (c : Chain) : Bool :=
  c.page == 7 &&
    match c.op.toNat with
    | 0 => a.level == 0 && !a.uta
    | 4 => false
    | 14 => false
    | 5 => a.level == 0 && decide (3 ≤ (extSel c.extOpt).toNat) && decide ((extSel c.extOpt).toNat ≤ 5)
    | 11 => !a.onFabric
    | 12 => !a.onFabric
    | _ => a.level == 0

/-- What the front end gives for the agent whose turn it is. -/
inductive Fetched where
  | trap (t : Trap) (s : State)
  | instr (i : Instr) (s : State)

/-- The instruction that a list of halfwords holds for an agent, or the cause of R75 steps 2 to 6. -/
def Agent.decode (a : Agent) (hs : List Half) : Except Nat Instr :=
  match parseChain hs with
  | .error r => .error r.cause
  | .ok c =>
    match chainEntry c with
    | .error r => .error r.cause
    | .ok e =>
      if a.lacksLevel c then .error 0x1D
      else match entryDecode e c with
        | .error r => .error r.cause
        | .ok i => .ok i

/-- Fetch and decode at the program counter (R75 steps 1 to 6). The halfwords stay in the latch `ir` for the dispatch queue (spec/02
R39). -/
def State.fetch (s : State) : Fetched :=
  match State.fetchChain 5 s s.me.pc [] with
  | (.error (c, va), s) => .trap (issueTrap c s.me.pc va 0) s
  | (.ok hs, s) =>
    match s.me.decode hs with
    | .error c => .trap (issueTrap c s.me.pc 0 0) s
    | .ok i => .instr i (s.upd fun a => { a with ir := hs })

end Sys2Proof.Machine
end

