-- ==== Sys2Proof/Machine/FpScalar.lean ====
section
/-! DEFINITION. Sys2Proof/Machine/FpScalar.lean: scalar floating point (spec/06 R178 to R181). -/

namespace Sys2Proof.Machine

/-- An FRR operation of one result at issue (R179): `f` of the format, the rounding mode, `SP`, x[A], a and b as patterns. -/
def frr (useA : Bool) (f : Fmt → Nat → Bool → Nat → Nat → Nat → FpRes) (h : Hdr) (o : FRR) (s : State) : Host.Outcome State Fault Refusal :=
  let a := firstReg o.ext o.a
  s.issue h { xr := [a, o.b] ++ (if useA then [o.a] else []), xw := [o.a] } fun s =>
    let w := extSel o.ext
    let r := f (fpFmt w) (effRm s.me.fprm) s.me.fpsp (fpBits w (s.x o.a)) (fpBits w (s.x a)) (fpBits w (s.x o.b))
    s.fpDone r.flags fun s => s.setX o.a (BitVec.ofNat 64 r.bits)

def execFadd (h : Hdr) (o : FRR) (s : State) := frr false (fun t rm sp _ a b => t.addV rm sp (t.val a) (t.val b)) h o s
def execFsub (h : Hdr) (o : FRR) (s : State) := frr false (fun t rm sp _ a b => t.addV rm sp (t.val a) (t.val b).neg) h o s
def execFmul (h : Hdr) (o : FRR) (s : State) := frr false (fun t rm sp _ a b => t.mulV rm sp (t.val a) (t.val b)) h o s
def execFmadd (h : Hdr) (o : FRR) (s : State) := frr true (fun t rm sp c a b => t.fmaV rm sp (t.val c) (t.val a) (t.val b)) h o s

/-- `fcmp` (R179): −1, 0, 1, or 2 for unordered, as a 64-bit integer; NV only for a signalling NaN. -/
def execFcmp (h : Hdr) (o : FRR) (s : State) : Host.Outcome State Fault Refusal :=
  frr false (fun t _ _ _ x y =>
    let a := t.val x
    let b := t.val y
    ⟨umod 64 (if a.isNan || b.isNan then 2 else cmpVal a b), nvOf [a, b]⟩) h o s

/-- `fdiv` (R179, R180): long-latency; its flags are decided with its result. -/
def execFdiv (h : Hdr) (o : FRR) (s : State) : Host.Outcome State Fault Refusal :=
  let a := firstReg o.ext o.a
  s.issue h { xr := [a, o.b], xw := [o.a] } fun s =>
    let w := extSel o.ext
    let t := fpFmt w
    s.fpLater o.a (t.divV (effRm s.me.fprm) s.me.fpsp (t.val (fpBits w (s.x a))) (t.val (fpBits w (s.x o.b))))

/-- `fsqrt` (R179, R180): long-latency. -/
def execFsqrt (h : Hdr) (o : FRU) (s : State) : Host.Outcome State Fault Refusal :=
  s.issue h { xr := [o.b], xw := [o.a] } fun s =>
    let w := extSel o.ext
    let t := fpFmt w
    s.fpLater o.a (t.sqrtV (effRm s.me.fprm) s.me.fpsp (t.val (fpBits w (s.x o.b))))

/-- `fcvt` (R181, R117, R118): an integer result is sign-extended to 64 bits, another is written with zeros above it. -/
def execFcvt (h : Hdr) (o : CVT) (s : State) : Host.Outcome State Fault Refusal :=
  s.issue h { xr := [o.b], xw := [o.a] } fun s =>
    let r := convert o.src.toNat o.dst.toNat (effRm s.me.fprm) s.me.fpsp ((s.x o.b).toNat % 2 ^ codeBits o.src.toNat)
    s.fpDone r.flags fun s =>
      s.setX o.a (if codeInt o.dst.toNat then sext (codeBits o.dst.toNat) r.bits else BitVec.ofNat 64 r.bits)

end Sys2Proof.Machine
end

