-- ==== Sys2Proof/Machine/IntAlu.lean ====
section
/-! DEFINITION. Sys2Proof/Machine/IntAlu.lean: integer instructions of pages 0 and 1 (spec/06 R161 to R167). -/

namespace Sys2Proof.Machine

/-- What an RRI instruction reads and writes (R161). -/
def needsRRI (o : RRI) : Needs := { xr := firstReg o.ext o.a :: RegImm.regs o.t, xw := [o.a] }

/-- An RRI instruction: x[A] := f(a, b) (R161). -/
def rri (f : Word → Word → Word) (h : Hdr) (o : RRI) (s : State) : Host.Outcome State Fault Refusal :=
  s.issue h (needsRRI o) fun s => .ok (s.setX o.a (f (s.x (firstReg o.ext o.a)) (s.val o.t)))

/-- A shift or rotate: the amount is b [5:0], and an immediate outside 0 to 63 raises cause 0x01 (R163). -/
def rriShift (f : Word → Nat → Word) (h : Hdr) (o : RRI) (s : State) : Host.Outcome State Fault Refusal :=
  s.issue h (needsRRI o) fun s =>
    if o.t.within 0 63 then .ok (s.setX o.a (f (s.x (firstReg o.ext o.a)) ((s.val o.t).toNat % 64))) else s.fail 0x01

/-- A division: a divisor of 0 raises cause 0x16 at issue, and the result is long-latency (R164). -/
def rriDiv (f : Word → Word → Word) (h : Hdr) (o : RRI) (s : State) : Host.Outcome State Fault Refusal :=
  s.issue h (needsRRI o) fun s =>
    if s.val o.t = 0 then s.fail 0x16
    else .ok (s.postX o.a (Inflight.known ((f (s.x (firstReg o.ext o.a)) (s.val o.t)).setWidth 256)))

/-- A bit gather or scatter (R165): from bit `k` of the mask, with `j` the next dense bit, over `n` bits. -/
def bextFrom (a b : Nat) : Nat → Nat → Nat → Nat
  | 0, _, _ => 0
  | n + 1, k, j =>
    if b.testBit k then (if a.testBit k then 2 ^ j else 0) + bextFrom a b n (k + 1) (j + 1) else bextFrom a b n (k + 1) j

/-- The scatter of R165. -/
def bdepFrom (a b : Nat) : Nat → Nat → Nat → Nat
  | 0, _, _ => 0
  | n + 1, k, j =>
    if b.testBit k then (if a.testBit j then 2 ^ k else 0) + bdepFrom a b n (k + 1) (j + 1) else bdepFrom a b n (k + 1) j

/-- The number of set bits among the `n` low bits. -/
def popNat (a : Nat) : Nat → Nat
  | 0 => 0
  | n + 1 => popNat a n + bnat (a.testBit n)

/-- Zero bits below the lowest set bit, at most `n`. -/
def ctzNat (a : Nat) : Nat → Nat
  | 0 => 0
  | n + 1 => if a.testBit 0 then 0 else 1 + ctzNat (a / 2) n

/-- Zero bits above the highest set bit of a 64-bit value. -/
def clzWord (a : Word) : Nat := if a = 0 then 64 else 63 - a.toNat.log2

/-- The lesser or greater, signed or unsigned. -/
def pick (le : Bool) (a b : Word) : Word := if le then a else b

def execAdd (h : Hdr) (o : RRI) (s : State) := rri (fun a b => a + b) h o s
def execSub (h : Hdr) (o : RRI) (s : State) := rri (fun a b => a - b) h o s
def execAnd (h : Hdr) (o : RRI) (s : State) := rri (fun a b => a &&& b) h o s
def execOr (h : Hdr) (o : RRI) (s : State) := rri (fun a b => a ||| b) h o s
def execXor (h : Hdr) (o : RRI) (s : State) := rri (fun a b => a ^^^ b) h o s
def execSll (h : Hdr) (o : RRI) (s : State) := rriShift (fun a n => a <<< n) h o s
def execSrl (h : Hdr) (o : RRI) (s : State) := rriShift (fun a n => a >>> n) h o s
def execSra (h : Hdr) (o : RRI) (s : State) := rriShift (fun a n => a.sshiftRight n) h o s
def execSlt (h : Hdr) (o : RRI) (s : State) := rri (fun a b => if a.slt b then 1 else 0) h o s
def execSltu (h : Hdr) (o : RRI) (s : State) := rri (fun a b => if a.ult b then 1 else 0) h o s
def execMul (h : Hdr) (o : RRI) (s : State) := rri (fun a b => a * b) h o s
/-- Bits [127:64] of the signed product (R162). -/
def execMulh (h : Hdr) (o : RRI) (s : State) := rri (fun a b => BitVec.ofInt 64 ((a.toInt * b.toInt) / (2 : Int) ^ 64)) h o s
/-- Bits [127:64] of the unsigned product (R162). -/
def execMulhu (h : Hdr) (o : RRI) (s : State) := rri (fun a b => BitVec.ofNat 64 (a.toNat * b.toNat / 2 ^ 64)) h o s
def execDiv (h : Hdr) (o : RRI) (s : State) := rriDiv (fun a b => a.sdiv b) h o s
def execDivu (h : Hdr) (o : RRI) (s : State) := rriDiv (fun a b => a.udiv b) h o s
def execRem (h : Hdr) (o : RRI) (s : State) := rriDiv (fun a b => a.srem b) h o s
def execRemu (h : Hdr) (o : RRI) (s : State) := rriDiv (fun a b => a.umod b) h o s
def execRotl (h : Hdr) (o : RRI) (s : State) := rriShift (fun a n => a.rotateLeft n) h o s
def execBext (h : Hdr) (o : RRI) (s : State) := rri (fun a b => BitVec.ofNat 64 (bextFrom a.toNat b.toNat 64 0 0)) h o s
def execBdep (h : Hdr) (o : RRI) (s : State) := rri (fun a b => BitVec.ofNat 64 (bdepFrom a.toNat b.toNat 64 0 0)) h o s
def execMin (h : Hdr) (o : RRI) (s : State) := rri (fun a b => pick (a.sle b) a b) h o s
def execMax (h : Hdr) (o : RRI) (s : State) := rri (fun a b => pick (b.sle a) a b) h o s
def execMinu (h : Hdr) (o : RRI) (s : State) := rri (fun a b => pick (a.ule b) a b) h o s
def execMaxu (h : Hdr) (o : RRI) (s : State) := rri (fun a b => pick (b.ule a) a b) h o s

/-- An RU instruction: x[A] := f(x[B]) (R166). -/
def ru (f : Word → Nat) (h : Hdr) (o : RU) (s : State) : Host.Outcome State Fault Refusal :=
  s.issue h { xr := [o.b], xw := [o.a] } fun s => .ok (s.setX o.a (BitVec.ofNat 64 (f (s.x o.b))))

def execClz (h : Hdr) (o : RU) (s : State) := ru clzWord h o s
def execCtz (h : Hdr) (o : RU) (s : State) := ru (fun a => ctzNat a.toNat 64) h o s
def execPopc (h : Hdr) (o : RU) (s : State) := ru (fun a => popNat a.toNat 64) h o s

/-- `li` (R167). -/
def execLi (h : Hdr) (o : LI) (s : State) : Host.Outcome State Fault Refusal :=
  s.issue h { xw := [o.a] } fun s => .ok (s.setX o.a o.i.word)

/-- `lhi`: the upper half of xA from i; i is a 32-bit number, or cause 0x01 (R167). -/
def execLhi (h : Hdr) (o : LI) (s : State) : Host.Outcome State Fault Refusal :=
  s.issue h { xr := [o.a], xw := [o.a] } fun s =>
    if -(2 : Int) ^ 31 ≤ o.i.int ∧ o.i.int < (2 : Int) ^ 31 then
      .ok (s.setX o.a ((o.i.word <<< 32) + (s.x o.a &&& 0xFFFFFFFF)))
    else s.fail 0x01

/-- `addq` (R167). -/
def execAddq (h : Hdr) (o : LI) (s : State) : Host.Outcome State Fault Refusal :=
  s.issue h { xr := [o.a], xw := [o.a] } fun s => .ok (s.setX o.a (s.x o.a + o.i.word))

/-- `la`: the chain address plus i bytes (R73, R167). -/
def execLa (h : Hdr) (o : LI) (s : State) : Host.Outcome State Fault Refusal :=
  s.issue h { xw := [o.a] } fun s => .ok (s.setX o.a (s.me.pc + o.i.word))

end Sys2Proof.Machine
end

