-- ==== Sys2Proof/Machine/TraceUnit.lean ====
section
/-! DEFINITION. Sys2Proof/Machine/TraceUnit.lean: how a die's trace unit writes its records to memory, samples, and captures around power events (spec/19
R448 to R456, spec/17 R425). -/

namespace Sys2Proof.Machine

/-! ### Writing records (R449) -/

/-- The space in which the trace unit writes a buffer: that of the region that issued `trcctl` (spec/17 R425). -/
def State.traceSpace (s : State) (b : TraceBuf) : Space := { s.space ⟨b.mod, b.die, 0⟩ .trace b.issuer 1 with level := 1 }

/-- A field of a buffer's descriptor. -/
def TraceBuf.field (b : TraceBuf) (o : Nat) : Nat := (b.words.getD (o / 8) 0).toNat

/-- The GAP record that stands before the first record after a loss (R449, R451): it is timed as that record. -/
def TraceBuf.gapRecord (b : TraceBuf) (r : TraceRec) : List Word :=
  [BitVec.ofNat 64 (9 * 2 ^ 56 + (r.words.getD 0 0).toNat % 2 ^ 56), BitVec.ofNat 64 b.gapped, BitVec.ofNat 64 b.gapFrom, BitVec.ofNat 64 b.gapTo]

/-- 32 bytes at the next place of a buffer; false if its page faults. -/
def State.traceStore (s : State) (b : TraceBuf) (ws : List Word) : Bool × State :=
  match s.vwrite (s.traceSpace b) .none (b.field 0 + b.wrptr % max 1 (b.field 8)) (wordsBytes ws) with
  | (.error _, s) => (false, s)
  | (.ok (), s) => (true, s.updTbuf b.mod b.die b.rid fun b => { b with wrptr := b.wrptr + 32 })

/-- One queued record is written, after a GAP record where records were lost before it; it is dropped under `MODE` 1 in a full buffer, and where its page
faults. -/
def State.traceOut (s : State) (r : TraceRec) : State :=
  match s.tbuf? r.mod r.die r.rid with
  | none => s
  | some b =>
    let rd := match (s.vword (s.traceSpace b) (b.desc + 0x30)).1 with | .ok w => w.toNat | .error _ => 0
    let n := if b.gapped = 0 then 32 else 64
    if bit (b.field 0x20) 32 && decide (b.field 8 < b.wrptr + n - rd) then s.updTbuf r.mod r.die r.rid fun b => b.drop r.made
    else
      let g := if b.gapped = 0 then (true, s) else s.traceStore b (b.gapRecord r)
      let s := g.2
      let s := if g.1 then s.updTbuf r.mod r.die r.rid fun b => { b with gapped := 0 } else s
      let w := if g.1 then s.traceStore ((s.tbuf? r.mod r.die r.rid).getD b) r.words else (false, s)
      if w.1 then w.2 else w.2.updTbuf r.mod r.die r.rid fun b => b.drop r.made

/-- `WRPTR` and `LOST` of a buffer's descriptor. -/
def State.tracePointers (s : State) (b : TraceBuf) : State :=
  let s := (s.vwrite (s.traceSpace b) .none (b.desc + 0x10) (natBytes 8 b.wrptr)).2
  (s.vwrite (s.traceSpace b) .none (b.desc + 0x18) (natBytes 8 b.lost)).2

/-- The queued records of a die that satisfy a test are written, a release at scope 3 follows, then the pointers of their buffers. -/
def State.traceFlush (s : State) (m d : Nat) (p : TraceRec → Bool) : State :=
  let mine (r : TraceRec) : Bool := r.mod == m && r.die == d && p r
  let out := s.tqueue.filter mine
  let s := { s with tqueue := s.tqueue.filter fun r => !mine r }
  let s := (out.foldl State.traceOut s).release ⟨m, d, 0⟩ 3
  (s.tbufs.filter fun b => b.mod == m && b.die == d && out.any fun r => r.rid == b.rid).foldl State.tracePointers s

/-- TRACE_FLUSH: the trace unit of die `d` writes what it has queued. -/
def execTraceFlush (m d : Nat) (s : State) : Host.Outcome State Fault Refusal :=
  .next (if s.tqueue.any fun r => r.mod == m && r.die == d then s.traceFlush m d fun _ => true else s)

/-! ### Samples (R452) -/

/-- The element group that a cluster is working on in its current entry, 0 when it is idle: that of the first element of a remote load under way that has
still to come; other entries are one step of the model (log entry 39). -/
def Agent.groupNow (a : Agent) (g : Nat) : Nat :=
  match a.queue.find? fun e => e.seq == a.done.getD g 0 with
  | none => 0
  | some e => match e.lanes.find? fun l => a.homeCluster l.i == g && l.sent && l.val.isNone && l.cause == 0 with
    | none => 0
    | some l => l.i / (16 * max 1 a.done.length) % 16

/-- The element pointers of an agent: the low 12 bits of done(k) of each granted cluster, and the element group it is working on. -/
def elementPointers (a : Agent) : Word :=
  BitVec.ofNat 64 ((List.range 4).foldl (fun w k =>
    match a.clusters.findIdx? fun c => c == k with
    | none => w
    | some g => w + (a.done.getD g 0 % 4096 * 16 + a.groupNow g) * 2 ^ (16 * k)) 0)

/-- The thread state of a SAMPLE record. -/
def Agent.sampleState (a : Agent) : Nat :=
  match a.life with
  | .parked _ => 1
  | .queued => 2
  | _ => 0

/-- A SAMPLE record of an agent. -/
def State.sample (s : State) (a : Agent) : State :=
  s.trace a.loc a.ctx a.rid 2 (s.meridian a.loc.mod) a.pc (elementPointers a)
    (BitVec.ofNat 64 (a.tidWord.toNat * 2 ^ 32 + a.cmask.toNat * 2 ^ 28 + a.sampleState))

/-- TRACE_SAMPLE: each context of die `d` that holds a thread of region `r` writes one SAMPLE, where its control word selects them. -/
def execTraceSample (m d r : Nat) (s : State) : Host.Outcome State Fault Refusal :=
  .next ((s.agents.filter fun a => a.loc.mod == m && a.loc.die == d && a.rid == r && a.placed && !a.isHandler && a.life != .exited).foldl State.sample s)

/-! ### Power events (R455, R456) -/

/-- The energy of a region on a die since binding, in µJ. -/
def State.dieEnergy (s : State) (m d r : Nat) : Nat :=
  ((s.cores.filter fun c => c.loc.mod == m && c.loc.die == d).map fun c => ((c.energy.find? fun e => e.1 == r).map Prod.snd).getD 0).sum / 1000

/-- The records that a capture kept for a buffer are written (R456). -/
def State.captureOut (s : State) (b : TraceBuf) : State :=
  let mine (r : TraceRec) : Bool := r.mod == b.mod && r.die == b.die && r.rid == b.rid
  let kept := s.tcapture.filter mine
  let s := { s with tcapture := s.tcapture.filter fun r => !mine r }
  kept.foldl (fun s r => s.traceWrite ⟨r.mod, r.die, bits (r.words.getD 0 0).toNat 41 7⟩ r.rid r.time r.made (r.words.getD 0 0).toNat (r.words.getD 1 0)
    (r.words.getD 2 0) (r.words.getD 3 0)) s

/-- The places at which an event has a POWER record for a region: each context that held a thread of it then, as in the example of spec/19, and otherwise
the event's core with context 0 (DEDUCED, log entry 22). -/
def PowerEv.places (e : PowerEv) (rid : Nat) : List PowerAt :=
  match e.held.filter fun q => q.rid == rid with
  | [] => [⟨rid, e.core, 0, e.old, e.new⟩]
  | l => l

/-- The POWER records of an event in one buffer, after what its capture kept. -/
def State.powerRecord (s : State) (e : PowerEv) (temp watts : Nat) (b : TraceBuf) : State :=
  let s := if (e.ev == 1 || e.ev == 3) && bit b.ctl 1 && !bit b.ctl 2 then s.captureOut b else s
  (e.places b.rid).foldl (fun s q => s.trace ⟨b.mod, b.die, q.core⟩ q.ctx b.rid 7 e.at_
    (BitVec.ofNat 64 (temp % 2 ^ 16 * 2 ^ 48 + watts % 2 ^ 16 * 2 ^ 32 + q.new % 16 * 2 ^ 12 + q.old % 16 * 2 ^ 8 + e.ev))
    (BitVec.ofNat 64 e.at_) (BitVec.ofNat 64 (s.dieEnergy b.mod b.die b.rid))) s

/-- POWER_EVENT: the oldest power or thermal event of die `d` writes its POWER records, with the temperature and the power that the die measured; one of type 1 or
3 opens a capture of 50 µs. -/
def execPowerEvent (m d temp watts : Nat) (s : State) : Host.Outcome State Fault Refusal :=
  match (s.die m d).power with
  | [] => .next s
  | e :: t =>
    let s := s.updDie m d fun x => { x with power := t }
    let s := (s.tbufs.filter fun b => b.mod == m && b.die == d).foldl (fun s b => s.powerRecord e temp watts b) s
    .next (if e.ev = 1 ∨ e.ev = 3 then s.updDie m d fun x => { x with captureEnd := some (e.at_ + 50000) } else s)

/-- CAPTURE_END: 50 µs after the last event the unit of die `d` stops writing every record. -/
def execCaptureEnd (m d : Nat) (s : State) : Host.Outcome State Fault Refusal :=
  match (s.die m d).captureEnd with
  | none => .next s
  | some t => .next (if t ≤ s.meridian m then s.updDie m d fun x => { x with captureEnd := none } else s)

/-- Energy of a core charged to an id; 0xFFFF, which no region has, stands for energy that is left uncharged. -/
def State.charge (s : State) (l : Loc) (r nj : Nat) : State :=
  s.updCore l fun x =>
    { x with energy := upsert (fun e => e.1 == r) (r, (((x.energy.find? fun e => e.1 == r).map Prod.snd).getD 0 + nj) % 2 ^ 64) x.energy }

/-- A live region holds a context, a matrix slice or an engine of a core, and so the clusters of its threads (R443). -/
def State.holdsUnit (s : State) (l : Loc) (r : Nat) : Bool :=
  ((s.region? l.mod r).any fun g => g.state == .bound)
    && ((s.agents.any fun a => a.loc == l && a.rid == r && a.placed && a.life != .exited) || (s.slices.any fun q => q.loc == l && q.rid == r)
      || s.sats.any fun t => t.loc == l && t.rid == r && !t.terminal)

/-- The energy of a die's L2, RDC and router divided in proportion to the accesses of the live regions; what does not divide, and all of it where nothing
was accessed, is left uncharged. It is kept under core number 128, which no core has, since the spec charges it to no core (DEDUCED, log entry 46). -/
def State.chargeShared (s : State) (m d nj : Nat) : State :=
  let here (a : AccessCount) : Bool := a.mod == m && a.die == d
  let mine := s.accs.filter fun a => here a && (s.region? m a.rid).any fun g => g.state == .bound
  let total := (mine.map AccessCount.n).sum
  let share (a : AccessCount) : Nat := nj * a.n / max 1 total
  let s := mine.foldl (fun s a => s.charge ⟨m, d, 128⟩ a.rid (share a)) s
  { (s.charge ⟨m, d, 128⟩ 0xFFFF (nj - (mine.map share).sum)) with accs := s.accs.filter fun a => !here a }

/-- ENERGY_METER: core `c` charges the energy that its units took in a microsecond to the region `r` that held them, and leaves idle energy uncharged; for
`c` from 128 on the energy is that of the die's L2, RDC and router (R443). -/
def execEnergyMeter (m d c r nj : Nat) (s : State) : Host.Outcome State Fault Refusal :=
  if 128 ≤ c then .next (s.chargeShared m d nj) else .next (s.charge ⟨m, d, c⟩ (if s.holdsUnit ⟨m, d, c⟩ r then r else 0xFFFF) nj)

/-! ### Binding a buffer (spec/15 R398, R448) -/

/-- The descriptor of `trcctl` is well formed. -/
def descriptorOk (ws : List Word) (ctl : Nat) : Bool :=
  let w (i : Nat) : Nat := (ws.getD i 0).toNat
  let size := w 1
  w 7 == 0 && bits (w 4) 43 5 == 0 && bits (w 4) 33 7 == 0 && bits (w 4) 0 32 == 0 && w 0 % 4096 == 0
    && decide (65536 ≤ size) && decide (size ≤ 2 ^ 32) && 2 ^ log2 size == size && w 5 % 32 == 0
    && (!bit ctl 3 || (decide (10 ≤ bits ctl 8 8) && decide (bits ctl 8 8 ≤ 40)))

/-- The four doublewords of a debug entry are well formed (R444): `LOW` lies below `HIGH` in an entry that is not used too. -/
def debugWordsOk (w0 low high w3 : Word) : Bool :=
  let d := w0.toNat
  let ty := bits d 0 4
  w3 == 0 && bits d 15 17 == 0 && !bit d 12 && bits d 6 2 == 0 && decide (ty ≤ 3)
    && decide (low.toNat < high.toNat) && (decide (ty ≤ 1) || bit d 4 || bit d 5)

/-- Every entry of a table is well formed. -/
def debugTableOk : List Word → Bool
  | w0 :: w1 :: w2 :: w3 :: t => debugWordsOk w0 w1 w2 w3 && debugTableOk t
  | _ => true

/-- The doublewords of some bytes. -/
def byteWords (n : Nat) (bs : List Byte) : List Word := (List.range n).map fun i => BitVec.ofNat 64 (wordAt bs (8 * i))

/-- The debug table that a descriptor names, or none for address 0: the cause and address of a fault, or 0x01. -/
def State.debugTable (s : State) (addr : Nat) : Except (Nat × Nat) (List Word) × State :=
  if addr = 0 then (.ok [], s)
  else match s.vread s.mySpace addr 256 with
    | (.error c, s) => (.error c, s)
    | (.ok bs, s) => if debugTableOk (byteWords 32 bs) then (.ok (byteWords 32 bs), s) else (.error (0x01, 0), s)

/-- A pair of region and die has no buffer any more, after its queued records have been written. -/
def State.unbindTrace (s : State) (m d r : Nat) : State :=
  let s := s.traceFlush m d fun q => q.rid == r
  let s := s.updDie m d fun x => { x with lastTime := x.lastTime.filter fun q => q.1 / 128 != r }
  { s with tbufs := s.tbufs.filter fun b => !(b.mod == m && b.die == d && b.rid == r),
           tcapture := s.tcapture.filter fun q => !(q.mod == m && q.die == d && q.rid == r) }

/-- A buffer is bound in place of an earlier one of its pair, whose queued records are written first: `WRPTR` and `LOST` of its descriptor are written as
0. The cause and address of a fault otherwise. -/
def State.bindTrace (s : State) (b : TraceBuf) : Except (Nat × Nat) Unit × State :=
  let s := s.unbindTrace b.mod b.die b.rid
  match s.vwrite s.mySpace (s.storeTag (BitVec.ofNat 64 (b.desc + 0x10))) (b.desc + 0x10) (natBytes 16 0) with
  | (.error c, s) => (.error c, s)
  | (.ok (), s) => (.ok (), { s with tbufs := s.tbufs ++ [b] })

/-- `trcctl`. -/
def execTrcctl (h : Hdr) (o : XBC) (s : State) : Host.Outcome State Fault Refusal :=
  s.privileged (s.me.level != 0) <| s.issue h { xr := [o.b, o.ext.c] } fun s =>
    let addr := (s.x o.b).toNat
    let ctl := (s.x o.ext.c).toNat
    let mod := s.me.loc.mod
    if addr % 64 ≠ 0 then s.failAt 0x04 (s.x o.b)
    else if ctl &&& 0xFF0F ≠ ctl then s.fail 0x01
    else match s.vread s.mySpace addr 64 with
      | (.error c, t) => t.failSeen c.1 (BitVec.ofNat 64 c.2)
      | (.ok bs, s') =>
        let ws := byteWords 8 bs
        let w (i : Nat) : Nat := (ws.getD i 0).toNat
        let rid := bits (w 4) 48 16
        let die := bits (w 4) 40 3
        let masked := s.confidential mod rid && rid != s.me.rid && !s.confidential mod s.me.rid
        if !s.within mod s.me.rid rid || (w 5 != 0 && (!s.observes || masked)) then s.fail 0x06
        else if !descriptorOk ws ctl then s.fail 0x01
        else if !bit ctl 0 then .ok (s'.unbindTrace mod die rid)
        else if (s.tbuf? mod die rid).isNone && 8 ≤ countIf (fun b : TraceBuf => b.mod == mod && b.die == die) s.tbufs then s.fail 0x24
        else match s'.debugTable (w 5) with
          | (.error c, t) => t.failSeen c.1 (BitVec.ofNat 64 c.2)
          | (.ok table, s') =>
            match s'.bindTrace ⟨mod, die, rid, s.me.rid, addr, masked, ws, ctl, 0, 0, 0, 0, 0, table⟩ with
            | (.error c, _) => s.failAt c.1 (BitVec.ofNat 64 c.2)
            | (.ok (), t) => .ok t

end Sys2Proof.Machine
end

