-- ==== Sys2Proof/Machine/Priv.lean ====
section
/-! DEFINITION. Sys2Proof/Machine/Priv.lean: page 7 (spec/15 R391 to R402): return from a user trap, privileged registers, shoot-downs, cache and context
operations, keys, `wfi` and `pstate`. `rgnbind` stands in Bind.lean and `trcctl` in TraceUnit.lean. -/

namespace Sys2Proof.Machine

/-! ### `rett` (R371) -/

/-- `rett`: with `UTA` clear 0x1D at U and 0x01 above it; else it waits for the entries issued since the trap, and returns. -/
def execRett (h : Hdr) (s : State) : Host.Outcome State Fault Refusal :=
  s.privileged (s.me.uta || s.me.level != 0) <| s.issue h {} fun s =>
    if !s.me.uta then s.fail 0x01
    else if !s.me.userDone then .hold s
    else
      let t := s.upd Agent.leaveUser
      .goto t t.me.pc

/-! ### `mfpr`, `mtpr` (R367) -/

/-- The level at which a privileged register is read; none for a number without one. -/
def prRead (n : Nat) : Option Nat :=
  if n = 0x180 then some 3
  else if n = 0x100 || n = 0x101 || n = 0x102 || n = 0x103 || n = 0x104 || n = 0x110 || n = 0x111 then some 1
  else none

/-- The level at which one is written. -/
def prWrite (n : Nat) : Option Nat := if n = 0x104 then some 1 else if n = 0x180 then some 3 else none

/-- The contexts of a core that hold agents of a kind, as bits. -/
def State.contextBits (s : State) (l : Loc) (handlers : Bool) : Nat :=
  (s.agents.filter fun a => a.loc == l && a.placed && a.life != .exited && a.isHandler == handlers).foldl (fun n a => n ||| 2 ^ a.ctx) 0

/-- A privileged register. -/
def State.prWord (s : State) (n : Nat) : Word :=
  let a := s.me
  match n with
  | 0x100 => BitVec.ofNat 64 a.level
  | 0x101 => BitVec.ofNat 64 ((s.myRegion.map Region.vif).getD 0)
  | 0x102 => BitVec.ofNat 64 ((s.myRegion.map Region.rcb).getD 0)
  | 0x103 => 0x20000
  | 0x104 => a.pscratch
  | 0x110 => BitVec.ofNat 64 (s.contextBits a.loc true * 256 + s.contextBits a.loc false)
  | 0x111 => BitVec.ofNat 64 (256 - countIf (fun t : Sat => t.loc == a.loc) s.sats)
  | _ => (s.core a.loc).mchk

/-- A number is above the issuer's level: 0x1D; it has no such access: 0x01. -/
def State.prCause (s : State) : Option Nat → Option Nat
  | none => some 0x01
  | some l => if s.me.level < l then some 0x1D else none

/-- `mfpr`. -/
def execMfpr (h : Hdr) (o : CRN) (s : State) : Host.Outcome State Fault Refusal :=
  s.privileged (s.me.level != 0) <| s.issue h { xw := [o.a] } fun s =>
    match s.prCause (prRead o.i.nat) with
    | some c => s.fail c
    | none => .ok (s.setX o.a (s.prWord o.i.nat))

/-- `mtpr`: `pscratch` takes the value, and a write of zero clears `mchk`. -/
def mtpr (h : Hdr) (o : CRN) (s : State) : Host.Outcome State Fault Refusal :=
  s.privileged (s.me.level != 0) <| s.issue h { xr := [o.a] } fun s =>
    match s.prCause (prWrite o.i.nat) with
    | some c => s.fail c
    | none =>
      let v := s.x o.a
      if o.i.nat = 0x104 then .ok (s.upd fun a => { a with pscratch := v })
      else if v = 0 then .ok (s.updCore s.me.loc fun c => { c with mchk := 0 })
      else .ok s

/-- `mtpr` of a register other than `mchk`. -/
def execMtpr (h : Hdr) (o : CRN) (s : State) : Host.Outcome State Fault Refusal := mtpr h o s
/-- `mtpr` of `mchk` (spec/20 R467). -/
def execMtprMchkClear (h : Hdr) (o : CRN) (s : State) : Host.Outcome State Fault Refusal := mtpr h o s

/-! ### `tlbi` (R392) -/

/-- `tlbi`: a satellite of `KIND` 3; of `sattr` it takes `PRIO` and `DETACH`, and it neither uses nor consumes `slaunch` and `safter`. -/
def execTlbi (h : Hdr) (o : TLB) (s : State) : Host.Outcome State Fault Refusal :=
  s.privileged (s.me.level != 0) <| s.issue h { xr := [o.b, o.ext.c], xw := [o.a] } fun s =>
    let c := (s.x o.ext.c).toNat
    let vif := (s.myRegion.map Region.vif).getD 64
    let mine := s.vifs.any fun v => v.mod == s.me.loc.mod && v.vif == vif && decide (v.asidBase ≤ bits c 0 16)
      && decide (bits c 0 16 < v.asidBase + v.asidCount)
    if !mine then s.fail 0x06
    else if bits c 18 46 != 0 then s.fail 0x01
    else match s.freeSatSlot s.me.loc s.me.rid with
      | none => s.fail 0x19
      | some slot =>
        .ok (s.createSat o.a slot 3 .shootdown (s.me.sattr &&& 0xF00) 0 0 true (.tlbi vif (bits c 0 16) (s.x o.b).toNat (bit c 16) (bit c 17)))

/-- A TLB entry that a shoot-down names. -/
def tlbiNames (vif asid va : Nat) (allAsid allVif : Bool) (e : TlbEntry) : Bool :=
  e.vif == vif && (allVif || (e.asid == asid && (allAsid || va / 2 ^ e.bits == e.base)))

/-- An agent holds the translation of a probed store in an address space (spec/02 R42, spec/17 R421). -/
def State.holdsProbe (s : State) (mod vif asid : Nat) (allVif : Bool) (a : Agent) : Bool :=
  a.loc.mod == mod && ((s.region? mod a.rid).any fun r => r.vif == vif && (allVif || r.asid == asid))
    && a.placed && (a.queue ++ (a.aside.map Aside.queue).getD []).any fun e => e.passed && !e.lanes.isEmpty

/-- A drain still has to write places that its address stage probed in an address space (spec/17 R421). -/
def State.drainsProbe (s : State) (mod vif asid : Nat) (allVif : Bool) (t : Sat) : Bool :=
  t.loc.mod == mod && !t.terminal && ((s.region? mod t.rid).any fun r => r.vif == vif && (allVif || r.asid == asid))
    && match t.task with
      | .mdrn _ _ _ elems staged _ => !elems.isEmpty || !staged.isEmpty
      | _ => false

/-- The decrement of a join block that was translated in an address space has still to be made (spec/11 R332). -/
def State.joinsProbe (s : State) (mod vif asid : Nat) (allVif : Bool) (d : Deferred) : Bool :=
  d.loc.mod == mod && d.join && (s.region? mod d.rid).any fun r => r.vif == vif && (allVif || r.asid == asid)

/-- Every burst of a satellite of a module has finished: what its RDCs still hold of satellites' writes is at home (spec/17 R421). -/
def State.settleBursts (s : State) (mod : Nat) : State :=
  (s.rdc.filter fun l => l.mod == mod && l.tags.any fun t => t.sid != 0).foldl (fun s l => s.evictRdc l.mod l.die l.ep l.line) s

/-- TLBI_DONE: the shoot-down `n` is done: every TLB of the module has dropped the entries that it names, no probed store and no join decrement uses one any
more, and the bytes that satellites moved under one are at home. -/
def execTlbiDone (n : Nat) (s : State) : Host.Outcome State Fault Refusal :=
  match s.sats.find? fun t => t.sid == n with
  | none => .next s
  | some t =>
    match t.task with
    | .tlbi vif asid va allAsid allVif =>
      if !t.begun || t.terminal then .next s
      else if t.cancel then .next (s.endSat n 2 0 0 0)
      else if (s.agents.any fun a => s.holdsProbe t.loc.mod vif asid allVif a) || (s.sats.any fun d => s.drainsProbe t.loc.mod vif asid allVif d)
          || s.deferred.any fun d => s.joinsProbe t.loc.mod vif asid allVif d then .next s
      else
        let s := s.settleBursts t.loc.mod
        .next ({ s with tlb := s.tlb.filter fun e => !(e.loc.mod == t.loc.mod && tlbiNames vif asid va allAsid allVif e) }.endSat n 0 0 0 0)
    | _ => .next s

/-! ### `icinv`, `cflush` (R393, R394) -/

/-- `icinv`: after every earlier entry of the thread's queue the core's instruction cache is empty. -/
def execIcinv (h : Hdr) (s : State) : Host.Outcome State Fault Refusal :=
  s.issue h {} fun s =>
    if !s.me.streamDone then .hold s
    else
      let sp := s.mySpace
      .ok { s with icache := s.icache.filter fun c => !(c.loc == sp.loc && c.vif == sp.vif && c.asid == sp.asid) }

/-- One line goes from the core's scalar data cache, from scope 2 on from the RDC of the thread's die, and from scope 3 on from every RDC of the module; a
counted line is untouched. -/
def State.flushLine (s : State) (sc pa : Nat) : State :=
  let l := s.me.loc
  let line := pa / 128
  if (s.counted? l.mod line).isSome then s
  else
    let s := { s with dcache := s.dcache.filter fun d => !(d.loc == l && d.ep == l.mod && d.line == line) }
    (if sc < 2 then [] else if sc = 2 then [l.die] else List.range 8).foldl (fun s d => s.evictRdc l.mod d l.mod line) s

/-- The lines of a range from its first one on; those of pages that are absent or unreadable are skipped. -/
def State.flushLines (sc : Nat) : Nat → State → Nat → State
  | 0, s, _ => s
  | n + 1, s, va =>
    match s.translate s.mySpace (va % 2 ^ 64) .read with
    | (.error _, s) => State.flushLines sc n s (va + 128)
    | (.ok (pa, _), s) => State.flushLines sc n (s.flushLine sc pa) (va + 128)

/-- `cflush`: scopes 3 to 5 are S's. The scalar data cache is never dirty. -/
def execCflush (h : Hdr) (o : CFL) (s : State) : Host.Outcome State Fault Refusal :=
  let sc := o.ext.sel.toNat
  s.privileged (s.me.level != 0 || sc < 3 || 5 < sc) <| s.issue h { xr := [o.b, o.ext.c] } fun s =>
    let b := (s.x o.b).toNat
    let n := (s.x o.ext.c).toNat
    if 2 ^ 40 < n then s.fail 0x01
    else if n = 0 then .ok s
    else .ok (State.flushLines sc ((b % 128 + n + 127) / 128) s (b / 128 * 128))

/-! ### `ctxsave`, `ctxload` (R395) -/

/-- The selector of a thread: its region, which is the issuer's or a descendant (0x06), and its `tid`; [47:31] are zero (0x01). -/
def State.selector (s : State) (w : Word) : Except Nat (Nat × Nat) :=
  let rid := bits w.toNat 48 16
  if !s.within s.me.loc.mod s.me.rid rid then .error 0x06
  else if bits w.toNat 31 17 != 0 then .error 0x01
  else .ok (rid, bits w.toNat 0 31)

/-- The thread of a region with a number. -/
def State.threadOf (s : State) (mod rid tid : Nat) : Option Agent :=
  s.agents.find? fun a => a.loc.mod == mod && a.rid == rid && a.tid == tid && !a.isHandler && a.life != .exited

/-- A live thread is stopped with `HOLD`: a placed one at its next boundary, as a pre-emption does and so with its gang (spec/09 R253), which waits for it
from then on; a created one where it waits. -/
def State.stopThread (s : State) (a : Agent) : State :=
  if a.saved then s
  else if a.placed then (s.preemptThread a).updAgent a.uid fun a => { a with hold := true }
  else
    let r := trapRecord s a (a.hereTrap preemptTrap)
    (s.dequeue a.loc.mod a.loc.die a.rid a.uid).shelve a.uid true r.words

/-- `ctxsave`: nothing without such a live thread. -/
def execCtxsave (h : Hdr) (o : XB) (s : State) : Host.Outcome State Fault Refusal :=
  s.privileged (s.me.level != 0) <| s.issue h { xr := [o.b] } fun s =>
    match s.selector (s.x o.b) with
    | .error c => s.fail c
    | .ok (rid, tid) =>
      match s.threadOf s.me.loc.mod rid tid with
      | none => .ok s
      | some a => .ok (s.stopThread a)

/-- `HOLD` is cleared, in the thread and in the header of its image; a fault there is cause 0x21 (R390). -/
def State.unhold (s : State) (r : Region) (a : Agent) (w : Nat) : State :=
  match s.saveBytes r a.loc (imageBase r a.tid + 8) (natBytes 8 (w - if bit w 15 then 2 ^ 15 else 0)) with
  | (.error e, s) => s.endRegion a.loc a.rid (.saveFault (BitVec.ofNat 64 e) a.tid)
  | (.ok (), s) => (s.updAgent a.uid fun a => { a with hold := false }).settleQueues a.loc.mod a.loc.die

/-- `ctxload`: the header is read at issue; it needs the format 0x0901 (0x01). A live thread, and one saved with `HOLD` clear, is not affected. -/
def execCtxload (h : Hdr) (o : XB) (s : State) : Host.Outcome State Fault Refusal :=
  s.privileged (s.me.level != 0) <| s.issue h { xr := [o.b] } fun s =>
    match s.selector (s.x o.b) with
    | .error c => s.fail c
    | .ok (rid, tid) =>
      match s.region? s.me.loc.mod rid with
      | none => s.fail 0x06
      | some r =>
        match s.translateSpans { s.space s.me.loc .core r.rid 1 with level := 1 } .read (lineSpans 2 (imageBase r tid) 16) with
        | (.error c, t) => t.failSeen c.1 (BitVec.ofNat 64 c.2)
        | (.ok l, s') =>
          match s'.badSpan (imageBase r tid) (State.dumpVias r l) with
          | some q => (s'.foundError s.me.loc (s'.poisonUnit q.2.2.loc.mod (q.2.1 / 128)) q.2.1).failSeen 0x22 (BitVec.ofNat 64 q.1)
          | none =>
          let x := s'.readVias (State.dumpVias r l)
          if bits (wordAt x.1 0) 32 16 ≠ 0x0901 then s.fail 0x01
          else match s.threadOf s.me.loc.mod rid tid with
            | none => .ok x.2
            | some a => if a.saved && a.hold then .ok (x.2.unhold r a (wordAt x.1 8)) else .ok x.2

/-! ### `qmap` (R397) -/

/-- The pinned queues of a die. -/
def State.pinned (s : State) (m d : Nat) : Nat := countIf (fun q : RQueue => q.mod == m && q.die == d && q.pinned) s.rqueues

/-- A region's queue of a die is pinned; there is one from now on. -/
def State.pinQueue (s : State) (m d r : Nat) : State :=
  let s := match s.rqueue? m d r with
    | some _ => s
    | none => { s with rqueues := s.rqueues ++ [(⟨m, d, r, [], 0, none, none, 0, false, none⟩ : RQueue)] }
  (s.updQueue m d r fun q => { q with pinned := true }).settleQueues m d

/-- `qmap`. -/
def execQmap (h : Hdr) (o : XBC) (s : State) : Host.Outcome State Fault Refusal :=
  s.privileged (s.me.level != 0) <| s.issue h { xr := [o.b, o.ext.c] } fun s =>
    let m := s.me.loc.mod
    let b := (s.x o.b).toNat
    let c := (s.x o.ext.c).toNat
    let rid := bits b 0 16
    let d := bits c 0 3
    if !s.within m s.me.rid rid then s.fail 0x06
    else if bits b 16 48 != 0 || c &&& 0x107 != c then s.fail 0x01
    else
      let on := (s.rqueue? m d rid).any RQueue.pinned
      if !bit c 8 then .ok ((s.updQueue m d rid fun q => { q with pinned := false }).settleQueues m d)
      else if on then .ok s
      else if 16 ≤ s.pinned m d then s.fail 0x24
      else .ok (s.pinQueue m d rid)

/-! ### `kmint`, `krekey` (R399, R400, spec/18 R438, R439) -/

/-- The thread is the firmware of the Keywright in charge: of F0, or of F1 after a takeover (spec/01 R13, spec/18 R438). -/
def State.onKeywright (s : State) : Bool :=
  s.me.level == 2 && (s.module? s.me.loc.mod).any fun a => a.keywright == s.me.loc.die

/-- A 32-byte request of a Keywright instruction, read at x[B]. -/
def keyRequest (h : Hdr) (b : Reg) (kw : List Reg4) (f : State → State → List Byte → Res) (s : State) : Host.Outcome State Fault Refusal :=
  s.privileged s.onKeywright <| s.issue h { xr := [b], kw := kw } fun s =>
    if (s.x b).toNat % 32 ≠ 0 then s.failAt 0x04 (s.x b)
    else match s.vread s.mySpace (s.x b).toNat 32 with
      | (.error c, t) => t.failSeen c.1 (BitVec.ofNat 64 c.2)
      | (.ok bs, s') => f s s' bs

/-- `kmint`: the key of the request with the endpoint's current generation and a new tag. -/
def execKmint (h : Hdr) (o : KB) (s : State) : Host.Outcome State Fault Refusal :=
  keyRequest h o.b [o.a] (fun s s' bs =>
    if wordAt bs 24 ≠ 0 then s.fail 0x01
    else match s'.mint s.me.loc.mod (keyOf (wordAt bs 0) (wordAt bs 8) (wordAt bs 16) 0) with
      | (.error c, _) => s.fail c
      | (.ok k, t) => .ok (t.setK o.a k)) s

/-- A new 128-bit secret from the key unit's random source. -/
def freshSecret (n : Nat) : BitVec 128 := (Config.freeWord n).setWidth 128 <<< 64 ||| (Config.freeWord (n + 1)).setWidth 128

/-- The lowest-numbered module of the domain that is up. -/
def State.lowestUp (s : State) : Option Nat :=
  (s.modules.filter ModuleState.up).foldl (fun b a => match b with
    | none => some a.mod
    | some b => some (min b a.mod)) none

/-- Word 3 of a request is written after a release at scope 4 (R400). -/
def State.answerRequest (s : State) (m rid addr w : Nat) : State :=
  let l : Loc := ⟨m, 0, 0⟩
  ((s.release l 4).vwrite { s.space l .core rid 1 with level := 1 } .none (addr + 24) (natBytes 8 w)).2

/-- A record with cause 0x00 and `UINFO` 1 goes to host queue 0 of every virtual interface as a rotation begins (spec/18 R439). -/
def State.tellRotation (s : State) : State :=
  s.vifs.foldl (fun s v => s.hostRecord v.mod v.vif 0 2 0
    (Record.words ⟨0, false, false, false, false, false, 0, 0, 0, 1, s.meridian v.mod, 0, 0, 0, ⟨v.mod, 0, 0⟩⟩)) s

/-- A rotation of the tag secret: refused with 0x06 elsewhere than on the lowest-numbered module that is up; not started during another one or its grace
period, which word 3 says with [61]. -/
def State.rotate? (s s' : State) (addr : Nat) : Res :=
  let m := s.me.loc.mod
  if s.lowestUp ≠ some m then s.fail 0x06
  else if s.secret.old.isSome || s.secret.next.isSome then .ok (s'.answerRequest m s.me.rid addr (2 ^ 63 + 2 ^ 61))
  else .ok { s' with secret := { s'.secret with next := some (freshSecret s'.fresh), word3 := some ⟨m, s.me.rid, addr, 0, s.me.uid, s.me.pc, s.me.order⟩ },
                     fresh := s'.fresh + 2 }.tellRotation

/-- An advance of an endpoint's generation is asked for; it completes later. -/
def State.advance? (s s' : State) (addr : Nat) (k : Key) : Res :=
  let m := s.me.loc.mod
  if !(s.charters.any fun c => c.mod == m && s.endpointChartered c k) then s.fail 0x06
  else .ok { s' with advances := s'.advances ++ [⟨m, s.me.rid, addr, k, s.me.uid, s.me.pc, s.me.order⟩] }

/-- The oldest advance is done: word 3 holds [63] done, [62] exhausted and the new generation. -/
def State.advanceDone (s : State) : State :=
  match s.advances with
  | [] => s
  | q :: t =>
    let e := (s.keyEndpoint q.key).advance
    ({ s with advances := t }.setEndpoint e).answerRequest q.mod q.rid q.addr (2 ^ 63 + (if e.retired then 2 ^ 62 else 0) + e.gen)

/-- `krekey`: the operation is word 0 [3:0]. -/
def krekey (h : Hdr) (o : XB) (s : State) : Host.Outcome State Fault Refusal :=
  keyRequest h o.b [] (fun s s' bs =>
    let addr := (s.x o.b).toNat
    match bits (wordAt bs 0) 0 4 with
    | 0 => s.advance? s' addr (keyOf (wordAt bs 8) (wordAt bs 16) 0 0)
    | 1 => s.rotate? s' addr
    | _ => s.fail 0x01) s

/-- `krekey` of operation 0 as the table's row; the request decides at run time (log entry 11). -/
def execKrekeyAdvance (h : Hdr) (o : XB) (s : State) : Host.Outcome State Fault Refusal := krekey h o s
/-- `krekey` of operation 1. -/
def execKrekeyRotate (h : Hdr) (o : XB) (s : State) : Host.Outcome State Fault Refusal := krekey h o s

/-! ### `wfi`, `pstate` (R401, R402) -/

/-- Until when a `wfi` waits: 1,000,000 ns from its issue; one that runs again after a stop goes on with the time that it began with. -/
def State.wfiEnd (s : State) : Nat :=
  match s.me.wfiFrom with
  | some w => if w.1 = s.me.pc then w.2 else s.meridian s.me.loc.mod + 1000000
  | none => s.meridian s.me.loc.mod + 1000000

/-- `wfi`: the thread parks until an event of R401, at most 1,000,000 ns. Events since its first issue are seen, those before it are not. -/
def execWfi (h : Hdr) (s : State) : Host.Outcome State Fault Refusal :=
  s.privileged (s.me.level != 0) <| s.issue h {} fun s =>
    let again := s.me.wfiFrom.any fun w => w.1 == s.me.pc
    .parkHere (s.upd fun a => { a with wfiSeen := a.wfiSeen && again, wfiFrom := some (a.pc, s.wfiEnd) }) (.wfi s.wfiEnd)

/-- The core clock of a state in MHz (spec/20 R465). -/
def clockMhz (p : Nat) : Nat := 2400 - 200 * min 7 p

/-- What `pstate` returns. -/
def State.pstateWord (s : State) : Word :=
  let p := s.pstate s.me.loc
  BitVec.ofNat 64 (clockMhz p * 2 ^ 16 + s.ceiling s.me.loc s.me.rid * 2 ^ 8 + p)

/-- The issuing region's ceiling on the core is set; a change of the core's state is a power event (spec/19 R455). -/
def State.setCeiling (s : State) (p : Nat) : State :=
  s.coreChange s.me.loc fun c => { c with ceils := upsert (fun e => e.1 == s.me.rid) (s.me.rid, p) c.ceils }

/-- `pstate`: r [3] sets, else only reads; any other bit but [2:0] raises 0x01. -/
def pstate (h : Hdr) (o : RB) (s : State) : Host.Outcome State Fault Refusal :=
  s.issue h { xr := RegImm.regs o.t, xw := [o.a] } fun s =>
    let r := match o.t with
      | .reg b => (s.x b).toNat
      | .imm i => i.nat
    if 16 ≤ r then s.fail 0x01
    else
      let t := if bit r 3 then s.setCeiling (r % 8) else s
      .ok (t.setX o.a t.pstateWord)

/-- `pstate` with a request that sets, as the table's row; the operand decides at run time (log entry 11). -/
def execPstateSet (h : Hdr) (o : RB) (s : State) : Host.Outcome State Fault Refusal := pstate h o s
/-- `pstate` with a request that only reads. -/
def execPstateRead (h : Hdr) (o : RB) (s : State) : Host.Outcome State Fault Refusal := pstate h o s

end Sys2Proof.Machine
end

