-- ==== Sys2Proof/Machine/Platform.lean ====
section
/-! DEFINITION. Sys2Proof/Machine/Platform.lean: what the platform and the environment do to a module: host queues, meridian time (spec/18 R440), the
Keywright's rotations (R438, R439), power and heat (spec/20 R465), errors (R467), reset and bring-up (R462 to R464). -/

namespace Sys2Proof.Machine

/-! ### Host queues (spec/16 R413) -/

/-- HOST_QUEUE_WRITE: the overflow entry that a queue owes is written as soon as it has room. -/
def execHostQueueWrite (m v n : Nat) (s : State) : Host.Outcome State Fault Refusal :=
  let q := s.hostq m v n
  if q.owed && decide (q.entries.length < q.size) then .next (s.setHostq (q.pay (s.meridian m))) else .next s

/-! ### Power and heat (spec/20 R465) -/

/-- A change of a die's ceilings, with its power event (log entry 22). A step within the limit is an event only where it changes the state of a core, and
concerns the cores whose state it changes. -/
def State.dieChange (s : State) (m d ev : Nat) (f : DieState → DieState) : State :=
  let t := s.updDie m d f
  match t.stateMoved s m d with
  | some c => t.powerEvent s m d ev c fun k => ev != 5 || s.pstate ⟨m, d, k⟩ != t.pstate ⟨m, d, k⟩
  | none => if ev = 5 then t else t.powerEvent s m d ev 0 fun _ => true

/-- POWER_LIMIT_STEP: the power limit lowers the states of die `d` by one step, or raises them by one. -/
def execPowerLimitStep (m d up : Nat) (s : State) : Host.Outcome State Fault Refusal :=
  let x := s.die m d
  if up = 0 then
    if 7 ≤ x.limCeil then .next s
    else .next (s.dieChange m d (if x.limited then 5 else 1) fun x => { x with limited := true, limCeil := x.limCeil + 1 })
  else if x.limCeil = 0 then .next s
  else .next (s.dieChange m d (if x.limCeil = 1 then 2 else 5) fun x => { x with limited := decide (1 < x.limCeil), limCeil := x.limCeil - 1 })

/-- THERMAL_THROTTLE: die `d` enters its thermal throttle at 105 °C, or leaves it below 100 °C. -/
def execThermalThrottle (m d on : Nat) (s : State) : Host.Outcome State Fault Refusal :=
  let b := on != 0
  if (s.die m d).throttle == b then .next s
  else .next (s.dieChange m d (if b then 3 else 4) fun x => { x with throttle := b })

/-- The live regions that have a thread or a satellite on a die. -/
def State.regionsOn (s : State) (m d : Nat) : List Nat :=
  let threads := (s.agents.filter fun a => a.loc.mod == m && a.loc.die == d && a.life != .exited).map Agent.rid
  let sats := (s.sats.filter fun t => t.loc.mod == m && t.loc.die == d).map Sat.rid
  (threads ++ sats).eraseDups

/-- The regions of a list end by a thermal trip, a region of the list below another before that one, so that each has the record of the trip (R465). -/
def State.tripAll : Nat → State → Nat → Nat → List Nat → State
  | 0, s, _, _, _ => s
  | n + 1, s, m, d, l =>
    match l.find? fun r => l.all fun q => q == r || !s.descends m r s.regions.length q with
    | none => s
    | some r => State.tripAll n (s.endRegion ⟨m, d, 0⟩ r .thermal) m d (l.filter (· != r))

/-- THERMAL_TRIP: at 115 °C the clocks of die `d` stop, and every region with a thread or satellite there ends with cause 0x22. -/
def execThermalTrip (m d : Nat) (s : State) : Host.Outcome State Fault Refusal :=
  let s := s.updDie m d fun x => { x with tripped := true }
  .next (State.tripAll (s.regionsOn m d).length s m d (s.regionsOn m d))

/-! ### Errors (R467) -/

/-- SCRUB: the scrub of module `m` corrects a soft error, which the machine-check count alone shows (log entry 47). -/
def execScrub (m : Nat) (s : State) : Host.Outcome State Fault Refusal :=
  .next (s.updModule m fun a => { a with corrected := a.corrected + 1 })

/-- The data of an uncorrectable error is poisoned: a line of memory, of L2 or of a page table; a line in a die's RDC; a scratchpad line of region `who`
at slice × 16,384 + offset; a register of the thread in context `who`, which takes cause 0x22 at its next boundary (log entry 23). -/
def State.poisonData (s : State) (l : Loc) (unit pa who : Nat) : State :=
  match unit with
  | 3 => { s with rdc := mapIf (fun q => q.mod == l.mod && q.die == l.die && q.ep == l.mod && q.line == pa / 128) (fun q => { q with bad := true }) s.rdc }
  | 4 => s.setSline { s.sline l who (pa / 16384) (pa % 16384 / 128) with bad := true }
  | 5 => s.mapAgents fun a =>
      if a.loc == l && a.ctx == who && a.placed && a.life != .exited then
        { a with failures := addFailure ⟨a.order, ⟨0x22, 0, a.pc, 0, false, 0⟩, true⟩ a.failures }
      else a
  | _ => { s with poison := (l.mod, pa / 128, unit) :: s.poison.filter fun q => !(q.1 == l.mod && q.2.1 == pa / 128) }

/-- UNCORRECTABLE_ERROR: core `c` of die `d` finds an error in a unit at a physical address: the data is poisoned and `mchk` written. -/
def execUncorrectableError (m d c unit pa who : Nat) (s : State) : Host.Outcome State Fault Refusal :=
  if 7 ≤ unit then .next s
  else
    let l : Loc := ⟨m, d, c⟩
    .next ((s.poisonData l unit pa who).foundError l unit (if unit = 5 then 0 else pa))

/-! ### Meridian time (spec/18 R440) -/

/-- A module's correction: towards an error of zero, at most 1 ns in the 10,000 ns between two exchanges (100 ppm). -/
def slew (e : Int) : Int := if 0 < e then -1 else if e < 0 then 1 else 0

/-- A module's error as a pair of beacons shows it: sent by the module at `s1`, arrived at `a1` on the reference; sent there at `s2`, arrived at `a2`. It is
half the difference of the one-way times. -/
def beaconError (s1 a1 s2 a2 : Nat) : Int := (((a2 : Int) - s2) - ((a1 : Int) - s1)) / 2

/-- Both ends of a module's link to a vault node work. -/
def State.linked (s : State) (m k : Nat) : Bool := (s.port m k).works && (s.port (512 + k) m).works

/-- A good exchange, over the links of module and reference to the vault node of the module's number: every vault forwards beacons with a fixed
latency, so that the stamps show how far the module is ahead of the reference. -/
def State.goodBeacons (s : State) (a : ModuleState) (s1 a1 s2 a2 : Nat) : Bool :=
  (s.modules.find? fun r => r.up && r.refr).any fun r =>
    s.linked a.mod (a.mod % 144) && s.linked r.mod (a.mod % 144) && beaconError s1 a1 s2 a2 == a.offset - r.offset

/-- A module's count slewed by `d`: where that would step it backwards, it stands still until the common count has caught up (spec/01 R29). -/
def ModuleState.slewed (a : ModuleState) (now : Nat) (d : Int) : ModuleState := { a with offset := a.offset + d, floor := max a.floor (a.count now) }

/-- The count of a module is within ±4 ns of the reference's, as both read now (R440, spec/01 R29). -/
def State.inBounds (s : State) (a : ModuleState) : Bool :=
  (s.modules.find? fun r => r.up && r.refr).all fun r => decide (a.count s.now ≤ r.count s.now + 4) && decide (r.count s.now ≤ a.count s.now + 4)

/-- BEACON_EXCHANGE: a pair of beacons between module `m` and the reference. A module that has run free, or that slews to a new reference, does so until what
it reads is within ±4 ns. -/
def execBeaconExchange (m s1 a1 s2 a2 : Nat) (s : State) : Host.Outcome State Fault Refusal :=
  match s.module? m with
  | none => .next s
  | some a =>
    if a.refr || !a.up || decide (s.now < a.beacon + 10000) || !s.goodBeacons a s1 a1 s2 a2 then .next s
    else
      let e := beaconError s1 a1 s2 a2
      .next (s.updModule m fun a =>
        { a.slewed s.now (slew e) with beacon := s.now, freeRun := false, slewing := (a.freeRun || a.slewing) && !s.inBounds (a.slewed s.now (slew e)) })

/-- A module's clock gains or loses 1 ns against the others. Its count never steps back, and a synchronised module, which reads neither bit, stays within
±4 ns of the reference (spec/01 R29, R31; how fast a clock drifts beyond that is open: DESIGN CHOICE, log entry 48). -/
def State.drift (s : State) (m : Nat) (ahead : Bool) : State :=
  let t := s.updModule m fun a => a.slewed s.now (if ahead then 1 else -1)
  if t.modules.all fun a => !a.up || a.freeRun || a.slewing || t.inBounds a then t else s

/-- MERIDIAN_FREE_RUN: module `m` has had no good exchange for 1 ms. -/
def execMeridianFreeRun (m : Nat) (s : State) : Host.Outcome State Fault Refusal :=
  match s.module? m with
  | none => .next s
  | some a =>
    if a.refr || !a.up || decide (s.now < a.beacon + 1000000) then .next s
    else .next (s.updModule m fun a => { a with freeRun := true, slewing := false })

/-- The lowest-numbered module that is up, but `m`. -/
def State.nextReference (s : State) (m : Nat) : Option Nat := { s with modules := s.modules.filter fun a => a.mod != m }.lowestUp

/-- The reference `m` has failed; the next-lowest module becomes the reference and continues its own count, and every other module slews to it. -/
def State.failover (s : State) (m : Nat) : State :=
  match s.module? m, s.nextReference m with
  | some a, some b =>
    if !a.refr then s
    else
      let f (x : ModuleState) : ModuleState :=
        if x.mod = b then { x with refr := true, freeRun := false, slewing := false }
        else if x.up then { x with refr := false, slewing := !x.freeRun }
        else { x with refr := false }
      { s with modules := s.modules.map f }
  | _, _ => s

/-- REFERENCE_FAILOVER: the reference `m` has failed. -/
def execReferenceFailover (m : Nat) (s : State) : Host.Outcome State Fault Refusal := .next (s.failover m)

/-! ### The Keywright and the tag secret (spec/18 R438, R439) -/

/-- The Keywright has failed before it answered a request: the thread that asked takes cause 0x23 at its next boundary, and may ask again (R438; log
entry 24). -/
def State.refuseRequest (s : State) (q : Advance) : State :=
  s.updAgent q.uid fun a => { a with failures := addFailure ⟨q.order, ⟨0x23, 0, q.pc, BitVec.ofNat 64 q.addr, false, 0⟩, true⟩ a.failures }

/-- A rotation that a module's Keywright has not completed is given up. -/
def State.refuseRotation (s : State) (m : Nat) : State :=
  match s.secret.word3 with
  | some q => if q.mod = m then { s with secret := { s.secret with next := none, word3 := none } }.refuseRequest q else s
  | none => s

/-- So are the advances that it has not answered. -/
def State.refuseAdvances (s : State) (m : Nat) : State :=
  let mine (q : Advance) : Bool := q.mod == m
  (s.advances.filter mine).foldl State.refuseRequest { s with advances := s.advances.filter fun q => !mine q }

/-- KEYWRIGHT_TAKEOVER: the Keywright of F1 takes over, with the same charters; a request not yet answered is refused with cause 0x23. -/
def execKeywrightTakeover (m : Nat) (s : State) : Host.Outcome State Fault Refusal :=
  match s.module? m with
  | none => .next s
  | some a => if a.keywright = 9 then .next s else .next (((s.updModule m fun a => { a with keywright := 9 }).refuseRotation m).refuseAdvances m)

/-- The grace period of the charter under which a rotation was asked, 60 s by default. -/
def State.gracePeriod (s : State) (m rid : Nat) : Nat :=
  ((s.charters.find? fun c => c.mod == m && ((s.region? m rid).map Region.vif) == some c.vif).map Charter.grace).getD 60000000000

/-- An endpoint at a rotation: one that is retired was so under a secret that is now the old one. -/
def Endpoint.ripe (e : Endpoint) : Endpoint := { e with young := false }

/-- ROTATION_ACKNOWLEDGED: every checker has acknowledged: keys are minted under the new secret, tags under the old one are still accepted, and word
3 says that it is done. -/
def execRotationAcknowledged (s : State) : Host.Outcome State Fault Refusal :=
  match s.secret.next, s.secret.word3 with
  | some k, some q =>
    let grace := s.gracePeriod q.mod q.rid
    .next ({ s with secret := ⟨k, some s.secret.cur, s.now + grace, none, none⟩,
                    endpoints := s.endpoints.map Endpoint.ripe }.answerRequest q.mod q.rid q.addr (2 ^ 63))
  | _, _ => .next s

/-- TAG_GRACE_EXPIRY: checkers drop the old secret. The rotation has completed: endpoints that were retired before it come back with generation 0, since
every key of their old generations fails its tag; those retired since then wait for the next one (R437). -/
def execTagGraceExpiry (s : State) : Host.Outcome State Fault Refusal :=
  if s.secret.old.isSome && decide (s.secret.graceEnd ≤ s.now) then
    .next { s with secret := { s.secret with old := none },
                   endpoints := mapIf (fun e => e.retired && !e.young) (fun e => { e with retired := false, gen := 0 }) s.endpoints }
  else .next s

/-! ### Firmware trust (spec/20 R462) -/

/-- A grant as numbers. -/
def Vif.nums (v : Vif) : List Nat :=
  [v.vif, v.cores, v.dies, v.rcb, v.counted, v.satslots, v.asidBase, v.asidCount, v.asTable, v.classes, v.charterBase, v.charterCount, bnat v.observe,
    bnat v.launch, bnat v.conf, v.coreset.length, v.ways.length, v.frames.length, v.shares.length]
    ++ v.coreset ++ v.ways ++ v.frames.flatMap (fun p => [p.1, p.2]) ++ v.shares.flatMap fun p => [p.1, p.2]

/-- A charter as numbers. -/
def Charter.nums (c : Charter) : List Nat :=
  [c.vif, c.dies, c.kinds, c.grace, c.outs.length, c.holders.length, c.asids.length]
    ++ c.outs.flatMap (fun p => [p.1, p.2]) ++ c.holders.flatMap (fun p => [p.1, p.2]) ++ c.asids.flatMap fun p => [p.1, p.2]

/-- The charters and grants of a module as they were fixed at boot. -/
def State.fixedNums (s : State) (m : Nat) : List Nat :=
  (s.vifs.filter fun v => v.mod == m).flatMap Vif.nums ++ (s.charters.filter fun c => c.mod == m).flatMap Charter.nums

/-- The bytes of an attestation report before its signature; `fixed` are the charters and grants. -/
def attestBody (a : ModuleState) (fixed : List Nat) (nonce : Nat) : List Byte :=
  let sha (w : Nat) : List Byte := (List.range 64).map fun i => Config.digest w (if w = 2 then fixed else [a.mod, a.bootCount]) i
  natBytes 8 (0x0901 + a.build % 256 * 2 ^ 16) ++ natBytes 8 a.serial.toNat ++ natBytes 8 a.bootCount ++ List.replicate 40 0
    ++ sha 0 ++ sha 1 ++ sha 2 ++ natBytes 64 nonce ++ List.replicate 192 0

/-- ATTESTATION_REQUEST: F0 answers with a report of 1,024 bytes over the requester's nonce. -/
def execAttestationRequest (m nonce : Nat) (s : State) : Host.Outcome State Fault Refusal :=
  .next (s.updModule m fun a =>
    let body := attestBody a (s.fixedNums m) nonce
    let words := (List.range 64).map fun i => BitVec.ofNat 64 (bytesNat ((body.drop (8 * i)).take 8))
    { a with attests := a.attests ++ [body ++ (List.range 512).map fun i => Config.signature a.mod words i] })

/-- HOST_INTERFACE_TAKEOVER (spec/01 R27): F0's host interface has failed, and that of F1 takes over. -/
def execHostInterfaceTakeover (m : Nat) (s : State) : Host.Outcome State Fault Refusal :=
  .next (s.updModule m fun a => { a with hostif := 9 })

/-! ### Reset and bring-up (spec/20 R463, R464) -/

/-- Everything that a module and its memory hold goes: its memory reads as zero, its threads, regions and units hold nothing, and both ends of its links
start again (spec/18 R429). Its endpoint names lose their owners; a generation does not go back, since keys of it may still pass their tag (R437, R470). -/
def State.wiped (s : State) (m : Nat) : State :=
  let away (l : Loc) : Bool := l.mod != m
  let mine (f : Flight) : Bool :=
    match f.place with
    | .egress => (if f.pkt.isAnswer then f.pkt.target else f.pkt.srcMod) == m
    | .back => f.pkt.srcMod == m
    | .ingress ep => ep == m
    | .vault _ => false
  { s with
    me := if s.me.loc.mod = m then Agent.vacant else s.me
    others := s.others.filter fun a => away a.loc
    clocks := s.clocks.filter fun c => away c.loc
    mem := s.mem.filter fun c => c.1 / 2 ^ 52 != m
    counted := s.counted.filter fun c => c.ep != m
    saved := s.saved.filter fun c => c.ep != m
    rdc := s.rdc.filter fun l => l.mod != m
    l2 := s.l2.filter fun l => l.ep != m
    fills := s.fills.filter fun q => q.1 != m
    outHits := s.outHits.filter fun q => away q.1
    icache := s.icache.filter fun c => away c.loc
    dcache := s.dcache.filter fun c => away c.loc
    tlb := s.tlb.filter fun e => away e.loc
    reports := s.reports.filter fun r => away r.tag.loc
    poison := s.poison.filter fun q => q.1 != m
    crypt := s.crypt.filter fun q => q.1 != m
    allocs := s.allocs.filter fun a => away a.loc
    slines := s.slines.filter fun a => away a.loc
    regions := s.regions.filter fun r => r.mod != m
    rqueues := s.rqueues.filter fun q => q.mod != m
    hostqs := s.hostqs.filter fun q => q.mod != m
    launches := s.launches.filter fun q => q.mod != m
    plans := s.plans.filter fun q => q.mod != m
    sats := s.sats.filter fun t => away t.loc
    gens := s.gens.filter fun g => away g.loc
    notices := s.notices.filter fun n => away n.loc
    slices := s.slices.filter fun x => away x.loc
    barrier := s.barrier.filter fun a => away a.loc
    waiting := s.waiting.filter fun w => away w.loc
    sendq := s.sendq.filter fun q => away q.loc
    rslots := s.rslots.filter fun r => away r.loc
    htab := s.htab.filter fun h => away h.loc
    reqs := s.reqs.filter fun r => away r.loc
    flights := s.flights.filter fun f => !mine f
    seqs := s.seqs.filter fun q => q.mod != m
    buckets := s.buckets.filter fun b => b.target != m
    ports := s.ports.filter fun p => p.ep != m && !(decide (512 ≤ p.ep) && p.n == m)
    advances := s.advances.filter fun q => q.mod != m
    endpoints := mapIf (fun e => e.ep == m && decide (e.kind < 2)) (fun e => e.pass none) s.endpoints
    accs := s.accs.filter fun a => a.mod != m
    deferred := s.deferred.filter fun d => away d.loc
    inject := s.inject.filter fun i => i.mod != m
    tbufs := s.tbufs.filter fun b => b.mod != m
    tqueue := s.tqueue.filter fun r => r.mod != m
    tcapture := s.tcapture.filter fun r => r.mod != m
    dies := s.dies.filter fun d => d.mod != m
    cores := s.cores.filter fun c => away c.loc }

/-- The bits of any of some masks. -/
def orMasks (l : List Nat) : Nat := l.foldl (fun a b => a ||| b) 0

/-- The lowest bit of a mask of partition classes. -/
def lowestClass (mask : Nat) : Nat := ((List.range 16).find? fun i => mask.testBit i).getD 0

/-- The dies that hold granted cores, as bits (R472). -/
def Vif.coreDies (v : Vif) : Nat := ((List.range 8).filter fun d => v.coreset.getD d 0 != 0).foldl (fun n d => n + 2 ^ d) 0

/-- The root region of an interface, from its grant (spec/16 R472). -/
def Vif.root (v : Vif) (now : Nat) : Region :=
  { mod := v.mod, rid := 0xFF00 + v.vif, holder := 0xFF00 + v.vif, parent := 0xFF00 + v.vif, vif := v.vif, rcb := v.rcb,
    pclass := lowestClass v.classes, observe := v.observe, launch := v.launch, level := 1, conf := v.conf, mkey := 0, dkey := 0, fdroot := true, prio := 7,
    ways := orMasks v.ways, tlimit := 0xFFFF, cores := v.cores, satslots := v.satslots, counted := v.counted, hcycles := 0xFFFFFFFF,
    drainns := 0xFFFFFFFF, asid := v.asidBase, dies := v.coreDies, scratch := 128, tperiod := 0, tbudget := 0, hardns := 0, used := 0, save := 0,
    spsave := 0, cslist := 0, frq := 0, state := .bound, periodStart := now, periodUsed := 0, exhausted := false, spentBy := 0, liveOut := 0, frSeen := 0 }

/-- The control block of a bound region as it stands in memory (R403). -/
def Region.block (r : Region) : List Byte :=
  let w0 := r.rid * 2 ^ 48 + r.holder * 2 ^ 32 + r.parent * 2 ^ 16 + r.pclass * 2 ^ 12 + bnat r.observe * 2 ^ 11 + bnat r.launch * 2 ^ 10 + r.level * 2 ^ 8
    + bnat r.conf * 2 ^ 7 + bnat r.fdroot * 2 ^ 6 + r.prio
  [w0, r.ways * 2 ^ 48 + r.tlimit * 2 ^ 32 + r.cores * 2 ^ 16 + r.satslots, r.counted * 2 ^ 32 + r.hcycles,
    r.drainns * 2 ^ 32 + r.asid * 2 ^ 16 + r.dies * 2 ^ 8 + r.scratch, r.tperiod, r.tbudget, r.hardns, r.used, r.save, r.spsave, r.cslist, r.frq, 1].flatMap
    (natBytes 8) ++ List.replicate 152 0

/-- A step of bring-up up to the fourth stops: the status word reports the step and the failure, which is not 0, and the module joins no domain. -/
def ModuleState.stopped (a : ModuleState) (step fail : Nat) : ModuleState :=
  { a with up := false, refr := false, freeRun := false, slewing := false, boot := step, bootFail := max 1 fail, attests := [], corrected := 0, refusals := [] }

/-- A module that has been brought up (R464): it joins its domain synchronised, as the reference where it is the lowest-numbered module that is up. -/
def ModuleState.started (a : ModuleState) (now : Nat) (offset : Int) (refr : Bool) : ModuleState :=
  { a with up := true, offset := offset, floor := 0, freeRun := false, slewing := false, refr := refr, beacon := now, keywright := 8, hostif := 8, boot := 6,
           bootFail := 0, bootCount := a.bootCount + 1, attests := [], corrected := 0, refusals := [] }

/-- The offset with which module `m` joins: that of the reference, or, as the first module of a domain, the one that makes its count 0. -/
def State.joinOffset (s : State) (m : Nat) : Int :=
  match s.modules.find? fun a => a.up && a.refr && a.mod != m with
  | some a => a.offset
  | none => -(s.now : Int)

/-- Steps 1 to 4 of bring-up have passed: the module is in its domain. The key unit of a domain's first module draws the tag secret (log entry 25). -/
def State.joined (s : State) (m : Nat) : State :=
  let alone := (s.nextReference m).isNone
  let lowest := match s.nextReference m with
    | none => true
    | some n => decide (m < n)
  let off := s.joinOffset m
  let s := if alone then { s with secret := ⟨freshSecret s.fresh, none, 0, none, none⟩, fresh := s.fresh + 2 } else s
  let join (a : ModuleState) : ModuleState :=
    if a.mod = m then a.started s.now off lowest else if lowest then { a with refr := false } else a
  { s with modules := s.modules.map join }

/-- An interface to which the platform grants nothing. -/
def Vif.nothing (m n : Nat) : Vif := ⟨m, n, [], 0, 0, 0, [], 0, 0, 0, 0, 0, 0, [], [], 0, 0, false, false, false⟩

/-- Step 6 of bring-up: the root regions of all 64 interfaces are bound, each with its keys, and the control block of each that has a grant is written where
the platform keeps it (R472). -/
def State.presented (s : State) (m : Nat) : State :=
  let granted := s.vifs.filter fun v => v.mod == m
  let rest := ((List.range 64).filter fun n => granted.all fun v => v.vif != n).map (Vif.nothing m)
  let roots := (granted ++ rest).mapIdx fun i v => (v.root (s.meridian m)).withKeys (s.fresh + i)
  (roots.take granted.length).foldl (fun s r => s.poke m r.rcb r.block) { s with regions := s.regions ++ roots, fresh := s.fresh + 64 }

/-- Steps 1 to 6 of bring-up, all passed. -/
def State.broughtUp (s : State) (m : Nat) : State := (s.joined m).presented m

/-- RESET: the whole module `m` is reset and brought up; with `stop` from 1 to 6, bring-up stops at that step with the failure `fail`, after the steps
before it. -/
def execReset (m stop fail : Nat) (s : State) : Host.Outcome State Fault Refusal :=
  let s := (s.failover m).wiped m
  if stop = 0 ∨ 6 < stop then .next (s.broughtUp m)
  else if stop ≤ 4 then .next (s.updModule m fun a => a.stopped stop fail)
  else .next ((s.joined m).updModule m fun a => { a with boot := stop, bootFail := max 1 fail })

end Sys2Proof.Machine
end

