-- ==== Sys2Proof/Machine/VecArith.lean ====
section
/-! DEFINITION. Sys2Proof/Machine/VecArith.lean: the issue of the page-2 instructions (spec/07 R187 to R205). Each takes a dispatch-queue
entry; what its elements become is `laneVal`, `lanePred` and `runLocal` of Machine/VecElem.lean, when a cluster executes it. -/

namespace Sys2Proof.Machine

def execVadd (h : Hdr) (o : VRR) (s : State) := vissue (.vadd h o) h {} (fun _ => []) s
def execVsub (h : Hdr) (o : VRR) (s : State) := vissue (.vsub h o) h {} (fun _ => []) s
def execVmul (h : Hdr) (o : VRR) (s : State) := vissue (.vmul h o) h {} (fun _ => []) s
def execVmulh (h : Hdr) (o : VRR) (s : State) := vissue (.vmulh h o) h {} (fun _ => []) s
def execVand (h : Hdr) (o : VRR) (s : State) := vissue (.vand h o) h {} (fun _ => []) s
def execVor (h : Hdr) (o : VRR) (s : State) := vissue (.vor h o) h {} (fun _ => []) s
def execVxor (h : Hdr) (o : VRR) (s : State) := vissue (.vxor h o) h {} (fun _ => []) s
def execVsll (h : Hdr) (o : VRR) (s : State) := vissue (.vsll h o) h {} (fun _ => []) s
def execVsrl (h : Hdr) (o : VRR) (s : State) := vissue (.vsrl h o) h {} (fun _ => []) s
def execVsra (h : Hdr) (o : VRR) (s : State) := vissue (.vsra h o) h {} (fun _ => []) s
def execVmin (h : Hdr) (o : VRR) (s : State) := vissue (.vmin h o) h {} (fun _ => []) s
def execVmax (h : Hdr) (o : VRR) (s : State) := vissue (.vmax h o) h {} (fun _ => []) s
def execVminu (h : Hdr) (o : VRR) (s : State) := vissue (.vminu h o) h {} (fun _ => []) s
def execVmaxu (h : Hdr) (o : VRR) (s : State) := vissue (.vmaxu h o) h {} (fun _ => []) s
def execVaddsat (h : Hdr) (o : VRR) (s : State) := vissue (.vaddsat h o) h {} (fun _ => []) s
def execVfadd (h : Hdr) (o : VRR) (s : State) := vissue (.vfadd h o) h {} (fun _ => []) s
def execVfsub (h : Hdr) (o : VRR) (s : State) := vissue (.vfsub h o) h {} (fun _ => []) s
def execVfmul (h : Hdr) (o : VRR) (s : State) := vissue (.vfmul h o) h {} (fun _ => []) s
def execVfdiv (h : Hdr) (o : VRR) (s : State) := vissue (.vfdiv h o) h {} (fun _ => []) s
def execVfma (h : Hdr) (o : VRR) (s : State) := vissue (.vfma h o) h {} (fun _ => []) s
def execVfmin (h : Hdr) (o : VRR) (s : State) := vissue (.vfmin h o) h {} (fun _ => []) s
def execVfmax (h : Hdr) (o : VRR) (s : State) := vissue (.vfmax h o) h {} (fun _ => []) s
def execVfsqrt (h : Hdr) (o : VU) (s : State) := vissue (.vfsqrt h o) h {} (fun _ => []) s
def execVfexp2 (h : Hdr) (o : VU) (s : State) := vissue (.vfexp2 h o) h {} (fun _ => []) s
def execVcmp (h : Hdr) (o : VCM) (s : State) := vissue (.vcmp h o) h {} (fun _ => []) s
def execVfcmp (h : Hdr) (o : VCM) (s : State) := vissue (.vfcmp h o) h {} (fun _ => []) s
def execVsel (h : Hdr) (o : VRR) (s : State) := vissue (.vsel h o) h {} (fun _ => []) s
def execVid (h : Hdr) (o : VBC) (s : State) := vissue (.vid h o) h {} (fun _ => []) s
def execVmerge (h : Hdr) (o : VU) (s : State) := vissue (.vmerge h o) h {} (fun _ => []) s
def execVclass (h : Hdr) (o : VU) (s : State) := vissue (.vclass h o) h {} (fun _ => []) s
/-- `vbcast` captures `xB` at issue (R203). -/
def execVbcast (h : Hdr) (o : VBC) (s : State) :=
  vissue (.vbcast h o) h { xr := RegImm.regs o.t } (fun s => (RegImm.regs o.t).map s.x) s

end Sys2Proof.Machine
end

