-- ==== Sys2Proof/Machine/Dispatch.lean ====
section
/-! DEFINITION. Sys2Proof/Machine/Dispatch.lean: one arm for each constructor of Instr. -/

namespace Sys2Proof.Machine

def exec (i : Instr) (s : State) : Host.Outcome State Fault Refusal :=
  match i with
  | .add h o => Sys2Proof.Machine.execAdd h o s
  | .sub h o => Sys2Proof.Machine.execSub h o s
  | .and h o => Sys2Proof.Machine.execAnd h o s
  | .or h o => Sys2Proof.Machine.execOr h o s
  | .xor h o => Sys2Proof.Machine.execXor h o s
  | .sll h o => Sys2Proof.Machine.execSll h o s
  | .srl h o => Sys2Proof.Machine.execSrl h o s
  | .sra h o => Sys2Proof.Machine.execSra h o s
  | .slt h o => Sys2Proof.Machine.execSlt h o s
  | .sltu h o => Sys2Proof.Machine.execSltu h o s
  | .li h o => Sys2Proof.Machine.execLi h o s
  | .lhi h o => Sys2Proof.Machine.execLhi h o s
  | .ld h o => Sys2Proof.Machine.execLd h o s
  | .st h o => Sys2Proof.Machine.execSt h o s
  | .beq h o => Sys2Proof.Machine.execBeq h o s
  | .bne h o => Sys2Proof.Machine.execBne h o s
  | .blt h o => Sys2Proof.Machine.execBlt h o s
  | .bge h o => Sys2Proof.Machine.execBge h o s
  | .bltu h o => Sys2Proof.Machine.execBltu h o s
  | .bgeu h o => Sys2Proof.Machine.execBgeu h o s
  | .jal h o => Sys2Proof.Machine.execJal h o s
  | .jalr h o => Sys2Proof.Machine.execJalr h o s
  | .fence h o => Sys2Proof.Machine.execFence h o s
  | .fenceComplete n => Sys2Proof.Machine.execFenceComplete n s
  | .mul h o => Sys2Proof.Machine.execMul h o s
  | .addq h o => Sys2Proof.Machine.execAddq h o s
  | .la h o => Sys2Proof.Machine.execLa h o s
  | .mfcr h o => Sys2Proof.Machine.execMfcr h o s
  | .mfcrStream h o => Sys2Proof.Machine.execMfcrStream h o s
  | .mtcr h o => Sys2Proof.Machine.execMtcr h o s
  | .mtcrVl h o => Sys2Proof.Machine.execMtcrVl h o s
  | .mtcrEfc h o => Sys2Proof.Machine.execMtcrEfc h o s
  | .mtcrFpcsr h o => Sys2Proof.Machine.execMtcrFpcsr h o s
  | .mtcrSlip h o => Sys2Proof.Machine.execMtcrSlip h o s
  | .mtcrSattr h o => Sys2Proof.Machine.execMtcrSattr h o s
  | .mtcrGangto h o => Sys2Proof.Machine.execMtcrGangto h o s
  | .brk h o => Sys2Proof.Machine.execBrk h o s
  | .ecall h o => Sys2Proof.Machine.execEcall h o s
  | .udf c => Sys2Proof.Machine.execUdf c s
  | .mulh h o => Sys2Proof.Machine.execMulh h o s
  | .mulhu h o => Sys2Proof.Machine.execMulhu h o s
  | .div h o => Sys2Proof.Machine.execDiv h o s
  | .divu h o => Sys2Proof.Machine.execDivu h o s
  | .rem h o => Sys2Proof.Machine.execRem h o s
  | .remu h o => Sys2Proof.Machine.execRemu h o s
  | .clz h o => Sys2Proof.Machine.execClz h o s
  | .ctz h o => Sys2Proof.Machine.execCtz h o s
  | .popc h o => Sys2Proof.Machine.execPopc h o s
  | .rotl h o => Sys2Proof.Machine.execRotl h o s
  | .bext h o => Sys2Proof.Machine.execBext h o s
  | .bdep h o => Sys2Proof.Machine.execBdep h o s
  | .min h o => Sys2Proof.Machine.execMin h o s
  | .max h o => Sys2Proof.Machine.execMax h o s
  | .minu h o => Sys2Proof.Machine.execMinu h o s
  | .maxu h o => Sys2Proof.Machine.execMaxu h o s
  | .amoadd h o => Sys2Proof.Machine.execAmoadd h o s
  | .amoswap h o => Sys2Proof.Machine.execAmoswap h o s
  | .amocas h o => Sys2Proof.Machine.execAmocas h o s
  | .amomax h o => Sys2Proof.Machine.execAmomax h o s
  | .amoor h o => Sys2Proof.Machine.execAmoor h o s
  | .amoand h o => Sys2Proof.Machine.execAmoand h o s
  | .fadd h o => Sys2Proof.Machine.execFadd h o s
  | .fsub h o => Sys2Proof.Machine.execFsub h o s
  | .fmul h o => Sys2Proof.Machine.execFmul h o s
  | .fdiv h o => Sys2Proof.Machine.execFdiv h o s
  | .fmadd h o => Sys2Proof.Machine.execFmadd h o s
  | .fcmp h o => Sys2Proof.Machine.execFcmp h o s
  | .fcvt h o => Sys2Proof.Machine.execFcvt h o s
  | .fsqrt h o => Sys2Proof.Machine.execFsqrt h o s
  | .rdtime h o => Sys2Proof.Machine.execRdtime h o s
  | .vadd h o => Sys2Proof.Machine.execVadd h o s
  | .vsub h o => Sys2Proof.Machine.execVsub h o s
  | .vmul h o => Sys2Proof.Machine.execVmul h o s
  | .vmulh h o => Sys2Proof.Machine.execVmulh h o s
  | .vand h o => Sys2Proof.Machine.execVand h o s
  | .vor h o => Sys2Proof.Machine.execVor h o s
  | .vxor h o => Sys2Proof.Machine.execVxor h o s
  | .vsll h o => Sys2Proof.Machine.execVsll h o s
  | .vsrl h o => Sys2Proof.Machine.execVsrl h o s
  | .vsra h o => Sys2Proof.Machine.execVsra h o s
  | .vmin h o => Sys2Proof.Machine.execVmin h o s
  | .vmax h o => Sys2Proof.Machine.execVmax h o s
  | .vminu h o => Sys2Proof.Machine.execVminu h o s
  | .vmaxu h o => Sys2Proof.Machine.execVmaxu h o s
  | .vaddsat h o => Sys2Proof.Machine.execVaddsat h o s
  | .vfadd h o => Sys2Proof.Machine.execVfadd h o s
  | .vfsub h o => Sys2Proof.Machine.execVfsub h o s
  | .vfmul h o => Sys2Proof.Machine.execVfmul h o s
  | .vfdiv h o => Sys2Proof.Machine.execVfdiv h o s
  | .vfma h o => Sys2Proof.Machine.execVfma h o s
  | .vfmin h o => Sys2Proof.Machine.execVfmin h o s
  | .vfmax h o => Sys2Proof.Machine.execVfmax h o s
  | .vfsqrt h o => Sys2Proof.Machine.execVfsqrt h o s
  | .vfexp2 h o => Sys2Proof.Machine.execVfexp2 h o s
  | .vcmp h o => Sys2Proof.Machine.execVcmp h o s
  | .vfcmp h o => Sys2Proof.Machine.execVfcmp h o s
  | .vsel h o => Sys2Proof.Machine.execVsel h o s
  | .vbcast h o => Sys2Proof.Machine.execVbcast h o s
  | .vid h o => Sys2Proof.Machine.execVid h o s
  | .vmerge h o => Sys2Proof.Machine.execVmerge h o s
  | .vclass h o => Sys2Proof.Machine.execVclass h o s
  | .vld h o => Sys2Proof.Machine.execVld h o s
  | .vlds h o => Sys2Proof.Machine.execVlds h o s
  | .vldx h o => Sys2Proof.Machine.execVldx h o s
  | .vst h o => Sys2Proof.Machine.execVst h o s
  | .vsts h o => Sys2Proof.Machine.execVsts h o s
  | .vstx h o => Sys2Proof.Machine.execVstx h o s
  | .vlsp h o => Sys2Proof.Machine.execVlsp h o s
  | .vlspx h o => Sys2Proof.Machine.execVlspx h o s
  | .vssp h o => Sys2Proof.Machine.execVssp h o s
  | .vsspx h o => Sys2Proof.Machine.execVsspx h o s
  | .vlspc h o => Sys2Proof.Machine.execVlspc h o s
  | .vldc h o => Sys2Proof.Machine.execVldc h o s
  | .vstc h o => Sys2Proof.Machine.execVstc h o s
  | .vperm h o => Sys2Proof.Machine.execVperm h o s
  | .vslide h o => Sys2Proof.Machine.execVslide h o s
  | .vredsum h o => Sys2Proof.Machine.execVredsum h o s
  | .vredmax h o => Sys2Proof.Machine.execVredmax h o s
  | .vredmin h o => Sys2Proof.Machine.execVredmin h o s
  | .vfredsum h o => Sys2Proof.Machine.execVfredsum h o s
  | .vscan h o => Sys2Proof.Machine.execVscan h o s
  | .vcompress h o => Sys2Proof.Machine.execVcompress h o s
  | .vappend h o => Sys2Proof.Machine.execVappend h o s
  | .vcvt h o => Sys2Proof.Machine.execVcvt h o s
  | .vcvtef h o => Sys2Proof.Machine.execVcvtef h o s
  | .plog h o => Sys2Proof.Machine.execPlog h o s
  | .pcnt h o => Sys2Proof.Machine.execPcnt h o s
  | .pfirst h o => Sys2Proof.Machine.execPfirst h o s
  | .setvl h o => Sys2Proof.Machine.execSetvl h o s
  | .vmvx h o => Sys2Proof.Machine.execVmvx h o s
  | .vmvv h o => Sys2Proof.Machine.execVmvv h o s
  | .vfault h o => Sys2Proof.Machine.execVfault h o s
  | .vectorAddressStage n => Sys2Proof.Machine.execVectorAddressStage n s
  | .clusterExecuteEntry n g b stall ns => Sys2Proof.Machine.execClusterExecuteEntry n g b stall ns s
  | .mcfg h o => Sys2Proof.Machine.execMcfg h o s
  | .mscl h o => Sys2Proof.Machine.execMscl h o s
  | .mgrp h o => Sys2Proof.Machine.execMgrp h o s
  | .mclr h o => Sys2Proof.Machine.execMclr h o s
  | .mma h o => Sys2Proof.Machine.execMma h o s
  | .gangStall n => Sys2Proof.Machine.execGangStall n s
  | .mmaGroupStep n => Sys2Proof.Machine.execMmaGroupStep n s
  | .mldacc h o => Sys2Proof.Machine.execMldacc h o s
  | .mdrn h o => Sys2Proof.Machine.execMdrn h o s
  | .mdrnx h o => Sys2Proof.Machine.execMdrnx h o s
  | .drainLine n => Sys2Proof.Machine.execDrainLine n s
  | .mstat h o => Sys2Proof.Machine.execMstat h o s
  | .mstclr h o => Sys2Proof.Machine.execMstclr h o s
  | .cpy h o => Sys2Proof.Machine.execCpy h o s
  | .cpy2 h o => Sys2Proof.Machine.execCpy2 h o s
  | .cpypToScratch h o => Sys2Proof.Machine.execCpypToScratch h o s
  | .cpypFromScratch h o => Sys2Proof.Machine.execCpypFromScratch h o s
  | .cpykGet h o => Sys2Proof.Machine.execCpykGet h o s
  | .cpykPut h o => Sys2Proof.Machine.execCpykPut h o s
  | .copyUnit n => Sys2Proof.Machine.execCopyUnit n s
  | .coll h o => Sys2Proof.Machine.execColl h o s
  | .collStepBegin n => Sys2Proof.Machine.execCollStepBegin n s
  | .collNoticeArrival n => Sys2Proof.Machine.execCollNoticeArrival n s
  | .collNoticeResend n => Sys2Proof.Machine.execCollNoticeResend n s
  | .collNoticeTimeout n => Sys2Proof.Machine.execCollNoticeTimeout n s
  | .swait h o => Sys2Proof.Machine.execSwait h o s
  | .stest h o => Sys2Proof.Machine.execStest h o s
  | .scancel h o => Sys2Proof.Machine.execScancel h o s
  | .sdetach h o => Sys2Proof.Machine.execSdetach h o s
  | .sprio h o => Sys2Proof.Machine.execSprio h o s
  | .sfault h o => Sys2Proof.Machine.execSfault h o s
  | .sadopt h o => Sys2Proof.Machine.execSadopt h o s
  | .swaitall h => Sys2Proof.Machine.execSwaitall h s
  | .sleepu h o => Sys2Proof.Machine.execSleepu h o s
  | .spromise h o => Sys2Proof.Machine.execSpromise h o s
  | .sattr h o => Sys2Proof.Machine.execSattr h o s
  | .cdrain h o => Sys2Proof.Machine.execCdrain h o s
  | .parkWake n => Sys2Proof.Machine.execParkWake n s
  | .satelliteLaunch n => Sys2Proof.Machine.execSatelliteLaunch n s
  | .satelliteBegin n => Sys2Proof.Machine.execSatelliteBegin n s
  | .satellitePriorityAging n => Sys2Proof.Machine.execSatellitePriorityAging n s
  | .promiseMiss n => Sys2Proof.Machine.execPromiseMiss n s
  | .kld h o => Sys2Proof.Machine.execKld h o s
  | .kst h o => Sys2Proof.Machine.execKst h o s
  | .kmov h o => Sys2Proof.Machine.execKmov h o s
  | .knarrow h o => Sys2Proof.Machine.execKnarrow h o s
  | .krights h o => Sys2Proof.Machine.execKrights h o s
  | .kgive h o => Sys2Proof.Machine.execKgive h o s
  | .kpaths h o => Sys2Proof.Machine.execKpaths h o s
  | .kinfo h o => Sys2Proof.Machine.execKinfo h o s
  | .rld h o => Sys2Proof.Machine.execRld h o s
  | .rst h o => Sys2Proof.Machine.execRst h o s
  | .ramoAdd h o => Sys2Proof.Machine.execRamoAdd h o s
  | .ramoSwap h o => Sys2Proof.Machine.execRamoSwap h o s
  | .ramoCas h o => Sys2Proof.Machine.execRamoCas h o s
  | .ramoMax h o => Sys2Proof.Machine.execRamoMax h o s
  | .ramoOr h o => Sys2Proof.Machine.execRamoOr h o s
  | .ramoAnd h o => Sys2Proof.Machine.execRamoAnd h o s
  | .ramoAddn h o => Sys2Proof.Machine.execRamoAddn h o s
  | .rvld h o => Sys2Proof.Machine.execRvld h o s
  | .rvst h o => Sys2Proof.Machine.execRvst h o s
  | .send h o => Sys2Proof.Machine.execSend h o s
  | .sendR h o => Sys2Proof.Machine.execSendR h o s
  | .sendr h o => Sys2Proof.Machine.execSendr h o s
  | .hclr h o => Sys2Proof.Machine.execHclr h o s
  | .hset h o => Sys2Proof.Machine.execHset h o s
  | .hret h => Sys2Proof.Machine.execHret h s
  | .hmask h o => Sys2Proof.Machine.execHmask h o s
  | .sqfree h o => Sys2Proof.Machine.execSqfree h o s
  | .spawn h o => Sys2Proof.Machine.execSpawn h o s
  | .spawnQueue n => Sys2Proof.Machine.execSpawnQueue n s
  | .exit h => Sys2Proof.Machine.execExit h s
  | .yield h => Sys2Proof.Machine.execYield h s
  | .jdec h o => Sys2Proof.Machine.execJdec h o s
  | .rett h => Sys2Proof.Machine.execRett h s
  | .mfpr h o => Sys2Proof.Machine.execMfpr h o s
  | .mtpr h o => Sys2Proof.Machine.execMtpr h o s
  | .mtprMchkClear h o => Sys2Proof.Machine.execMtprMchkClear h o s
  | .tlbi h o => Sys2Proof.Machine.execTlbi h o s
  | .icinv h => Sys2Proof.Machine.execIcinv h s
  | .cflush h o => Sys2Proof.Machine.execCflush h o s
  | .ctxsave h o => Sys2Proof.Machine.execCtxsave h o s
  | .ctxload h o => Sys2Proof.Machine.execCtxload h o s
  | .rgnbindBind h o => Sys2Proof.Machine.execRgnbindBind h o s
  | .rgnbindReload h o => Sys2Proof.Machine.execRgnbindReload h o s
  | .rgnbindEnd h o => Sys2Proof.Machine.execRgnbindEnd h o s
  | .qmap h o => Sys2Proof.Machine.execQmap h o s
  | .trcctl h o => Sys2Proof.Machine.execTrcctl h o s
  | .kmint h o => Sys2Proof.Machine.execKmint h o s
  | .krekeyAdvance h o => Sys2Proof.Machine.execKrekeyAdvance h o s
  | .krekeyRotate h o => Sys2Proof.Machine.execKrekeyRotate h o s
  | .wfi h => Sys2Proof.Machine.execWfi h s
  | .pstateSet h o => Sys2Proof.Machine.execPstateSet h o s
  | .pstateRead h o => Sys2Proof.Machine.execPstateRead h o s
  | .longLatencyResult n o => Sys2Proof.Machine.execLongLatencyResult n o s
  | .storeHomeFailure n => Sys2Proof.Machine.execStoreHomeFailure n s
  | .eventBoundary n => Sys2Proof.Machine.execEventBoundary n s
  | .messageAccept n => Sys2Proof.Machine.execMessageAccept n s
  | .handlerStart n c g => Sys2Proof.Machine.execHandlerStart n c g s
  | .handlerBusyTimeout n => Sys2Proof.Machine.execHandlerBusyTimeout n s
  | .handlerCycleLimit n => Sys2Proof.Machine.execHandlerCycleLimit n s
  | .sendAck n => Sys2Proof.Machine.execSendAck n s
  | .messageReturn n => Sys2Proof.Machine.execMessageReturn n s
  | .replyAccept n => Sys2Proof.Machine.execReplyAccept n s
  | .remoteResponse n => Sys2Proof.Machine.execRemoteResponse n s
  | .ingressPacket n => Sys2Proof.Machine.execIngressPacket n s
  | .egressCheck n => Sys2Proof.Machine.execEgressCheck n s
  | .vaultForward n => Sys2Proof.Machine.execVaultForward n s
  | .retransmit n => Sys2Proof.Machine.execRetransmit n s
  | .endToEndFailure n => Sys2Proof.Machine.execEndToEndFailure n s
  | .streamStateRelease m d t => Sys2Proof.Machine.execStreamStateRelease m d t s
  | .flitReceive ep p f => Sys2Proof.Machine.execFlitReceive ep p f s
  | .ackTimeout ep p => Sys2Proof.Machine.execAckTimeout ep p s
  | .linkRetrain ep p lanes => Sys2Proof.Machine.execLinkRetrain ep p lanes s
  | .beaconExchange m s1 a1 s2 a2 => Sys2Proof.Machine.execBeaconExchange m s1 a1 s2 a2 s
  | .meridianFreeRun m => Sys2Proof.Machine.execMeridianFreeRun m s
  | .referenceFailover m => Sys2Proof.Machine.execReferenceFailover m s
  | .keywrightTakeover m => Sys2Proof.Machine.execKeywrightTakeover m s
  | .rotationAcknowledged => Sys2Proof.Machine.execRotationAcknowledged s
  | .tagGraceExpiry => Sys2Proof.Machine.execTagGraceExpiry s
  | .slotBoundary m d r => Sys2Proof.Machine.execSlotBoundary m d r s
  | .queueAging m d r => Sys2Proof.Machine.execQueueAging m d r s
  | .threadPlace n c x g q => Sys2Proof.Machine.execThreadPlace n c x g q s
  | .threadQuantum n => Sys2Proof.Machine.execThreadQuantum n s
  | .timeBudgetSpent m r => Sys2Proof.Machine.execTimeBudgetSpent m r s
  | .timePeriodBegin m r => Sys2Proof.Machine.execTimePeriodBegin m r s
  | .lifetimeBudget m r n => Sys2Proof.Machine.execLifetimeBudget m r n s
  | .contextSaveStage2 n => Sys2Proof.Machine.execContextSaveStage2 n s
  | .drainLimitExpiry n => Sys2Proof.Machine.execDrainLimitExpiry n s
  | .scratchpadMove m r d c d2 c2 => Sys2Proof.Machine.execScratchpadMove m r d c d2 c2 s
  | .launchBind n => Sys2Proof.Machine.execLaunchBind n s
  | .launchCreateThread n => Sys2Proof.Machine.execLaunchCreateThread n s
  | .launchEndRegion n => Sys2Proof.Machine.execLaunchEndRegion n s
  | .launchReload n => Sys2Proof.Machine.execLaunchReload n s
  | .hostQueueWrite m v q => Sys2Proof.Machine.execHostQueueWrite m v q s
  | .traceSample m d r => Sys2Proof.Machine.execTraceSample m d r s
  | .traceFlush m d => Sys2Proof.Machine.execTraceFlush m d s
  | .powerEvent m d temp watts => Sys2Proof.Machine.execPowerEvent m d temp watts s
  | .captureEnd m d => Sys2Proof.Machine.execCaptureEnd m d s
  | .energyMeter m d c r nj => Sys2Proof.Machine.execEnergyMeter m d c r nj s
  | .powerLimitStep m d up => Sys2Proof.Machine.execPowerLimitStep m d up s
  | .thermalThrottle m d on => Sys2Proof.Machine.execThermalThrottle m d on s
  | .thermalTrip m d => Sys2Proof.Machine.execThermalTrip m d s
  | .scrub ep => Sys2Proof.Machine.execScrub ep s
  | .uncorrectableError m d c unit pa who => Sys2Proof.Machine.execUncorrectableError m d c unit pa who s
  | .reset m stop fail => Sys2Proof.Machine.execReset m stop fail s
  | .attestationRequest m nonce => Sys2Proof.Machine.execAttestationRequest m nonce s
  | .joinDecrement n => Sys2Proof.Machine.execJoinDecrement n s
  | .tlbiDone n => Sys2Proof.Machine.execTlbiDone n s
  | .mldaccLine n => Sys2Proof.Machine.execMldaccLine n s
  | .injectionRelease n => Sys2Proof.Machine.execInjectionRelease n s
  | .portReset ep p => Sys2Proof.Machine.execPortReset ep p s
  | .hostInterfaceTakeover m => Sys2Proof.Machine.execHostInterfaceTakeover m s

end Sys2Proof.Machine
end

