-- ==== Sys2Proof/Machine/Turn.lean ====
section
/-! DEFINITION. Sys2Proof/Machine/Turn.lean: the turn of an agent: the boundary before the next chain (spec/15 R377), then fetch, decode and the
instruction's meaning (spec/03 R75, spec/02 R34), and what the clock and the trace see of it. -/

namespace Sys2Proof.Machine

/-- The outcome of an instruction, with something done to its next state. -/
def afterwards (f : State → State) : Host.Outcome State Fault Refusal → Host.Outcome State Fault Refusal
  | .next t => .next (f t)
  | .fault r => .fault r
  | .refused r => .refused r

/-- The latest turn that any agent has had. -/
def State.lastTurn (s : State) : Nat := s.agents.foldl (fun n a => max n a.turn) 0

/-- A turn takes one cycle of the agent's core. -/
def State.ticked (s : State) : State :=
  let n := s.lastTurn
  (s.addCycles s.me.loc 1).upd fun a => { a with turn := n + 1 }

/-- What follows an instruction of an agent that was `a` before it: a STATE record where it parked (spec/19 R454); a chain that is done may be watched
again; one cycle. -/
def State.settled (a : Agent) (s : State) : State :=
  let parks := match s.me.life with
    | .parked _ => a.life != s.me.life
    | _ => false
  let s := if parks then s.traceState s.me 1 0 else s
  let s := if a.order = s.me.order && a.pc == s.me.pc then s else s.upd fun a => { a with debugSkip := false }
  s.ticked

/-- Fetch, decode and run the chain at the program counter of the agent whose turn it is. -/
def State.runChain (s : State) : Host.Outcome State Fault Refusal :=
  match s.fetch with
  | .trap t s' => .next ((s'.takeTrap t).settled s.me)
  | .instr i s' => afterwards (State.settled s.me) (exec i s')

/-- An agent that issues: placed, ready, and no stop of its stream under way. -/
def Agent.issues (a : Agent) : Bool := a.placed && a.life == .ready && !a.stopping

/-- How many contexts after the one that issued last a context of a core comes. -/
def afterLast (last ctx : Nat) : Nat := (ctx + 15 - last) % 16

/-- Round robin among the ready contexts of a core (spec/02 R35): none of the others that issue comes between the context that issued last and that of
`State.me`. -/
def State.robin (s : State) : Bool :=
  let last := s.lastIssued s.me.loc
  s.others.all fun b => b.loc != s.me.loc || !b.issues || decide (afterLast last s.me.ctx ≤ afterLast last b.ctx)

/-- The turn of the agent `State.me`. It issues when the round robin has come to it, and has no turn before. -/
def State.myTurn (s : State) : Host.Outcome State Fault Refusal :=
  if (s.die s.me.loc.mod s.me.loc.die).tripped then .fault .clocksStopped
  else match s.nextEvent with
    | some t => .next t.ticked
    | none =>
      if !s.me.issues then .next s.ticked
      else if !s.robin then .next s
      else (s.issuedBy s.me.loc s.me.ctx).watchCode.runChain

/-- The turn of an agent by its handle; nothing for a handle that no agent has. -/
def State.turn (s : State) (uid : Nat) : Host.Outcome State Fault Refusal :=
  match s.agent? uid with
  | none => .next s
  | some _ => (s.focus uid).myTurn

end Sys2Proof.Machine
end

