-- ==== Sys2Proof/Machine/Moves.lean ====
section
/-! DEFINITION. Sys2Proof/Machine/Moves.lean: the moves of the schedule (log entry 3): turns, the table's events, the passage of time, and what the
environment does. -/

namespace Sys2Proof.Machine

/-- How many hardware contexts a region's threads and handlers hold. -/
def State.contextsOf (s : State) (r : Region) : Nat :=
  countIf (fun a : Agent => a.loc.mod == r.mod && a.rid == r.rid && a.placed && a.life != .exited) s.agents

/-- The thread of a region that is charged as its budget runs out: of those that hold contexts then, the first (log entry 60). -/
def State.chargedOf (s : State) (r : Region) : Nat :=
  ((s.agents.find? fun a => a.loc.mod == r.mod && a.rid == r.rid && a.placed && a.life != .exited).map fun a => a.tidWord.toNat).getD 0

/-- Meridian time passes: a region is charged one core-ns for every ns of every context that it holds (spec/16 R403, R406, R410). -/
def State.pass (s : State) (ns : Nat) : State :=
  let charge (r : Region) : Region :=
    let n := ns * s.contextsOf r
    let by_ := if r.used < r.hardns && r.hardns ≤ r.used + n then s.chargedOf r else r.spentBy
    if r.state == .bound then { r with used := (r.used + n) % 2 ^ 64, periodUsed := r.periodUsed + n, spentBy := by_ } else r
  { s with now := s.now + ns, regions := s.regions.map charge }

/-- A line leaves a core's instruction cache (spec/03 R93). -/
def State.dropCode (s : State) (l : Loc) (line : Nat) : State :=
  { s with icache := s.icache.filter fun c => !(c.loc == l && c.line == line) }

/-- The host sends a launch message, refused with reason 0x82 until bring-up has ended (spec/16 R414, spec/20 R464). -/
def State.hostSends (s : State) (q : Launch) : State :=
  if q.host.isNone then s
  else if (s.module? q.mod).any ModuleState.ready then { s with launches := s.launches ++ [q] }
  else s.updModule q.mod fun a => { a with refusals := a.refusals ++ [0x82] }

/-- The block that a launching region gives with the launch message `n`: handler entries and keys, and whether the message is one of its `thread` clauses
(spec/03 R98, R99). -/
def State.giveBlock (s : State) (n : Nat) (handlers : List (Nat × Word)) (keys : List (Nat × Key)) (thread : Bool) : State :=
  match s.launches[n]? with
  | some q => if q.host.isSome then s else { s with launches := s.launches.set n { q with handlers := handlers, keys := keys, ofBlock := thread } }
  | none => s

/-- The host consumes the oldest `k` entries of a host queue (spec/16 R413). -/
def State.hostTakes (s : State) (mod vif n k : Nat) : State :=
  let q := s.hostq mod vif n
  s.setHostq { q with entries := q.entries.drop k }

/-- A host queue's ring is placed; it is never smaller than what the queue holds. -/
def State.sizeQueue (s : State) (mod vif n base size : Nat) : State :=
  let q := s.hostq mod vif n
  s.setHostq { q with base := base, size := max size q.entries.length }

/-- Bytes from outside reach memory at their home, line by line: a line written whole is poisoned no more, and a counted line refuses them (R139). -/
def State.bringIn (s : State) (ep pa : Nat) (bs : List Byte) : State :=
  let rec go (s : State) : List (Nat × Nat) → List Byte → State
    | [], _ => s
    | (a, n) :: t, bs =>
      let s := if (s.counted? ep (a / 128)).isSome then s else (s.homeStore .none ep 0 a (bs.take n)).renewL2 ep (a / 128)
      go s t (bs.drop n)
  go s (lineSpans (bs.length / 128 + 2) pa bs.length) bs

/-- Lines of memory placed on a die before a module is up: from then on a line's home does not change (spec/01 R22). Two HBM4E stacks hold 128 GB (spec/00
R1), that is 10^9 lines. -/
def State.placeHome (s : State) (line n die : Nat) : State :=
  let held := ((s.homes.filter fun h => h.2.2 % 8 == die % 8).map fun h => h.2.1).sum
  if s.modules.any ModuleState.up || 1000000000 < held + n then s else { s with homes := (line, n, die) :: s.homes }

/-- A module is attached to the domain's vault nodes, not yet brought up. A domain has 512 modules, and a module's number is one of them (spec/01 R16). -/
def State.attachModule (s : State) (m : Nat) (serial : Word) (build : Nat) : State :=
  if 512 ≤ m then s
  else if (s.module? m).isSome then s.updModule m fun a => { a with serial := serial, build := build }
  else { s with modules := s.modules ++ [{ ModuleState.reset with mod := m, serial := serial, build := build }] }

/-- The bytes of memory that some frames hold. -/
def frameBytes (l : List (Nat × Nat)) : Nat := (l.map Prod.snd).sum

/-- Step 5 of bring-up has passed: charters and grants are fixed until a full reset (spec/20 R462, R464). -/
def ModuleState.fixed (a : ModuleState) : Bool := decide (5 ≤ a.boot) && !(a.boot == 5 && a.bootFail != 0)

/-- The grant of an interface is set, before step 5 of bring-up fixes it (spec/16 R412, spec/20 R462). The frames of a module's grants lie in its 1,024 GB of HBM and its
second tier of 3,072 GB (spec/00 R1, spec/01 R28). -/
def State.setGrant (s : State) (v : Vif) : State :=
  let others := (s.vifs.filter fun a => a.mod == v.mod && a.vif != v.vif).map fun a => frameBytes a.frames
  if (s.module? v.mod).any ModuleState.fixed || 64 ≤ v.vif || 4096000000000 < others.sum + frameBytes v.frames then s
  else { s with vifs := upsert (fun a => a.mod == v.mod && a.vif == v.vif) { v with dies := v.coreDies } s.vifs }

/-- A charter is set, before bring-up has fixed it (spec/20 R462). -/
def State.setCharter (s : State) (c : Charter) : State :=
  if (s.module? c.mod).any ModuleState.fixed then s
  else { s with charters := upsert (fun a => a.mod == c.mod && a.vif == c.vif) c s.charters }

/-- The platform sets a die's ceiling: a power event where the state in force changes (spec/20 R465, spec/19 R455). -/
def State.setPlatform (s : State) (m d p : Nat) : State :=
  if 8 ≤ p then s
  else s.dieChange m d 5 fun x => { x with platCeil := p }

/-- The die of a handle's agent. -/
def State.dieOf (s : State) (uid : Nat) : Option (Nat × Nat) := (s.agent? uid).map fun a => (a.loc.mod, a.loc.die)

/-- The die of a satellite. -/
def State.dieOfSat (s : State) (sid : Nat) : Option (Nat × Nat) := (s.sats.find? fun t => t.sid == sid).map fun t => (t.loc.mod, t.loc.die)

/-- The die of the waiting message with index `n`. -/
def State.dieOfWait (s : State) (n : Nat) : Option (Nat × Nat) := s.waiting[n]?.map fun w => (w.loc.mod, w.loc.die)

/-- The die of the spawn or the join decrement `id` that waits for its release. -/
def State.dieOfDeferred (s : State) (id : Nat) : Option (Nat × Nat) := (s.deferred.find? fun d => d.id == id).map fun d => (d.loc.mod, d.loc.die)

/-- The compute die at which the packet of flight `n` has arrived: that of the memory, scratchpad or inbox which its key names. -/
def State.dieOfFlight (s : State) (n : Nat) : Option (Nat × Nat) :=
  match s.flights[n]? with
  | some f => if f.place == .ingress f.pkt.target && decide (kKind f.pkt.key < 4) then some (f.pkt.target, kDie f.pkt.key) else none
  | none => none

/-- The die whose clocks a row of the table needs, where no chain names it: that of its thread, its satellite, its message, or the one that it names. -/
def State.rowDie (s : State) : Instr → Option (Nat × Nat)
  | .fenceComplete n => s.dieOf n
  | .vectorAddressStage n => s.dieOf n
  | .clusterExecuteEntry n _ _ _ _ => s.dieOf n
  | .gangStall n => s.dieOf n
  | .parkWake n => s.dieOf n
  | .longLatencyResult n _ => s.dieOf n
  | .eventBoundary n => s.dieOf n
  | .handlerCycleLimit n => s.dieOf n
  | .threadQuantum n => s.dieOf n
  | .contextSaveStage2 n => s.dieOf n
  | .drainLimitExpiry n => s.dieOf n
  | .threadPlace n c _ _ _ => (s.dieOf n).map fun q => (q.1, c / 128)
  | .mmaGroupStep n => s.dieOfSat n
  | .drainLine n => s.dieOfSat n
  | .copyUnit n => s.dieOfSat n
  | .collStepBegin n => s.dieOfSat n
  | .collNoticeResend n => s.dieOfSat n
  | .collNoticeTimeout n => s.dieOfSat n
  | .satelliteLaunch n => s.dieOfSat n
  | .satelliteBegin n => s.dieOfSat n
  | .satellitePriorityAging n => s.dieOfSat n
  | .promiseMiss n => s.dieOfSat n
  | .mldaccLine n => s.dieOfSat n
  | .tlbiDone n => s.dieOfSat n
  | .handlerStart n _ _ => s.dieOfWait n
  | .handlerBusyTimeout n => s.dieOfWait n
  | .spawnQueue n => s.dieOfDeferred n
  | .joinDecrement n => s.dieOfDeferred n
  | .ingressPacket n => s.dieOfFlight n
  | .messageAccept n => s.dieOfFlight n
  | .replyAccept n => s.dieOfFlight n
  | .collNoticeArrival n => s.dieOfFlight n
  | .slotBoundary m d _ => some (m, d)
  | .queueAging m d _ => some (m, d)
  | .scratchpadMove m _ d _ _ _ => some (m, d)
  | .traceSample m d _ => some (m, d)
  | .traceFlush m d => some (m, d)
  | .powerEvent m d _ _ => some (m, d)
  | .captureEnd m d => some (m, d)
  | .energyMeter m d _ _ _ => some (m, d)
  | .powerLimitStep m d _ => some (m, d)
  | .thermalThrottle m d _ => some (m, d)
  | .thermalTrip m d => some (m, d)
  | .uncorrectableError m d _ _ _ _ => some (m, d)
  | _ => none

/-- The clocks that a row of the table needs have been stopped by a thermal trip (spec/20 R465). -/
def State.rowStopped (s : State) (i : Instr) : Bool := (s.rowDie i).any fun q => (s.die q.1 q.2).tripped

/-- What the hardware's timing or the environment does in one move. A chain's instruction never occurs by itself. -/
def State.move (s : State) : Move → Host.Outcome State Fault Refusal
  | .turn uid => s.turn uid
  | .occur i => if (Instr.chain i).isSome then .next s else if s.rowStopped i then .fault .clocksStopped else exec i s
  | .pass ns => .next (s.pass ns)
  | .clock l n => if (s.die l.mod l.die).tripped then .fault .clocksStopped else .next (s.addCycles l n)
  | .evictRdc m d ep line => .next (s.evictRdc m d ep line)
  | .dropCode l line => .next (s.dropCode l line)
  | .dropTlb n => .next { s with tlb := s.tlb.eraseIdx n }
  | .migrate uid d => .next (s.migrate uid d)
  | .hostLaunch q => .next (s.hostSends q)
  | .hostTake m v n k => .next (s.hostTakes m v n k)
  | .bring ep pa bs => .next (s.bringIn ep pa bs)
  | .home line n d => .next (s.placeHome line n d)
  | .attach m serial build => .next (s.attachModule m serial build)
  | .grant v => .next (s.setGrant v)
  | .charter c => .next (s.setCharter c)
  | .hostQueue m v n base size => .next (s.sizeQueue m v n base size)
  | .ceiling m d p => .next (s.setPlatform m d p)
  | .advance => .next s.advanceDone
  | .showRegion m r => .next (s.showRegion m r)
  | .drift m ahead => .next (s.drift m ahead)
  | .block n hs ks thread => .next (s.giveBlock n hs ks thread)

end Sys2Proof.Machine
end

