-- ==== Sys2Proof/Machine/Auto.lean ====
section
/-! DEFINITION. Sys2Proof/Machine/Auto.lean: what happens when the schedule names no move: the first event of the table that is enabled, else the turn of
the agent that has waited longest, else time passes (log entry 3). -/

namespace Sys2Proof.Machine

/-! ### Events that may be enabled -/

/-- An event of the table with its operands: the meaning of its row. -/
abbrev Event := State → Host.Outcome State Fault Refusal

/-- An entry, where a condition holds. -/
def list1 {α : Type} (b : Bool) (x : α) : List α := if b then [x] else []

/-- Events of an agent's results, parks and stream. -/
def State.agentEvents (s : State) (a : Agent) : List Event :=
  let stream := list1 (a.queue.any fun e => !e.passed) (execVectorAddressStage a.uid)
      ++ (if a.queue.isEmpty then [] else (List.range a.done.length).map fun g => execClusterExecuteEntry a.uid g (s.meridian a.loc.mod) 0 0)
  if (s.die a.loc.mod a.loc.die).tripped then []
  else if a.life == .exited then stream
  else
    ((a.inflight.filter Inflight.ready).map fun i => execLongLatencyResult a.uid i.order)
      ++ list1 (s.parkOver a) (execParkWake a.uid)
      ++ list1 (a.life == .fencing) (execFenceComplete a.uid)
      ++ stream
      ++ list1 a.isHandler (execHandlerCycleLimit a.uid)
      ++ (if a.saved && a.life == .queued && !a.complete then [execContextSaveStage2 a.uid, execDrainLimitExpiry a.uid] else [])
      ++ list1 (a.placed && !a.isHandler) (execThreadQuantum a.uid)

/-- Events of a satellite. -/
def State.satEvents (s : State) (t : Sat) : List Event :=
  if t.terminal || (s.die t.loc.mod t.loc.die).tripped then []
  else
    [execSatelliteLaunch t.sid, execPromiseMiss t.sid, execSatellitePriorityAging t.sid, execSatelliteBegin t.sid, execCollStepBegin t.sid, execCopyUnit t.sid,
      execCollNoticeResend t.sid, execCollNoticeTimeout t.sid, execMmaGroupStep t.sid, execMldaccLine t.sid, execDrainLine t.sid, execTlbiDone t.sid]

/-- Events of the packet with index `n`. -/
def State.flightEvents (s : State) (n : Nat) : List Event :=
  if s.rowStopped (.ingressPacket n) then []
  else [execEgressCheck n, execVaultForward n, execIngressPacket n, execMessageAccept n, execReplyAccept n, execCollNoticeArrival n, execRemoteResponse n, execSendAck n,
    execMessageReturn n]

/-- Events of an outstanding request. -/
def requestEvents (q : Request) : List Event := [execInjectionRelease q.req, execRetransmit q.req, execEndToEndFailure q.req]

/-- Events of the waiting message with index `n`: its handler starts in the first free context and share. -/
def State.waitingEvents (s : State) (n : Nat) (w : Waiting) : List Event :=
  if s.rowStopped (.handlerStart n 0 0) then []
  else [execHandlerStart n ((s.handlerContexts w.loc).headD 8) ((s.handlerShares w.loc).headD 4), execHandlerBusyTimeout n]

/-- Where a queued thread may be placed: the core that its creation named, its own column for a gang, or any core of its die. -/
def State.placeEvents (s : State) (a : Agent) : List Event :=
  if a.life != .queued || a.hold || a.isHandler || (s.die a.loc.mod a.loc.die).tripped then []
  else match s.region? a.loc.mod a.rid with
    | none => []
    | some r =>
      let cores := match a.named with
        | some c => [c % 128]
        | none => if 1 < a.columns.length then (List.range 8).map fun i => 16 * i + a.loc.column else List.range 128
      let seats := cores.filterMap fun c => (s.seatFor r a ⟨a.loc.mod, a.loc.die, c⟩).map fun t => (c, t)
      (seats.take 1).map fun q => execThreadPlace a.uid (a.loc.die * 128 + q.1) q.2.ctx q.2.g q.2.q

/-- A die that a queued thread may go to, where its region may no longer use its own (spec/16 R407). -/
def State.strayMove (s : State) : Option Move :=
  s.agents.findSome? fun a =>
    match s.region? a.loc.mod a.rid with
    | none => none
    | some r => if a.life == .queued && !a.isHandler && !r.allows a.loc.die then some (.migrate a.uid r.lowDie) else none

/-- Events of the schedulers. -/
def State.schedulerEvents (s : State) : List Event :=
  ((s.rqueues.filter fun q => !(s.die q.mod q.die).tripped).flatMap fun q => [execQueueAging q.mod q.die q.rid, execSlotBoundary q.mod q.die q.rid])
    ++ (s.regions.flatMap fun r => [execTimePeriodBegin r.mod r.rid, execTimeBudgetSpent r.mod r.rid, execLifetimeBudget r.mod r.rid s.me.uid])
    ++ s.agents.flatMap s.placeEvents
    ++ (List.range s.launches.length).flatMap fun n => [execLaunchBind n, execLaunchCreateThread n, execLaunchEndRegion n, execLaunchReload n]

/-- A die's trace unit writes what it has queued once there are 64 records, or the oldest is 10 µs old (spec/19 R449). -/
def State.flushDue (s : State) (m d : Nat) : Bool :=
  let mine := s.tqueue.filter fun r => r.mod == m && r.die == d
  decide (64 ≤ mine.length) || mine.any fun r => decide (r.made + 10000 ≤ s.meridian m)

/-- The measured temperature and power of a die are the environment's: free values. -/
def State.measured (s : State) (k : Nat) : Nat := (Config.freeWord (s.fresh + k)).toNat % 65536

/-- Events of dies, links, queues, control blocks and secrets. -/
def State.platformEvents (s : State) : List Event :=
  (s.hostqs.map fun q => execHostQueueWrite q.mod q.vif q.n)
    ++ ((s.tqueue.map fun r => (r.mod, r.die)).eraseDups.flatMap fun q => list1 (s.flushDue q.1 q.2 && !(s.die q.1 q.2).tripped) (execTraceFlush q.1 q.2))
    ++ ((s.dies.filter fun d => !d.tripped).flatMap fun d => list1 (!d.power.isEmpty) (execPowerEvent d.mod d.die (s.measured 0) (s.measured 1)) ++ [execCaptureEnd d.mod d.die])
    ++ (s.ports.flatMap fun q => list1 q.training (execLinkRetrain q.ep q.n 3)
        ++ list1 (q.works && !q.replay.isEmpty) (execFlitReceive q.ep q.n (s.ackFlit q.ep q.n)))
    ++ list1 (!s.advances.isEmpty) (fun s => .next s.advanceDone)
    ++ (s.regions.flatMap fun r => list1 (r.state == .bound && r.liveOut != (s.liveTids r.mod r.rid).length) fun s => .next (s.showRegion r.mod r.rid))
    ++ list1 s.secret.next.isSome execRotationAcknowledged ++ list1 s.secret.old.isSome execTagGraceExpiry

/-- Every event that may be enabled now, in the order in which they are tried. -/
def State.events (s : State) : List Event :=
  s.agents.flatMap s.agentEvents ++ list1 (!s.reports.isEmpty) (execStoreHomeFailure 0) ++ (s.barrier.map fun b => execGangStall b.uid)
    ++ s.sats.flatMap s.satEvents ++ (List.range s.flights.length).flatMap s.flightEvents ++ s.reqs.flatMap requestEvents
    ++ (s.waiting.zipIdx.flatMap fun w => s.waitingEvents w.2 w.1)
    ++ ((s.deferred.filter fun d => !s.rowStopped (.spawnQueue d.id)).flatMap fun d => [execSpawnQueue d.id, execJoinDecrement d.id])
    ++ s.schedulerEvents ++ s.platformEvents

/-- The state after the first event that changes it. -/
def State.firstEvent (s : State) : List Event → Option State
  | [] => none
  | i :: t =>
    match i s with
    | .next u => if u = s then s.firstEvent t else some u
    | _ => s.firstEvent t

/-! ### Turns and time -/

/-- An agent that can take a turn: it issues and the round robin of its core has come to it, or an event is pending at its boundary. -/
def State.canTurn (s : State) (a : Agent) : Bool :=
  let s := s.focus a.uid
  !(s.die a.loc.mod a.loc.die).tripped && ((a.issues && s.robin) || s.nextEvent.isSome)

/-- The agent that has waited longest of those that can take a turn. -/
def State.nextTurn (s : State) : Option Nat :=
  ((s.agents.filter s.canTurn).foldl (fun b a => match b with
    | none => some a
    | some b => if a.turn < b.turn then some a else some b) none).map Agent.uid

/-- How long until a time that something waits for. -/
def State.until_ (s : State) (m t : Nat) : List Nat := list1 (decide (s.meridian m < t)) (t - s.meridian m)

/-- The ns until the first time that a park, a satellite or a request waits for, 1,000 at most. -/
def State.idleTime (s : State) : Nat :=
  let parks := s.agents.flatMap fun a =>
    match a.life with
    | .parked (.sleepu t) => s.until_ a.loc.mod t
    | .parked (.wfi t) => s.until_ a.loc.mod t
    | _ => []
  let sats := s.sats.flatMap fun t => list1 (t.status == 5) t.launch ++ t.promise.toList |>.flatMap fun x => s.until_ t.loc.mod x
  let reqs := s.reqs.flatMap fun q => s.until_ q.loc.mod (q.first + resendAt q.resent) ++ s.until_ q.loc.mod (q.first + 100000)
  max 1 ((parks ++ sats ++ reqs).foldl min 1000)

/-- Time passes, and with it the clocks of the cores that hold agents, each at its own rate (spec/01 R30, spec/20 R465). -/
def State.idle (s : State) (ns : Nat) : State :=
  let cores := ((s.agents.filter fun a => a.placed && a.life != .exited).map Agent.loc).eraseDups
  let cores := cores.filter fun l => !(s.die l.mod l.die).tripped
  (cores.foldl (fun t l => t.addCycles l (max 1 (ns * clockMhz (s.pstate l) / 1000))) s).pass ns

/-- A step without a schedule. A turn takes 1 ns of meridian time. -/
def State.auto (s : State) : Host.Outcome State Fault Refusal :=
  match s.firstEvent s.events with
  | some t => .next t
  | none =>
    match s.strayMove with
    | some m => s.move m
    | none =>
      match s.nextTurn with
      | some uid => afterwards (fun t => t.pass 1) (s.turn uid)
      | none => .next (s.idle s.idleTime)

end Sys2Proof.Machine
end

