-- ==== Sys2Proof/Machine/Place.lean ====
section
/-! DEFINITION. Sys2Proof/Machine/Place.lean: an instruction placed where the next step runs it. A program comes to run by a launch (spec/16 R414), which the
platform or a host sends; `State.hosted` stands for bring-up and that launch (log entry 13). -/

namespace Sys2Proof.Machine

/-- The virtual and physical address of the placed program. -/
def placeAddr : Nat := 0x100000

/-- The grant of the interface under which it runs: everything. -/
def placeVif : Vif :=
  { mod := 0, vif := 0, coreset := List.replicate 8 (2 ^ 128 - 1), rcb := 0x3F00C000, cores := 1024, dies := 255, ways := List.replicate 8 0xFFFF, counted := 0xFFFFFFFF, satslots := 256, asidBase := 0,
    asidCount := 65536, asTable := 0x3F008000, classes := 1, frames := [], shares := [], charterBase := 0, charterCount := 0, observe := true, launch := true,
    conf := false }

/-- The tables of its address space: the entry of the address space, two table levels and a 1 GiB leaf that maps the first gibibyte to itself, for reading,
writing and running at every level (spec/17 R415 to R418). -/
def placeTables : List (Nat × Nat) := [(0x3F008000, 0x3F009001), (0x3F009000, 0x3F00A001), (0x3F00A000, 0x3F00B001), (0x3F00B000, 0xFF)]

/-- Module 0 brought up, with a thread of class 64 at level K ready in context 0 of core 0 of a die, at `placeAddr`. -/
def State.hosted (s : State) (die : Nat) : State :=
  let up (a : ModuleState) : ModuleState := if a.mod = 0 then a.started s.now 0 true else a
  let s := { s with modules := s.modules.map up,
                    vifs := placeVif :: s.vifs.filter fun v => !(v.mod == 0 && v.vif == 0),
                    regions := { placeVif.root s.now with level := 2 } :: s.regions.filter fun r => !(r.mod == 0 && r.rid == 0xFF00) }
  let s := placeTables.foldl (fun s e => s.poke 0 e.1 (natBytes 8 e.2)) s
  let a := freshAgent s.nextUid 0xFF00 0 2 3 ⟨0, die, 0⟩ (BitVec.ofNat 64 placeAddr) 0 0 none (Vector.replicate 16 0) 0
  let a := a.seated ⟨0, die, 0⟩ ⟨0, 0, 0⟩ s.now
  { s with me := a, nextUid := s.nextUid + 1 }

/-- The bytes of an instruction of at most five halfwords whose bits are `w`, `nbits` of them given: each halfword little-endian, the first at the lowest
address. -/
def placeBytes (nbits w : Nat) : List Byte := natBytes 10 (w % 2 ^ nbits)

/-- The state with these bytes at the program counter of the thread whose turn it is, in memory and in no instruction cache; the next move is its turn, to
which the round robin of its core has come. -/
def State.withCode (s : State) (bs : List Byte) : State :=
  let s := { s with schedule := [.turn s.me.uid] }.issuedBy s.me.loc ((s.me.ctx + 15) % 16)
  match s.translate s.mySpace s.me.pc.toNat .fetch with
  | (.error _, _) => s
  | (.ok (pa, _), _) =>
    { s.poke s.me.loc.mod pa bs with
      icache := s.icache.filter fun c => !(c.loc == s.me.loc && (c.line == pa / 128 || c.line == (pa + 9) / 128)) }

/-- Where a thread is placed for an instruction: at the Keywright of F0 for one that runs nowhere else (spec/15 R391), and on die 0 for any other. -/
def placeDie (nbits w : Nat) : Nat :=
  match decodeTableWord nbits w with
  | some (.kmint _ _) => 8
  | some (.krekeyAdvance _ _) => 8
  | some (.krekeyRotate _ _) => 8
  | _ => 0

/-- The state in which the next step runs an instruction: a thread that is ready runs it where it stands; otherwise one is placed. -/
def State.placed (s : State) (nbits w : Nat) : State :=
  (if s.me.issues then s else s.hosted (placeDie nbits w)).withCode (placeBytes nbits w)

end Sys2Proof.Machine
end

