-- ==== Sys2Proof/Safety.lean ====
section
/-! DEFINITION. Sys2Proof/Safety.lean: what counts as a safe run, `n` steps with neither a fault nor a refusal, and the terms in which claims say what an
instruction did and what it left alone. -/

namespace Sys2Proof.Machine

/-! ### Runs -/

/-- `n` steps from a state all have a next state. -/
def runsFor : Nat → State → Prop
  | 0, _ => True
  | n + 1, s => ∃ t, step s = .next t ∧ runsFor n t

/-- A run that never stops. -/
def Safe (s : State) : Prop := ∀ n, runsFor n s

/-! ### What lets an instruction issue -/

/-- None of these `x` and `k` registers is pending, so the instruction that names them takes no cause 0x03 (spec/03 R87). -/
abbrev State.notPending (s : State) (xs : List Reg) (ks : List Reg4) : Prop :=
  (∀ r ∈ xs, s.me.pendX.getLsbD r.toNat = false) ∧ ∀ r ∈ ks, s.me.pendK.getLsbD r.toNat = false

/-- No failure of the issuing agent is outstanding: none has been reported to its core, and no report of its stores is on its way (spec/03 R89, R90). -/
abbrev State.nothingDue (s : State) : Prop := s.me.failures = [] ∧ ∀ r ∈ s.reports, r.ofAgent s.me.uid = false

/-- No entry of a debug table stops or watches an access of the issuing agent to data (spec/19 R446). -/
abbrev State.unwatched (s : State) : Prop := (s.debugFor s.me).all (fun e => e.ty != 2) = true

/-- The dispatch queue of the issuing agent has room (spec/02 R39), and its class has vector state (R37). -/
abbrev State.takesEntry (s : State) : Prop := s.me.cls ≠ 0 ∧ s.me.queue.length < 64

/-- An access of `n` bytes at `addr` passes its checks at issue (spec/06 R169): aligned, translated to `pa` by way of `v` with the state `t` after the
walk, and no debug entry watches data. -/
abbrev State.reaches (s : State) (addr : Word) (n : Nat) (acc : Acc) (pa : Nat) (v : Via) (t : State) : Prop :=
  addr.toNat % n = 0 ∧ s.translate s.mySpace addr.toNat acc = (.ok (pa, v), t) ∧ t.unwatched

/-! ### What an instruction leaves alone -/

/-- Nothing of the machine differs but the record of the agent whose turn it is: memory and its caches, every other agent, every queue, table and unit are
as before. -/
def State.sameRest (s t : State) : Prop := { t with me := s.me } = s

/-- Of an agent nothing differs but its `x` registers, its program counter and the bookkeeping of issue: the chain count and order, the pending sets, the
failures that became due and the park of a wait marker. Every `k`, vector, predicate, control, trap and stream register is as before. -/
def Agent.sameButX (a b : Agent) : Prop :=
  { b with x := a.x, pc := a.pc, issued := a.issued, order := a.order, pendX := a.pendX, pendK := a.pendK, marked := a.marked,
           failures := a.failures, life := a.life } = a

/-- What a read of `x[r]` gives after `v` was written there: `x0` discards it (spec/03 R63). -/
def wrote (r : Reg) (v : Word) : Word := if r = 0 then 0 else v

/-- The byte that an access by way of `v` reads at a physical address: at the line's home, or in the remote-data cache of its die (spec/05 R129). -/
def State.byteAt (s : State) (v : Via) (pa : Nat) : Byte := (s.readLine v pa 1).1.headD 0

/-- Every access reads every byte as before. -/
def State.sameBytes (s t : State) : Prop := ∀ v pa, t.byteAt v pa = s.byteAt v pa

/-- An RDC as a fill or a write of a line by way of `v` finds it: the line has left it if it was held under another memory key, and in a full set the line
that has stood there longest has gone home (spec/01 R21, spec/17 R417; log entry 6). -/
def State.roomFor (s : State) (v : Via) (line : Nat) : State :=
  let u := s.underRdc v.loc.mod v.loc.die v.loc.mod line v.key
  if (u.rdc? v.loc.mod v.loc.die v.loc.mod line).isSome then u else u.rdcRoom v.loc.mod v.loc.die line

/-! ### How an instruction completes -/

/-- The address of the chain after one with header `h` (spec/06 R158); bit 0 of a program counter is zero (spec/03 R62). -/
def State.pcAfter (s : State) (h : Hdr) : Word := (s.me.pc + BitVec.ofNat 64 (2 * h.len)) &&& ~~~1

/-- The instruction completes with the effect `u`: the next chain comes next, and the chain counts as issued, with the park of its wait marker if it has one
(spec/03 R88, spec/19 R442). -/
def State.ended (s : State) (h : Hdr) (u : State) : State := { u with me := ({ u.me with pc := s.pcAfter h } : Agent).retireChain h.wait }

/-- The instruction completes, writes `v` to `x[r]` and nothing else, and goes on at `pc`. -/
def State.writesX (s : State) (i : Instr) (r : Reg) (v pc : Word) : Prop :=
  ∃ t, exec i s = .next t ∧ t.x r = wrote r v ∧ (∀ q, q ≠ r → t.x q = s.x q) ∧ t.me.pc = pc ∧ s.me.sameButX t.me ∧ s.sameRest t

/-- The instruction completes, writes no register, and goes on at `pc`. -/
def State.goesTo (s : State) (i : Instr) (pc : Word) : Prop :=
  ∃ t, exec i s = .next t ∧ t.me.x = s.me.x ∧ t.me.pc = pc ∧ s.me.sameButX t.me ∧ s.sameRest t

/-- The instruction completes with the effect `u`. -/
def State.completes (s : State) (i : Instr) (h : Hdr) (u : State) : Prop := exec i s = .next (s.ended h u)

/-- The instruction does not issue yet: nothing changes. -/
def State.holds (s : State) (i : Instr) : Prop := exec i s = .next s

/-- The instruction takes a trap (spec/15 R368 to R373) and has no other effect. -/
def State.traps (s : State) (i : Instr) (cause : Nat) (addr info : Word) : Prop :=
  exec i s = .next (s.takeTrap ⟨cause, s.me.pc, addr, info, false, 0⟩)

/-! ### Satellites -/

/-- The satellite that an instruction of the agent whose turn it is creates in a slot (spec/02 R53, R54): attached unless `DETACH` is set, waiting (5) while
its launch time has not come, else running (1), with nothing done. -/
def State.satellite (s : State) (slot kind : Nat) (engine : Engine) (ready : Bool) (task : Task) : Sat where
  sid := s.nextSid
  loc := s.me.loc
  slot := slot
  gen := s.slotGen s.me.loc slot
  rid := s.me.rid
  kind := kind
  engine := engine
  issuer := s.me.uid
  owner := if saDetach s.me.sattr then none else some s.me.uid
  level := s.me.level
  cls := s.me.cls
  cmask := s.me.cmask
  status := if s.meridian s.me.loc.mod < s.me.slaunch.toNat then 5 else 1
  begun := false
  cancel := false
  launch := s.me.slaunch.toNat
  issuedAt := s.meridian s.me.loc.mod
  after := if (s.satOf s.me.loc s.me.safter).isSome then s.me.safter else 0
  prio := saPrio s.me.sattr
  aged := 0
  waitFrom := s.cycle s.me.loc
  ready := ready
  sattr := capturedAttr kind s.me.sattr
  pmiss := false
  promise := none
  missed := false
  record := [0, 0, 0, 0]
  units := 0
  upto := s.me.nextSeq
  req := none
  task := task

/-- That satellite created: its token is in `x[rd]`, `slaunch` and `safter` are consumed, the lines that it will fill are PENDING, and a dependence that has
ended decides at once (R57). -/
def State.withSat (s : State) (rd : Reg) (slot kind : Nat) (engine : Engine) (ready : Bool) (lines : List (Nat × Nat)) (task : Task) : State :=
  let q := s.satellite slot kind engine ready task
  let t : State := { s with sats := s.sats ++ [q], nextSid := s.nextSid + 1 }.setX rd q.token
  ((t.postLines s.me.loc s.me.rid lines).upd fun a => { a with slaunch := 0, safter := 0 }).settleDep q.sid s.depStatus

/-- A satellite can be created in a slot: `safter` is not foreign and the slot is free within the region's quota. -/
abbrev State.satSlot (s : State) (slot : Nat) : Prop := s.afterForeign = false ∧ s.freeSatSlot s.me.loc s.me.rid = some slot

/-- The satellite `n` is this record. -/
abbrev State.satIs (s : State) (n : Nat) (t : Sat) : Prop := s.sats.find? (fun q => q.sid == n) = some t

/-- An event of the table gives state `t`. -/
def State.gives (s : State) (i : Instr) (t : State) : Prop := exec i s = .next t

/-! ### Vector entries -/

/-- The header of a vector instruction of pages 2 and 3 that does nothing at issue but take a dispatch-queue entry, with the scalar registers whose
values the entry captures, in the order of its fields (spec/02 R39, spec/08 R208). -/
def Instr.captures : Instr → Option (Hdr × List Reg)
  | .vadd h _ | .vsub h _ | .vmul h _ | .vmulh h _ | .vand h _ | .vor h _ | .vxor h _ | .vsll h _ | .vsrl h _ | .vsra h _ | .vmin h _
  | .vmax h _ | .vminu h _ | .vmaxu h _ | .vaddsat h _ | .vfadd h _ | .vfsub h _ | .vfmul h _ | .vfdiv h _ | .vfma h _ | .vfmin h _
  | .vfmax h _ | .vfsqrt h _ | .vfexp2 h _ | .vcmp h _ | .vfcmp h _ | .vsel h _ | .vid h _ | .vmerge h _ | .vclass h _ | .vperm h _
  | .vredsum h _ | .vredmax h _ | .vredmin h _ | .vfredsum h _ | .vscan h _ | .vcompress h _ | .vcvt h _ | .vcvtef h _ | .plog h _
  | .pcnt h _ | .pfirst h _ | .vmvv h _ | .vfault h _ => some (h, [])
  | .vbcast h o => some (h, RegImm.regs o.t)
  | .vslide h o => some (h, RegImm.regs o.t)
  | .vld h o | .vst h o | .vlsp h o | .vssp h o | .vlspc h o | .vldc h o => some (h, ADR.regs o)
  | .vlds h o | .vsts h o | .vstc h o => some (h, [o.b, o.ext.c])
  | .vldx h o | .vstx h o | .vlspx h o | .vsspx h o => some (h, [o.b])
  | .vappend h o => some (h, [o.b])
  | _ => none

/-- Entry `e` is what cluster index `g` of the agent whose turn it is works on next, and no trace buffer watches its region. -/
abbrev State.clusterAt (s : State) (e : Entry) (g : Nat) : Prop :=
  s.me.streams = true ∧ g < s.me.done.length ∧ s.me.nextFor g = some e ∧ s.tbuf? s.me.loc.mod s.me.loc.die s.me.rid = none

/-- The work of cluster index `g` on its next entry gives state `t`. -/
def State.clusterGives (s : State) (g : Nat) (t : State) : Prop := ∀ b stall ns, exec (.clusterExecuteEntry s.me.uid g b stall ns) s = .next t

/-- The sum of the leaves `0` to `2 ^ k - 1` in the tree of spec/08 R224, half by half, with the flags of its additions: an absent leaf or half leaves the other
as it is. -/
def treeSum (t : Fmt) (rm : Nat) (sp : Bool) : Nat → (Nat → Option Nat) → Option Nat × BitVec 5
  | 0, leaf => (leaf 0, 0)
  | k + 1, leaf =>
    let l := treeSum t rm sp k leaf
    let r := treeSum t rm sp k fun i => leaf (2 ^ k + i)
    match l.1, r.1 with
    | none, b => (b, l.2 ||| r.2)
    | a, none => (a, l.2 ||| r.2)
    | some x, some y =>
      let q := t.addV rm sp (t.val x) (t.val y)
      (some q.bits, l.2 ||| r.2 ||| q.flags)

/-- Changes of `vfmc` and of the fault mask in stream order. -/
abbrev logOrdered (log : List VfmcLog) : Prop := log.Pairwise (fun a b => a.seq ≤ b.seq) ∧ ∀ l ∈ log, l.elem ≤ 1024

/-- Of an agent nothing differs but one vector register and what the completion of an entry changes: restart indices, queue, flags, results in flight,
`vfmc`, `efc` and the count of retired entries. -/
def Agent.sameButV (a b : Agent) (r : Reg) : Prop :=
  (∀ q : Reg, q ≠ r → b.v[q.toNat]'(q.isLt) = a.v[q.toNat]'(q.isLt)) ∧ b.p = a.p ∧ b.x = a.x ∧ b.k = a.k ∧ b.pc = a.pc ∧ b.life = a.life ∧
    b.vl = a.vl ∧ b.pendX = a.pendX ∧ b.pendK = a.pendK

end Sys2Proof.Machine
end

