-- ==== Sys2Proof/Certificates/Slice0/Obligations.lean ====
section
/-! DEFINITION. Sys2Proof/Certificates/Slice0/Obligations.lean: what is claimed of the model, one definition for each statement. -/

open Sys2Proof Sys2Proof.Machine

/-- Every bit that an encoding carries comes back (spec/03 R68 to R77); that the two pstate instructions are words of their own, read back here, is the model's
choice (log entry 11). -/
def Obligations.DecodeOfEncodeIsTheInstruction : Prop :=
  ∀ (i : Instr) (rest : List Half), i.wf = true → decodeHalves (encode i ++ rest) = .ok i.decodedRow

/-- No halfwords decode to a term that breaks a field rule of spec/03 R75 step 6 or to an event (what pstate terms are is the model's choice, log entry 11). -/
def Obligations.DecodedInstructionIsWellFormed : Prop :=
  ∀ (hs : List Half) (i : Instr), decodeHalves hs = .ok i → i.wf = true ∧ i.decodedRow = i

/-- Chains printed in spec/06 and what they stand for. -/
def Obligations.WordsOfTheSpecDecode : Prop :=
  decodeHalves [0x5420] = .ok (.jalr ⟨false, 1⟩ ⟨0, .reg 1, none, none⟩) ∧
  decodeHalves [0x7D60, 0x5802] = .ok (.fence ⟨false, 2⟩ ⟨2, some ⟨3, 0⟩⟩) ∧
  decodeHalves [0x7C03, 0x6827] = .ok (.mfcr ⟨false, 2⟩ ⟨7, ⟨[3], 1⟩⟩) ∧
  decodeHalves [0x7E01, 0x7D01, 0x70C5] = .ok (.fcvt ⟨false, 3⟩ ⟨5, 6, 0, 1, none⟩) ∧
  decodeHalves [0x7D60, 0xB285] = .ok (.ld ⟨true, 2⟩ ⟨5, .reg 20, some ⟨3, 0⟩, none⟩) ∧
  decodeHalves [0x7CF8, 0x3CE5] = .ok (.bne ⟨false, 2⟩ ⟨5, 7, [0xF8]⟩) ∧
  decodeHalves [0x7CFC, 0x7C4D, 0x7C5E, 0x7C6F, 0x29E5] = .ok (.li ⟨false, 5⟩ ⟨5, ⟨[0xFC, 0x4D, 0x5E, 0x6F], 15⟩⟩) ∧
  decodeHalves [0x7C00, 0x7D05, 0x0026] = .ok (.add ⟨false, 3⟩ ⟨6, .imm ⟨[0], 1⟩, some ⟨0, 5⟩⟩) ∧
  decodeHalves [0x7E01, 0x7D66, 0xCA85] = .ok (.amocas ⟨true, 3⟩ ⟨5, 20, ⟨3, 6⟩⟩) ∧
  decodeHalves [0x7800] = .ok (.udf ⟨false, 1, 0, [], none, none, 30, 0, 0⟩) ∧
  decodeHalves [0x7E08, 0x0000] = .error .badPage

/-- The per-instruction statements reach a run through this one (spec/03 R75): the agent issues, and the round robin of its core has come to it (spec/02
R35). `issuedBy` notes its context as the last one that issued, and `settled` is what the step adds around `exec`. -/
def Obligations.StepRunsTheDecodedInstruction : Prop :=
  ∀ (s t : State) (m : List Move) (hs : List Half) (c : Chain) (i : Instr),
    s.schedule = .turn s.me.uid :: m →
    (s.die s.me.loc.mod s.me.loc.die).tripped = false →
    ({ s with schedule := m } : State).nextEvent = none →
    s.me.issues = true →
    ({ s with schedule := m } : State).robin = true →
    let u := (({ s with schedule := m } : State).issuedBy s.me.loc s.me.ctx).watchCode
    State.fetchChain 5 u s.me.pc [] = (.ok hs, t) →
    parseChain hs = .ok c → t.me.lacksLevel c = false → decodeHalves hs = .ok i →
    step s = afterwards (State.settled u.me) (exec i (t.upd fun a => { a with ir := hs }))

/-- The order of spec/03 R75 steps 1 to 6; `t` is the state after the fetch, and `settled` what a step adds. -/
def Obligations.ChainChecksTrapInOrder : Prop :=
  ∀ (s t : State) (r : Reject) (c : Chain) (e : OpEntry) (hs : List Half),
    let took := fun (cause : Nat) (addr : Word) => s.runChain = .next ((t.takeTrap (issueTrap cause s.me.pc addr 0)).settled s.me)
    (∀ cause va, State.fetchChain 5 s s.me.pc [] = (.error (cause, va), t) → took cause va) ∧
    (State.fetchChain 5 s s.me.pc [] = (.ok hs, t) →
      (parseChain hs = .error r → took r.cause 0) ∧
      (parseChain hs = .ok c → chainEntry c = .error r → took r.cause 0) ∧
      (parseChain hs = .ok c → chainEntry c = .ok e → t.me.lacksLevel c = true → took 0x1D 0) ∧
      (parseChain hs = .ok c → chainEntry c = .ok e → t.me.lacksLevel c = false → entryDecode e c = .error r → took r.cause 0))

/-- Little-endian halfwords (spec/00 R4, spec/03 R70) read as the die reads them (spec/03 R93). -/
def Obligations.FetchReadsTheCodeBytes : Prop :=
  ∀ (s t : State) (va : Word) (pa : Nat) (v : Via),
    s.translate s.codeSpace va.toNat .fetch = (.ok (pa, v), t) → t.code? t.codeSpace (pa / 128) = none →
    pa % 2 = 0 → pa < 2 ^ 52 → t.readBad v pa = false →
    (s.fetchHalf va).1 = .ok (t.byteAt v (pa + 1) ++ t.byteAt v pa : BitVec 16) ∧
      ((s.fetchHalf va).2.code? t.codeSpace (pa / 128)).isSome

/-- What spec/20 R464 says a reset leaves, and spec/02 R34 field by field. The model's choices: the zero bytes of a vault endpoint's memory, which no rule gives a
value at reset (log entry 5); the empty remote-data caches, instruction caches and TLBs and the vacant agent record (log entry 2). `mgang` is set by the
placement, which gives the thread its column (spec/09 R239). -/
def Obligations.ResetAndTheCreationOfAThread : Prop :=
  (State.reset.mem = [] ∧ Memory.wf State.reset.mem = true ∧ (∀ v pa, v.key = 0 → State.reset.byteAt v pa = 0) ∧
  State.reset.counted = [] ∧ State.reset.rdc = [] ∧ State.reset.crypt = [] ∧ State.reset.icache = [] ∧ State.reset.tlb = [] ∧
  State.reset.regions = [] ∧ State.reset.others = [] ∧ State.reset.me.life = .exited ∧ State.reset.me.placed = false ∧
  State.reset.sats = [] ∧ State.reset.waiting = [] ∧ State.reset.reqs = [] ∧ State.reset.schedule = []) ∧
  (∀ (uid rid tid level cls : Nat) (l : Loc) (pc x10 x11 : Word) (named : Option Nat) (k : Vector Key 16) (acq : Nat),
    let a := freshAgent uid rid tid level cls l pc x10 x11 named k acq
    a.pc = pc &&& ~~~1 ∧ a.getX 10 = x10 ∧ a.getX 11 = x11 ∧ (∀ r, r ≠ 10 → r ≠ 11 → a.getX r = 0) ∧
    (∀ r : Fin 32, a.v[r] = 0 ∧ a.marks[r] = 0) ∧ (∀ r : Fin 12, a.p[r] = 0) ∧ a.vl = 0 ∧ a.slip = 8 ∧ a.efc = 0 ∧
    fpcsrWord a.fpsp a.fpen a.fpflags a.fprm = 0 ∧ a.k = k ∧ a.sattr = 0 ∧ a.sshape = 0 ∧ a.slaunch = 0 ∧ a.safter = 0 ∧
    a.queue = [] ∧ a.utvec = 0 ∧ a.ucause = 0 ∧ a.uepc = 0 ∧ a.uaddr = 0 ∧ a.uinfo = 0 ∧ a.pscratch = 0 ∧ a.uta = false ∧
    a.gangto = 262144 ∧ a.mcfgv = 0x11 ∧ a.msbase = 0 ∧ a.fmask = 0 ∧ a.vfmcCount = 0 ∧ a.vfmcCause = 0 ∧ a.life = .queued ∧
    ∀ (home : Loc) (t : Seat) (now : Nat), (a.seated home t now).mgang = BitVec.ofNat 16 (2 ^ home.column) ∧ (a.seated home t now).life = .ready ∧
      (a.seated home t now).pc = a.pc ∧ (a.seated home t now).x = a.x)

/-- The two laws of memory and its canonical form. The canonical form of `State.mem` holds one list for each memory. -/
def Obligations.MemoryIsCanonicalAndReadsBackWhatWasWritten : Prop :=
  (∀ (m : List Host.Cell) (k j : Nat) (bs : List Byte), Memory.wf m = true →
    Memory.wf (Memory.write m k bs) = true ∧
    Memory.get (Memory.write m k bs) j = (if k ≤ j ∧ j < k + bs.length then bs.getD (j - k) 0 else Memory.get m j)) ∧
  (∀ (m n : List Host.Cell), Memory.wf m = true → Memory.wf n = true → (∀ k, Memory.get m k = Memory.get n k) → m = n)

/-- Fills of an RDC and L2 residence change no data (spec/05 R129 to R131), but that a line may have to leave the RDC first: `roomFor`, which changes nothing
where the set has a way free and no line is held under another memory key. A read of the same line from the same die under another memory key than the
reader's is left out. -/
def Obligations.ReadsChangeNoByte : Prop :=
  ∀ (s : State) (v : Via) (pa n : Nat),
    let u := if s.atHome v (pa / 128) then s else s.roomFor v (pa / 128)
    (∀ (w : Via) (q : Nat), w.key = v.key ∨ (w.loc.mod, w.loc.die) ≠ (v.loc.mod, v.loc.die) ∨ q / 128 ≠ pa / 128 →
      (s.readLine v pa n).2.byteAt w q = u.byteAt w q) ∧
    ((∀ l, s.rdc? v.loc.mod v.loc.die v.loc.mod (pa / 128) = some l → l.key = v.key) →
      (s.rdcMates v.loc.mod v.loc.die (pa / 128)).length < 8 → u = s)

/-- The frame of every store of the scalar and vector streams, through `State.byteAt`: the stored line, and every copy of it in an RDC, is under the writer's
memory key, as is a read of its other bytes (the cipher's data unit is the line: spec/20 R458), and memory is canonical (EveryStepKeepsMemoryCanonical).
For a line with another home the frame starts from `roomFor`, as for a read, and from `beforeStore`: bytes of the line that a release takes home and that this
store would hide from it have gone home first (spec/05 R150). -/
def Obligations.StoresChangeOnlyTheirBytes : Prop :=
  ∀ (s : State) (v : Via) (tag : StoreTag) (pa : Nat) (bs : List Byte),
    Memory.wf s.mem = true → pa % 128 + bs.length ≤ 128 → pa < 2 ^ 52 → s.lineKey v.loc.mod (pa / 128) = v.key →
    (∀ l ∈ s.rdc, l.ep = v.loc.mod → l.line = pa / 128 → l.key = v.key) →
    let u := if s.homeDie (pa / 128) = v.loc.die then s
      else (s.beforeStore v.loc.mod v.loc.die v.loc.mod (pa / 128) tag.rel.val (maskSpan (pa % 128) bs.length)).roomFor v (pa / 128)
    (∀ (w : Via) (q : Nat), q < 2 ^ 52 → (w.loc.mod = v.loc.mod → q / 128 = pa / 128 → w.key = v.key ∧ ¬ (pa ≤ q ∧ q < pa + bs.length)) →
      (s.writeLine v tag pa bs).byteAt w q = u.byteAt w q) ∧
    (s.counted? v.loc.mod (pa / 128) = none → s.poisoned v.loc.mod (pa / 128) = false →
      ∀ i, i < bs.length → (s.writeLine v tag pa bs).byteAt v (pa + i) = bs.getD i 0)

/-- spec/06 R161 and R162. `firstReg` is the EXT register, or xA without EXT; `val` is x[B] or the sign-extended immediate. -/
def Obligations.IntegerResults : Prop :=
  ∀ (s : State) (h : Hdr) (o : RRI), s.notPending (firstReg o.ext o.a :: (RegImm.regs o.t ++ [o.a])) [] →
    let a := s.x (firstReg o.ext o.a)
    let b := s.val o.t
    s.writesX (.add h o) o.a (a + b) (s.pcAfter h) ∧
    s.writesX (.sub h o) o.a (a - b) (s.pcAfter h) ∧
    s.writesX (.and h o) o.a (a &&& b) (s.pcAfter h) ∧
    s.writesX (.or h o) o.a (a ||| b) (s.pcAfter h) ∧
    s.writesX (.xor h o) o.a (a ^^^ b) (s.pcAfter h) ∧
    s.writesX (.slt h o) o.a (if a.toInt < b.toInt then 1 else 0) (s.pcAfter h) ∧
    s.writesX (.sltu h o) o.a (if a.toNat < b.toNat then 1 else 0) (s.pcAfter h) ∧
    s.writesX (.mul h o) o.a (BitVec.ofNat 64 (a.toNat * b.toNat)) (s.pcAfter h) ∧
    s.writesX (.mulh h o) o.a ((a.signExtend 128 * b.signExtend 128).extractLsb' 64 64) (s.pcAfter h) ∧
    s.writesX (.mulhu h o) o.a ((a.setWidth 128 * b.setWidth 128).extractLsb' 64 64) (s.pcAfter h) ∧
    s.writesX (.min h o) o.a (BitVec.ofInt 64 (min a.toInt b.toInt)) (s.pcAfter h) ∧
    s.writesX (.max h o) o.a (BitVec.ofInt 64 (max a.toInt b.toInt)) (s.pcAfter h) ∧
    s.writesX (.minu h o) o.a (BitVec.ofNat 64 (min a.toNat b.toNat)) (s.pcAfter h) ∧
    s.writesX (.maxu h o) o.a (BitVec.ofNat 64 (max a.toNat b.toNat)) (s.pcAfter h)

/-- spec/06 R163. -/
def Obligations.ShiftAmounts : Prop :=
  ∀ (s : State) (h : Hdr) (o : RRI), s.notPending (firstReg o.ext o.a :: (RegImm.regs o.t ++ [o.a])) [] →
    let a := s.x (firstReg o.ext o.a)
    let n := (s.val o.t).toNat % 64
    ((∀ i : Imm, o.t = .imm i → 0 ≤ i.int ∧ i.int ≤ 63) →
      s.writesX (.sll h o) o.a (BitVec.ofNat 64 (a.toNat * 2 ^ n)) (s.pcAfter h) ∧
      s.writesX (.srl h o) o.a (BitVec.ofNat 64 (a.toNat / 2 ^ n)) (s.pcAfter h) ∧
      s.writesX (.sra h o) o.a (BitVec.ofInt 64 (a.toInt / 2 ^ n)) (s.pcAfter h) ∧
      s.writesX (.rotl h o) o.a (BitVec.ofNat 64 (a.toNat * 2 ^ n + a.toNat / 2 ^ (64 - n))) (s.pcAfter h)) ∧
    ((∃ i : Imm, o.t = .imm i ∧ ¬ (0 ≤ i.int ∧ i.int ≤ 63)) →
      s.traps (.sll h o) 0x01 0 0 ∧ s.traps (.srl h o) 0x01 0 0 ∧ s.traps (.sra h o) 0x01 0 0 ∧ s.traps (.rotl h o) 0x01 0 0)

/-- spec/06 R165 and R166 in closed form. -/
def Obligations.BitGatherScatterAndCount : Prop :=
  (∀ (s : State) (h : Hdr) (o : RRI), s.notPending (firstReg o.ext o.a :: (RegImm.regs o.t ++ [o.a])) [] →
    let a := s.x (firstReg o.ext o.a)
    let b := s.val o.t
    let set := (List.range 64).filter fun k => b.getLsbD k
    (∃ r : Word, s.writesX (.bext h o) o.a r (s.pcAfter h) ∧
      ∀ j, j < 64 → r.getLsbD j = (match set[j]? with | some k => a.getLsbD k | none => false)) ∧
    (∃ r : Word, s.writesX (.bdep h o) o.a r (s.pcAfter h) ∧
      ∀ k, k < 64 → r.getLsbD k = (b.getLsbD k && a.getLsbD (set.filter fun q => decide (q < k)).length))) ∧
  (∀ (s : State) (h : Hdr) (o : RU), s.notPending [o.b, o.a] [] →
    let a := s.x o.b
    (∃ n : Nat, s.writesX (.clz h o) o.a (BitVec.ofNat 64 n) (s.pcAfter h) ∧ n ≤ 64 ∧
      (∀ k, k < n → a.getMsbD k = false) ∧ (n = 64 ∨ a.getMsbD n = true)) ∧
    (∃ n : Nat, s.writesX (.ctz h o) o.a (BitVec.ofNat 64 n) (s.pcAfter h) ∧ n ≤ 64 ∧
      (∀ k, k < n → a.getLsbD k = false) ∧ (n = 64 ∨ a.getLsbD n = true)) ∧
    s.writesX (.popc h o) o.a (BitVec.ofNat 64 ((List.range 64).filter fun k => a.getLsbD k).length) (s.pcAfter h))

/-- spec/06 R164; `postX` puts the result in flight and makes xA pending. -/
def Obligations.DivisionResultsAndDivideByZero : Prop :=
  ∀ (s : State) (h : Hdr) (o : RRI), s.notPending (firstReg o.ext o.a :: (RegImm.regs o.t ++ [o.a])) [] →
    let a := s.x (firstReg o.ext o.a)
    let b := s.val o.t
    delegable 0x16 = true ∧
    (b ≠ 0 →
      s.completes (.div h o) h (s.postX o.a (Inflight.known ((BitVec.ofInt 64 (a.toInt.tdiv b.toInt)).setWidth 256))) ∧
      s.completes (.divu h o) h (s.postX o.a (Inflight.known ((BitVec.ofNat 64 (a.toNat / b.toNat)).setWidth 256))) ∧
      s.completes (.rem h o) h (s.postX o.a (Inflight.known ((BitVec.ofInt 64 (a.toInt.tmod b.toInt)).setWidth 256))) ∧
      s.completes (.remu h o) h (s.postX o.a (Inflight.known ((BitVec.ofNat 64 (a.toNat % b.toNat)).setWidth 256)))) ∧
    (b = 0 → s.traps (.div h o) 0x16 0 0 ∧ s.traps (.divu h o) 0x16 0 0 ∧ s.traps (.rem h o) 0x16 0 0 ∧ s.traps (.remu h o) 0x16 0 0)

/-- spec/06 R167 and R184. -/
def Obligations.ConstantsAndAddresses : Prop :=
  ∀ (s : State) (h : Hdr) (o : LI), s.notPending [o.a] [] →
    s.writesX (.li h o) o.a (BitVec.ofInt 64 o.i.int) (s.pcAfter h) ∧
    s.writesX (.addq h o) o.a (s.x o.a + BitVec.ofInt 64 o.i.int) (s.pcAfter h) ∧
    s.writesX (.la h o) o.a (s.me.pc + BitVec.ofInt 64 o.i.int) (s.pcAfter h) ∧
    (-(2 : Int) ^ 31 ≤ o.i.int ∧ o.i.int < (2 : Int) ^ 31 →
      s.writesX (.lhi h o) o.a (BitVec.ofInt 32 o.i.int ++ (s.x o.a).extractLsb' 0 32 : BitVec 64) (s.pcAfter h)) ∧
    (¬ (-(2 : Int) ^ 31 ≤ o.i.int ∧ o.i.int < (2 : Int) ^ 31) → s.traps (.lhi h o) 0x01 0 0) ∧
    (o.i.int = 0 → s.writesX (.rdtime h o) o.a (BitVec.ofNat 64 (s.cycle s.me.loc)) (s.pcAfter h)) ∧
    (o.i.int = 1 → s.writesX (.rdtime h o) o.a (BitVec.ofNat 64 (s.meridian s.me.loc.mod)) (s.pcAfter h)) ∧
    (o.i.int ≠ 0 → o.i.int ≠ 1 → s.traps (.rdtime h o) 0x01 0 0)

/-- spec/06 R172 to R174; bit 0 of the program counter is always zero (spec/03 R62). -/
def Obligations.BranchesAndJumps : Prop :=
  (∀ (s : State) (h : Hdr) (o : BR), s.notPending [o.a, o.b] [] →
    let goal := (s.me.pc + BitVec.ofInt 64 (2 * branchOffset o.off)) &&& ~~~1
    let a := s.x o.a
    let b := s.x o.b
    s.goesTo (.beq h o) (if a = b then goal else s.pcAfter h) ∧
    s.goesTo (.bne h o) (if a ≠ b then goal else s.pcAfter h) ∧
    s.goesTo (.blt h o) (if a.toInt < b.toInt then goal else s.pcAfter h) ∧
    s.goesTo (.bge h o) (if b.toInt ≤ a.toInt then goal else s.pcAfter h) ∧
    s.goesTo (.bltu h o) (if a.toNat < b.toNat then goal else s.pcAfter h) ∧
    s.goesTo (.bgeu h o) (if b.toNat ≤ a.toNat then goal else s.pcAfter h)) ∧
  (∀ (s : State) (h : Hdr) (o : JL), s.notPending [o.a] [] →
    s.writesX (.jal h o) o.a (s.nextPc h) ((s.me.pc + BitVec.ofInt 64 (2 * branchOffset o.off)) &&& ~~~1)) ∧
  (∀ (s : State) (h : Hdr) (o : ADR), s.notPending (ADR.regs o ++ [o.a]) [] →
    ((s.addr o).getLsbD 0 = true → s.traps (.jalr h o) 0x04 (s.addr o) 0) ∧
    ((s.addr o).getLsbD 0 = false → s.writesX (.jalr h o) o.a (s.nextPc h) (s.addr o)))

/-- spec/03 R87, for one form of each shape of operands. Which of several pending registers `uinfo` names is the model's choice (log entry 55). -/
def Obligations.PendingRegisterTraps : Prop :=
  ∀ (s : State) (h : Hdr) (o : RRI) (m : ADR) (b : BR) (q : KK) (r : Reg),
    ((firstReg o.ext o.a :: (RegImm.regs o.t ++ [o.a])).find? (fun r => s.me.pendX.getLsbD r.toNat) = some r →
      s.traps (.add h o) 0x03 0 (BitVec.ofNat 64 r.toNat) ∧ s.traps (.div h o) 0x03 0 (BitVec.ofNat 64 r.toNat) ∧
      s.traps (.sll h o) 0x03 0 (BitVec.ofNat 64 r.toNat)) ∧
    ((ADR.regs m ++ [m.a]).find? (fun r => s.me.pendX.getLsbD r.toNat) = some r →
      s.traps (.ld h m) 0x03 0 (BitVec.ofNat 64 r.toNat) ∧ s.traps (.jalr h m) 0x03 0 (BitVec.ofNat 64 r.toNat)) ∧
    ((m.a :: ADR.regs m).find? (fun r => s.me.pendX.getLsbD r.toNat) = some r → s.traps (.st h m) 0x03 0 (BitVec.ofNat 64 r.toNat)) ∧
    ([b.a, b.b].find? (fun r => s.me.pendX.getLsbD r.toNat) = some r → s.traps (.beq h b) 0x03 0 (BitVec.ofNat 64 r.toNat)) ∧
    (s.me.pendK.getLsbD q.b.toNat = true → s.traps (.kmov h q) 0x03 0 (BitVec.ofNat 64 (32 + q.b.toNat))) ∧
    (s.me.pendK.getLsbD q.b.toNat = false → s.me.pendK.getLsbD q.a.toNat = true →
      s.traps (.kmov h q) 0x03 0 (BitVec.ofNat 64 (32 + q.a.toNat)))

/-- spec/03 R88, shown by `add`; LONG_LATENCY_RESULT (spec/03 R86) for any result in flight that is ready, with its flags (spec/06 R180), its failure (R90)
and the end of the park. -/
def Obligations.WaitMarkerParksUntilResultsArrive : Prop :=
  (∀ (s : State) (h : Hdr) (o : RRI), s.notPending (firstReg o.ext o.a :: (RegImm.regs o.t ++ [o.a])) [] →
    ∃ t, exec (.add h o) s = .next t ∧
      (h.wait = false → t.me.life = s.me.life ∧ t.me.pendX = s.me.pendX ∧ t.me.pendK = s.me.pendK) ∧
      (h.wait = true → s.me.inflight = [] → t.me.life = s.me.life ∧ t.me.pendX = 0 ∧ t.me.pendK = 0) ∧
      (h.wait = true → (∃ i ∈ s.me.inflight, i.entry = none) → t.me.life = .parked .marker)) ∧
  (∀ (s : State) (n : Nat) (i : Inflight), (s.me.inflight.find? fun j => j.order == n && j.ready) = some i →
    ∃ t, exec (.longLatencyResult s.me.uid n) s = .next t ∧ t.mem = s.mem ∧ t.others = s.others ∧
      (s.me.life ≠ .parked .marker ∨ s.tbuf? s.me.loc.mod s.me.loc.die s.me.rid = none → s.sameRest t) ∧
      (∀ r : Reg, i.isK = false → i.keep = false → i.reg = r.toNat → t.x r = wrote r (i.val.setWidth 64) ∧ ∀ q, q ≠ r → t.x q = s.x q) ∧
      (∀ r : Reg4, i.isK = true → i.keep = false → i.reg = r.toNat → t.k r = i.val ∧ ∀ q, q ≠ r → t.k q = s.k q) ∧
      (i.isK = true ∨ i.keep = true → t.me.x = s.me.x) ∧ (i.isK = false ∨ i.keep = true → t.me.k = s.me.k) ∧
      t.me.v = s.me.v ∧ t.me.p = s.me.p ∧ t.me.pc = s.me.pc ∧ t.me.queue = s.me.queue ∧ i ∉ t.me.inflight ∧
      t.me.fpflags = (if i.era = s.me.fpera then s.me.fpflags ||| i.flags else s.me.fpflags) ∧
      (∀ f, i.fail = some f → s.me.failures = [] → t.me.failures.map Failure.trap = [f]) ∧
      (s.me.life ≠ .parked .marker → t.me.life = s.me.life ∧ t.me.pendX = s.me.pendX ∧ t.me.pendK = s.me.pendK) ∧
      (s.me.life = .parked .marker → (∃ j ∈ t.me.inflight, j.entry = none) →
        t.me.life = .parked .marker ∧ t.me.pendX = s.me.pendX ∧ t.me.pendK = s.me.pendK) ∧
      (s.me.life = .parked .marker → t.me.inflight = [] → t.me.life = .ready ∧ t.me.pendX = 0 ∧ t.me.pendK = 0))

/-- spec/06 R168, R169; that the bytes are those at issue is the model's choice (log entry 12). `t` is the state after the page walk; `readLine` may fill the
die's cache (see ReadsChangeNoByte), and `keepData` the core's data cache (spec/06 R160). -/
def Obligations.LoadsReadTheirBytes : Prop :=
  ∀ (s t : State) (h : Hdr) (o : ADR) (pa : Nat) (v : Via),
    s.notPending (ADR.regs o ++ [o.a]) [] → s.reaches (s.addr o) (scalarBytes (extSel o.ext)) .read pa v t →
    (t.readBad v pa = false →
      let r := t.readLine v pa (scalarBytes (extSel o.ext))
      exec (.ld h o) s = .next (s.ended h ((r.2.keepData v.loc v.loc.mod (pa / 128)).postX o.a
        (Inflight.known ((scalarExtend (extSel o.ext) (bytesNat r.1)).setWidth 256))))) ∧
    (t.readBad v pa = true →
      exec (.ld h o) s = .next (s.ended h
        ((t.foundError v.loc (t.poisonUnit v.loc.mod (pa / 128)) pa).postFailed false o.a.toNat 0x22)))

/-- spec/06 R170, at issue (log entry 12: when the write is performed is the model's choice). Which bytes it changes: StoresChangeOnlyTheirBytes. -/
def Obligations.StoresWriteTheirBytes : Prop :=
  ∀ (s t : State) (h : Hdr) (o : ADR) (pa : Nat) (v : Via),
    s.notPending (o.a :: ADR.regs o) [] → s.reaches (s.addr o) (scalarBytes (extSel o.ext)) .write pa v t →
    let u := t.writeLine v (t.storeTag (s.addr o)) pa (natBytes (scalarBytes (extSel o.ext)) (s.x o.a).toNat)
    exec (.st h o) s = .next (s.ended h u) ∧ u.me = s.me

/-- spec/06 R176 and R177; that the atomic is performed at issue is the model's choice (log entry 12). `reachHome` first sends home the bytes that the die's own cache holds of the line (spec/05 R147). -/
def Obligations.AtomicsReadAndWriteAtTheHome : Prop :=
  ∀ (s t : State) (h : Hdr) (o : AMO) (pa : Nat) (v : Via),
    s.notPending (o.b :: o.ext.c :: [o.a]) [] → s.reaches (s.x o.b) (if o.ext.sel = 3 then 8 else 4) .write pa v t →
    let n := if o.ext.sel = 3 then 8 else 4
    let c := (s.x o.ext.c).toNat % 2 ^ (8 * n)
    let a := (s.x o.a).toNat % 2 ^ (8 * n)
    let u := t.reachHome v (pa / 128)
    let ep := v.loc.mod
    let old := bytesNat (u.homeSeen ep v.key pa n)
    let done := fun (w : State) => .next (s.ended h (w.postX o.a (Inflight.known ((sext (8 * n) old).setWidth 256))))
    let put := fun (new : Nat) => done (u.pokeAs ep v.key pa (natBytes n new))
    let bad := fun (w : State) (cause : Nat) => .next (s.ended h (w.postFailed false o.a.toNat cause))
    (u.counted? ep (pa / 128) = none → u.poisoned ep (pa / 128) = false →
      exec (.amoadd h o) s = put ((old + c) % 2 ^ (8 * n)) ∧
      exec (.amoswap h o) s = put c ∧
      exec (.amocas h o) s = (if old = a then put c else done u) ∧
      exec (.amomax h o) s = put (if sval (8 * n) old < sval (8 * n) c then c else old) ∧
      exec (.amoor h o) s = put (old ||| c) ∧
      exec (.amoand h o) s = put (old &&& c)) ∧
    ((u.counted? ep (pa / 128)).isSome →
      ∀ i ∈ [Instr.amoadd h o, .amoswap h o, .amocas h o, .amomax h o, .amoor h o, .amoand h o], exec i s = bad u 0x25) ∧
    (u.counted? ep (pa / 128) = none → u.poisoned ep (pa / 128) = true →
      ∀ i ∈ [Instr.amoadd h o, .amoswap h o, .amocas h o, .amomax h o, .amoor h o, .amoand h o],
        exec i s = bad (u.foundError v.loc (u.poisonUnit ep (pa / 128)) pa) 0x22)

/-- The order of spec/06 R169 under R159; the trap is taken in the state that the translation leaves, since a walk that meets an uncorrectable error leaves its
machine-check record (spec/20 R467). -/
def Obligations.AccessesTrapInTheOrderOfTheirChecks : Prop :=
  ∀ (s : State) (h : Hdr) (o : ADR) (m : AMO) (c : Nat),
    let n := scalarBytes (extSel o.ext)
    let k := if m.ext.sel = 3 then 8 else 4
    let refused := fun (i : Instr) (addr : Word) (acc : Acc) =>
      ∀ t, s.translate s.mySpace addr.toNat acc = (.error c, t) → exec i s = .next (t.takeTrap ⟨c, s.me.pc, addr, 0, false, 0⟩)
    (s.notPending (ADR.regs o ++ [o.a]) [] →
      ((s.addr o).toNat % n ≠ 0 → s.traps (.ld h o) 0x04 (s.addr o) 0) ∧
      ((s.addr o).toNat % n = 0 → refused (.ld h o) (s.addr o) .read)) ∧
    (s.notPending (o.a :: ADR.regs o) [] →
      ((s.addr o).toNat % n ≠ 0 → s.traps (.st h o) 0x04 (s.addr o) 0) ∧
      ((s.addr o).toNat % n = 0 → refused (.st h o) (s.addr o) .write)) ∧
    (s.notPending (m.b :: m.ext.c :: [m.a]) [] →
      ∀ i ∈ [Instr.amoadd h m, .amoswap h m, .amocas h m, .amomax h m, .amoor h m, .amoand h m],
      ((s.x m.b).toNat % k ≠ 0 → s.traps i 0x04 (s.x m.b) 0) ∧
      ((s.x m.b).toNat % k = 0 → refused i (s.x m.b) .write)) ∧
    (s.notPending (ADR.regs o) [keyReg o.a] →
      ((s.addr o).toNat % 32 ≠ 0 → s.traps (.kld h o) 0x04 (s.addr o) 0 ∧ s.traps (.kst h o) 0x04 (s.addr o) 0) ∧
      ((s.addr o).toNat % 32 = 0 → refused (.kld h o) (s.addr o) .read ∧ refused (.kst h o) (s.addr o) .write))

/-- spec/05 R127 and spec/17 R415 to R420. spec/17 R419: the accessed and dirty bits; `leafAt` is the physical address of the leaf's doubleword. -/
def Obligations.TranslationChecksTheLeaf : Prop :=
  (∀ (s : State) (sp : Space) (va : Nat) (acc : Acc),
    (canonical va = false → s.translate sp va acc = (.error 0x05, s)) ∧
    (canonical va = true → ∀ e, s.tlb? sp va = some e → leafAllows e.leaf.toNat acc sp.level = true →
      (acc = .write → e.leaf.getLsbD 6 = true) →
      s.translate sp va acc = (.ok (leafAddr e.leaf.toNat e.bits va, s.viaLeaf sp e.leaf.toNat), s)) ∧
    (∀ e, s.servingLeaf sp va acc = some e → leafAllows e.leaf.toNat acc sp.level = true ∧ (acc = .write → e.leaf.getLsbD 6 = true) ∧
      (canonical va = true → (s.translate sp va acc).1 = .ok (leafAddr e.leaf.toNat e.bits va, s.viaLeaf sp e.leaf.toNat))) ∧
    (canonical va = true → s.servingLeaf sp va acc = none → ∀ c, s.asRoot sp.loc.mod sp.vif sp.asid = .error c →
      s.translate sp va acc = (.error c, if c = 0x22 then s.foundError sp.loc 6 (s.rootError sp) else s)) ∧
    (canonical va = true → s.servingLeaf sp va acc = none → ∀ root, s.asRoot sp.loc.mod sp.vif sp.asid = .ok root →
      (∀ c, s.walk sp.loc.mod va walkLevels root = .error c → (s.translate sp va acc).1 = .error c) ∧
      (∀ l, s.walk sp.loc.mod va walkLevels root = .ok l → leafAllows l.entry.toNat acc sp.level = false →
        (s.translate sp va acc).1 = .error 0x06) ∧
      (∀ l, s.walk sp.loc.mod va walkLevels root = .ok l → leafAllows l.entry.toNat acc sp.level = true →
        (s.translate sp va acc).1 = .ok (leafAddr l.entry.toNat l.bits va, (s.translate sp va acc).2.viaLeaf sp l.entry.toNat)))) ∧
  (∀ (s : State) (sp : Space) (va : Nat) (acc : Acc),
    let t := (s.translate sp va acc).2
    t.me = s.me ∧ t.others = s.others ∧ t.regions = s.regions ∧ t.sats = s.sats ∧ t.counted = s.counted ∧ t.rdc = s.rdc ∧
      t.icache = s.icache ∧ t.schedule = s.schedule ∧
    (∀ root l, canonical va = true → s.servingLeaf sp va acc = none → s.asRoot sp.loc.mod sp.vif sp.asid = .ok root →
      s.walk sp.loc.mod va walkLevels root = .ok l → leafAllows l.entry.toNat acc sp.level = true →
      Memory.wf s.mem = true → l.at_ % 8 = 0 → l.at_ < 2 ^ 52 →
      s.counted? sp.loc.mod (l.at_ / 128) = none → s.poisoned sp.loc.mod (l.at_ / 128) = false →
      t.homeWord sp.loc.mod l.at_ = s.homeWord sp.loc.mod l.at_ ||| 0x20 ||| (if acc = .write then 0x40 else 0)))

/-- spec/06 R175 and spec/05 R150. Which writes of other threads happen before a release of scope 4 is not seen, so it waits for those of the module's threads
that were made before it (log entry 61). -/
def Obligations.FencesWaitAndRelease : Prop :=
  (∀ (s : State) (h : Hdr) (o : FEN), s.me.life ≠ .fencing →
    let kind := o.kind.toNat
    let sc := (extSel o.ext).toNat
    let done := s.me.queue = [] ∧ (kind ≠ 2 → ∀ i ∈ s.me.inflight, i.ready = true ∨ i.entry.isSome) ∧
      (kind ≠ 1 → 4 ≤ sc → s.remotesAcked s.me.uid = true ∧ s.writesAcked s.me.loc.mod s.nextReq = true)
    (done → s.completes (.fence h o) h (s.fenceEffect s.me.uid s.me.loc kind sc)) ∧
    (¬ done → exec (.fence h o) s = .next (s.upd fun a => { a with life := .fencing, fenceAt := s.nextReq }))) ∧
  (∀ (s : State) (a : Agent) (c : Chain) (o : FEN), s.agent? a.uid = some a → a.life = .fencing → parseChain a.ir = .ok c → c.asFEN = some o →
    let kind := o.kind.toNat
    let sc := (extSel o.ext).toNat
    let done := a.queue = [] ∧ (kind ≠ 2 → ∀ i ∈ a.inflight, i.ready = true ∨ i.entry.isSome) ∧
      (kind ≠ 1 → 4 ≤ sc → s.remotesAcked a.uid = true ∧ s.writesAcked a.loc.mod a.fenceAt = true)
    (done → exec (.fenceComplete a.uid) s = .next ((s.fenceEffect a.uid a.loc kind sc).updAgent a.uid
      fun a => { a with pc := a.pc + BitVec.ofNat 64 (2 * c.len), life := .ready }.retireChain c.wait)) ∧
    (¬ done → exec (.fenceComplete a.uid) s = .next s)) ∧
  (∀ (s : State) (uid : Nat) (loc : Loc) (kind sc : Nat), (∃ a, s.agent? uid = some a ∧ a.life ≠ .exited) →
    let t := s.fenceEffect uid loc kind sc
    (kind ≠ 1 → 3 ≤ sc → ∀ l ∈ t.rdc, l.mod = loc.mod → l.die = loc.die → l.due sc = 0) ∧
    (kind ≠ 2 → 3 ≤ sc → ∀ l ∈ t.rdc, l.mod = loc.mod → l.die = loc.die → l.keyed = false ∨ 4 ≤ sc → l.dirty ≠ 0 ∧ l.valid = l.dirty) ∧
    (kind = 1 → sc < 3 → t = s) ∧ (kind = 2 → sc < 3 → t = s.deliverAll uid))

/-- spec/06 R185 and R186: the trap is each one's own effect. -/
def Obligations.DeliberateTraps : Prop :=
  (∀ (s : State) (h : Hdr) (o : COD),
    (s.debugBound s.me = false → s.traps (.brk h o) 0x1B (s.nextPc h) (BitVec.ofNat 64 o.i.nat)) ∧
    (s.debugBound s.me = true → s.traps (.brk h o) 0x20 (s.nextPc h) (BitVec.ofNat 64 o.i.nat)) ∧
    s.traps (.ecall h o) 0x1C (s.nextPc h) (BitVec.ofNat 64 o.i.nat)) ∧
  (∀ (s : State) (c : Chain), s.traps (.udf c) 0x01 0 0) ∧
  delegable 0x1B = false ∧ delegable 0x1C = false ∧ delegable 0x01 = false

/-- spec/15 R368 to R370, with what a point of spec/03 R89 finds first (R90). A debug stop and a stream trap come before the failures that were due already
(spec/15 R377), but where they go to `utvec` not before one that this point has found (R370 step 2); what clusters have done to the fault mask and `vfmc` for
entries beyond the stopped one is set aside with the residue (spec/07 R196). A stream trap gives back unsent reservations and remote loads in flight
(`stopStream`, spec/11 R319, R316); the boundary is EVENT_BOUNDARY (spec/15 R377). The registers and the vector of a trap of firmware are the model's choice
(log entry 59). -/
def Obligations.TrapEntryAtUtvec : Prop :=
  ((∀ c, delegable c = true ↔ c ∈ [0x11, 0x12, 0x13, 0x14, 0x15, 0x16, 0x19, 0x26]) ∧
  (∀ (s : State) (t : Trap), s.me.level < 2 → delegable t.cause = true → s.me.utvec &&& ~~~1 ≠ 0 → s.me.uta = false → t.stream = false →
    s.me.mustWait t = false → s.nothingDue →
    s.takeTrap t = { s with
      barrier := s.barrier.filter fun b => b.uid != s.me.uid
      me := { (s.me.dropEvent t).clearPending with ucause := BitVec.ofNat 64 t.cause, uepc := t.epc &&& ~~~1, uaddr := t.addr, uinfo := t.info,
                                                   uta := true, life := .ready, userSeq := s.me.nextSeq, pc := s.me.utvec &&& ~~~1 } }) ∧
  (∀ (s : State) (t : Trap), s.me.level < 2 → delegable t.cause = true → s.me.utvec &&& ~~~1 ≠ 0 → s.me.uta = false → t.stream = true →
    s.me.aside = none → s.me.mustWait t = false → s.nothingDue →
    let a := (s.stopStream s.me.uid).me
    let b := (s.takeTrap t).me
    b.ucause = BitVec.ofNat 64 t.cause ∧ b.uepc = t.epc &&& ~~~1 ∧ b.uaddr = t.addr ∧ b.uinfo = t.info ∧ b.uta = true ∧
      b.pc = s.me.utvec &&& ~~~1 ∧ b.queue = [] ∧ b.aside = some ⟨a.queue, s.me.done, t.seq, s.me.vl, s.me.pc, s.me.fpera,
        s.me.marked && s.me.inflight.any fun i => i.entry.isSome, (s.me.foldVfmc (t.seq + 1)).vfmcLog⟩ ∧
      b.fmask = s.me.maskAt (t.seq + 1) ∧ (b.vfmcCount, b.vfmcCause) = s.me.vfmcAt (t.seq + 1) ∧
      b.x = s.me.x ∧ b.v = s.me.v ∧ b.p = s.me.p ∧ b.k = s.me.k ∧ (s.takeTrap t).mem = s.mem)) ∧
  ((∀ (s : State) (t : Trap), s.me.mustWait t = true → s.takeTrap t = s.upd fun a => { a with life := .trapping t }) ∧
  (∀ (s : State) (t : Trap) (f : Failure) (rest : List Failure), s.me.mustWait t = false → s.me.mustWait (s.me.hereTrap f.trap) = false →
    (t.stream = false ∧ t.cause ≠ 0x20) ∨ ((s.me.takesAtUtvec t = true ∨ 2 ≤ s.me.level) ∧ ∀ q ∈ s.me.failures, q.armed = false) →
    s.me.failures = f :: rest → (∀ r ∈ s.reports, r.ofAgent s.me.uid = false) →
    s.takeTrap t = (s.upd fun a => { a with life := .ready, failures := rest.map fun f => { f with armed := true } }).enterTrap (s.me.hereTrap f.trap)) ∧
  (∀ (s : State) (t : Trap), s.me.mustWait t = false → t.stream = true ∨ t.cause = 0x20 → (∀ q ∈ s.me.failures, q.armed = true) →
    (∀ r ∈ s.reports, r.ofAgent s.me.uid = false) → s.takeTrap t = (s.upd fun a => ({ a with life := .ready } : Agent).dropEvent t).enterTrap t) ∧
  (∀ (s : State) (t : Trap), s.me.mustWait t = false → t.stream = true ∨ t.cause = 0x20 → s.me.takesAtUtvec t = false → s.me.level < 2 →
    (∀ r ∈ s.reports, r.ofAgent s.me.uid = false) → s.takeTrap t = (s.upd fun a =>
      ({ a with life := .ready, failures := a.failures.map fun f => { f with armed := true } } : Agent).dropEvent t).enterTrap t) ∧
  (∀ (s : State) (t : Trap), s.me.life = .trapping t → s.me.mustWait t = false → t.cause ≠ 0x1F →
    exec (.eventBoundary s.me.uid) s = .next ((s.takeTrap t).focus s.me.uid)) ∧
  (∀ (s : State) (t : Trap), 2 ≤ s.me.level → s.me.mustWait t = false → s.nothingDue → t.stream = false →
    let b := (s.takeTrap t).me
    b.pc = Config.firmwareVector s.me.loc.mod s.me.loc.die s.me.level ∧ b.life = .ready ∧ b.placed = s.me.placed ∧ b.x = s.me.x ∧
      (s.takeTrap t).mem = s.mem))

/-- spec/15 R373 and R374. The hypothesis on `savePieces` is that the image of spec/15 R379 is written without a fault. -/
def Obligations.SupervisorTrapStopsTheThread : Prop :=
  (∀ (s t' : State) (t : Trap) (r : Region), s.me.level < 2 → s.me.takesAtUtvec t = false → s.me.mustWait t = false → s.me.isHandler = false →
    t.cause ≠ 0x20 → s.nothingDue → s.region? s.me.loc.mod s.me.rid = some r →
    let w := s.upd fun a => ({ a with life := .ready } : Agent).dropEvent t
    let v := (w.traceState w.me 4 t.cause).stopStream s.me.uid
    let u := if t.stream then v.upd fun a => { a with vstop := a.vstop.map fun q => { q with taken := true } } else v
    u.savePieces r s.me.loc (imageBase r s.me.tid) (imagePieces u u.me true (trapRecord w w.me t).words) = (.ok (), t') →
    let b := (s.takeTrap t).me
    b.uid = s.me.uid ∧ b.life = .queued ∧ b.placed = false ∧ b.saved = true ∧ b.hold = true ∧ b.ucause = s.me.ucause ∧ b.uepc = s.me.uepc ∧
      b.uaddr = s.me.uaddr ∧ b.uinfo = s.me.uinfo ∧ b.uta = s.me.uta ∧ b.x = s.me.x ∧ b.pc = s.me.pc) ∧
  (∀ (s : State) (t : Trap), s.me.level < 2 → s.me.takesAtUtvec t = false → s.me.mustWait t = false → s.me.isHandler = true → s.nothingDue →
    (s.takeTrap t).me.life = .exited)

/-- spec/15 R371: `rett` waits for the entries issued since the trap (those from `userSeq` on), not for older ones; held asynchronous causes are marked as such (spec/15 R372), and the sticky flags of entries of the stop's era join the current ones (log entry 27). -/
def Obligations.ReturnFromUserTrap : Prop :=
  ∀ (s : State) (h : Hdr),
    (s.me.uta = false → s.me.level = 0 → s.traps (.rett h) 0x1D 0 0) ∧
    (s.me.uta = false → s.me.level ≠ 0 → s.traps (.rett h) 0x01 0 0) ∧
    (s.me.uta = true → (∃ e ∈ s.me.queue, s.me.userSeq ≤ e.seq) → s.holds (.rett h)) ∧
    (s.me.uta = true → (∀ e ∈ s.me.queue, e.seq < s.me.userSeq) → s.me.aside = none → h.wait = false →
      ∃ t, exec (.rett h) s = .next t ∧ t.me.uta = false ∧ t.me.pc = s.me.uepc &&& ~~~1 ∧ t.me.queue = s.me.queue ∧ t.me.life = s.me.life ∧
        t.me.vl = s.me.vl ∧ t.me.x = s.me.x ∧ t.me.v = s.me.v ∧ t.me.p = s.me.p ∧ t.me.k = s.me.k ∧ t.me.ucause = s.me.ucause ∧
        t.me.uepc = s.me.uepc ∧ t.me.fpflags = s.me.fpflags ∧ s.sameRest t) ∧
    (∀ r, s.me.uta = true → s.me.queue = [] → s.me.aside = some r → h.wait = false → r.marked = false →
      ∃ t, exec (.rett h) s = .next t ∧ t.me.uta = false ∧ t.me.pc = r.pc &&& ~~~1 ∧ t.me.aside = none ∧ t.me.done = r.done ∧ t.me.vl = r.vl ∧
        t.me.queue.map Entry.seq = r.queue.map Entry.seq ∧ t.me.queue.map Entry.instr = r.queue.map Entry.instr ∧
        (∀ e ∈ t.me.queue, e.seq = r.f → e.rm = s.me.fprm ∧ e.sp = s.me.fpsp ∧ e.en = s.me.fpen) ∧
        t.me.x = s.me.x ∧ t.me.v = s.me.v ∧ t.me.k = s.me.k ∧ s.sameRest t)

/-- spec/15 R377; `boundaryTrap` is TAKING A TRAP after leaving a park, and the event that it comes from is then pending no more (`dropEvent`); `focus` gives the
turn back. A stop of the stream is taken once every cluster has come to entry F (spec/02 R43), and until then nothing later is. That the first 0x13 of several
comes first is the model's choice (log entry 55). -/
def Obligations.BoundaryTakesEventsInOrder : Prop :=
  ∀ (s : State), s.me.life = .ready →
    let a := s.me
    let takes := fun (t : State) => exec (.eventBoundary a.uid) s = .next (t.focus a.uid)
    let same := fun (t q : Trap) => q.cause = t.cause ∧ q.addr = t.addr ∧ q.info = t.info
    (∀ t, a.mustWait t = false → s.nothingDue → s.boundaryTrap t = (s.upd fun a => ({ a with life := .ready } : Agent).dropEvent t).enterTrap t) ∧
    (∀ t, a.debugStop = some t → takes (s.boundaryTrap (a.hereTrap t)) ∧ (a.dropEvent (a.hereTrap t)).debugStop = none) ∧
    (a.debugStop = none → s.codeStops ≠ [] → takes (s.watchCode.debugStop s.codeStops (issueTrap 0x20 a.pc 0 0))) ∧
    (a.debugStop = none → s.codeStops = [] → ∀ v, a.vstop = some v →
      ((∀ d ∈ a.done, v.seq ≤ d) → takes (s.boundaryTrap (a.stopTrap v))) ∧ ((∃ d ∈ a.done, d < v.seq) → takes s)) ∧
    (a.debugStop = none → s.codeStops = [] → a.vstop = none →
      (∀ f, a.failures.find? Failure.armed = some f → takes (s.boundaryTrap (a.hereTrap f.trap))) ∧
      (a.failures.find? Failure.armed = none →
        (a.cycleLimit = true → takes (s.boundaryTrap (a.hereTrap ⟨0x24, 0, 0, 0, false, 0⟩)) ∧
          (a.dropEvent (a.hereTrap ⟨0x24, 0, 0, 0, false, 0⟩)).cycleLimit = false) ∧
        (a.cycleLimit = false →
          (a.uta = false → ∀ before u after, a.late = before ++ u :: after →
            (u.seq = 1 ∧ (∀ q ∈ before, q.seq ≠ 1)) ∨
              ((∀ q ∈ a.late, q.seq ≠ 1) ∧ ((u.cause = 0x26 ∧ ∀ q ∈ before, q.cause ≠ 0x26) ∨ (before = [] ∧ ∀ q ∈ a.late, q.cause ≠ 0x26))) →
            takes (s.boundaryTrap (a.hereTrap { u with seq := 0 })) ∧
            ((∀ q ∈ before, ¬ same u q) → (a.dropEvent (a.hereTrap { u with seq := 0 })).late = before ++ after)) ∧
          (a.uta = true ∨ a.late = [] →
            (a.preempt = true → a.isHandler = false → takes s.boundaryPreempt) ∧ (a.preempt = false ∨ a.isHandler = true → takes s)))))

/-- spec/06 R178 to R181; the operations on values are those of spec/04 (`addV`, `mulV`, `fmaV`, `cmpVal`, `convert`). spec/06 R180. -/
def Obligations.FloatingPointResults : Prop :=
  (∀ (s : State) (h : Hdr) (o : FRR) (q : CVT),
    let w := extSel o.ext
    let t := fpFmt w
    let rm := if s.me.fprm = 5 then 0 else s.me.fprm.toNat
    let a := t.val (fpBits w (s.x (firstReg o.ext o.a)))
    let b := t.val (fpBits w (s.x o.b))
    let c := t.val (fpBits w (s.x o.a))
    let does := fun (i : Instr) (r : FpRes) (rd : Reg) (v : Word) =>
      (s.me.fpen &&& r.flags = 0 → s.completes i h ((s.upd fun a => { a with fpflags := a.fpflags ||| r.flags }).setX rd v)) ∧
      (s.me.fpen &&& r.flags ≠ 0 → s.traps i 0x15 0 ((s.me.fpen &&& r.flags).setWidth 64))
    (s.notPending [firstReg o.ext o.a, o.b, o.a] [] →
      (let r := t.addV rm s.me.fpsp a b; does (.fadd h o) r o.a (BitVec.ofNat 64 r.bits)) ∧
      (let r := t.addV rm s.me.fpsp a b.neg; does (.fsub h o) r o.a (BitVec.ofNat 64 r.bits)) ∧
      (let r := t.mulV rm s.me.fpsp a b; does (.fmul h o) r o.a (BitVec.ofNat 64 r.bits)) ∧
      (let r := t.fmaV rm s.me.fpsp c a b; does (.fmadd h o) r o.a (BitVec.ofNat 64 r.bits)) ∧
      (let r : FpRes := ⟨0, if a.snan || b.snan then flagNV else 0⟩
       does (.fcmp h o) r o.a (BitVec.ofInt 64 (if a.isNan || b.isNan then 2 else cmpVal a b)))) ∧
    (s.notPending [q.b, q.a] [] →
      let r := convert q.src.toNat q.dst.toNat rm s.me.fpsp ((s.x q.b).toNat % 2 ^ codeBits q.src.toNat)
      does (.fcvt h q) r q.a (if codeInt q.dst.toNat then sext (codeBits q.dst.toNat) r.bits else BitVec.ofNat 64 r.bits))) ∧
  (∀ (s : State) (h : Hdr) (o : FRR) (q : FRU),
    let rm := if s.me.fprm = 5 then 0 else s.me.fprm.toNat
    let does := fun (i : Instr) (r : FpRes) (rd : Reg) =>
      let v := Inflight.known (BitVec.ofNat 256 r.bits)
      (s.me.fpen &&& r.flags = 0 → s.completes i h (s.postX rd { v with flags := r.flags, era := s.me.fpera })) ∧
      (s.me.fpen &&& r.flags ≠ 0 →
        s.completes i h (s.postX rd { v with keep := true, fail := some ⟨0x15, 0, s.me.pc, (s.me.fpen &&& r.flags).setWidth 64, false, 0⟩ }))
    (s.notPending [firstReg o.ext o.a, o.b, o.a] [] →
      let w := extSel o.ext
      does (.fdiv h o) ((fpFmt w).divV rm s.me.fpsp ((fpFmt w).val (fpBits w (s.x (firstReg o.ext o.a)))) ((fpFmt w).val (fpBits w (s.x o.b)))) o.a) ∧
    (s.notPending [q.b, q.a] [] →
      let w := extSel q.ext
      does (.fsqrt h q) ((fpFmt w).sqrtV rm s.me.fpsp ((fpFmt w).val (fpBits w (s.x q.b)))) q.a))

/-- Packing and unpacking of spec/04 R103 and R112 agree on every finite pattern. -/
def Obligations.RoundingKeepsRepresentableValues : Prop :=
  ∀ t ∈ [Fmt.fp64, Fmt.fp32, Fmt.bf16, Fmt.fp16, Fmt.e5m2, Fmt.e4m3, Fmt.e2m1], ∀ (x rm : Nat) (sp neg : Bool) (m : Nat) (e : Int),
    x < 2 ^ t.bits → t.val x = .fin neg m e → t.round rm sp neg m e = ⟨x, 0⟩

/-- spec/06 R182; `crWord` holds one case for each register of spec/03 R65. -/
def Obligations.ControlRegisterReads : Prop :=
  ∀ (s : State) (h : Hdr) (o : CRN), s.notPending [o.a] [] →
    (crListed o.i.nat = true → o.i.nat < 0x70 → s.writesX (.mfcr h o) o.a (s.crWord o.i.nat) (s.pcAfter h)) ∧
    (crListed o.i.nat = true → 0x70 ≤ o.i.nat → s.observes = true →
      s.completes (.mfcr h o) h (s.postX o.a (Inflight.known ((s.counterWord s.me o.i.nat).setWidth 256)))) ∧
    (crListed o.i.nat = true → 0x70 ≤ o.i.nat → s.observes = false → s.traps (.mfcr h o) 0x06 0 0) ∧
    (crListed o.i.nat = false → s.traps (.mfcr h o) 0x01 0 0) ∧
    (s.me.cls = 0 → s.completes (.mfcrStream h o) h (s.postX o.a (Inflight.known ((s.me.streamWord o.i.nat).setWidth 256)))) ∧
    (s.takesEntry → s.completes (.mfcrStream h o) h
      ((s.upd fun a => a.enqueued { s.newEntry (.mfcrStream h o) [] 0 with aux := a.fpflags.toNat }).postX o.a (Inflight.ofEntry s.me.nextSeq))) ∧
    (s.me.cls ≠ 0 → 64 ≤ s.me.queue.length → s.holds (.mfcrStream h o))

/-- spec/06 R183, one clause for each register. -/
def Obligations.ControlRegisterWrites : Prop :=
  ∀ (s : State) (h : Hdr) (o : CRN), s.notPending [o.a] [] →
    let v := s.x o.a
    let n := o.i.nat
    (n = 0x011 → s.completes (.mtcr h o) h (s.upd fun a => { a with sshape := v })) ∧
    (n = 0x012 → s.completes (.mtcr h o) h (s.upd fun a => { a with slaunch := v })) ∧
    (n = 0x013 → s.completes (.mtcr h o) h (s.upd fun a => { a with safter := v })) ∧
    (n = 0x030 → s.completes (.mtcr h o) h (s.upd fun a => { a with utvec := v &&& ~~~1 })) ∧
    (n = 0x031 → s.completes (.mtcr h o) h (s.upd fun a => { a with ucause := (v.extractLsb' 0 8).setWidth 64 })) ∧
    (n = 0x032 → s.completes (.mtcr h o) h (s.upd fun a => { a with uepc := v &&& ~~~1 })) ∧
    (n = 0x033 → s.completes (.mtcr h o) h (s.upd fun a => { a with uaddr := v })) ∧
    (n = 0x034 → s.completes (.mtcr h o) h (s.upd fun a => { a with uinfo := v })) ∧
    (n ∉ [0x011, 0x012, 0x013, 0x030, 0x031, 0x032, 0x033, 0x034] → s.traps (.mtcr h o) 0x01 0 0) ∧
    s.completes (.mtcrSlip h o) h (s.upd fun a => { a with slip := min 32 (v.toNat % 64) }) ∧
    s.completes (.mtcrGangto h o) h (s.upd fun a => { a with gangto := max 1024 (v.toNat % 2 ^ 32) }) ∧
    (v.toNat < 2 ^ 33 → s.completes (.mtcrSattr h o) h (s.upd fun a => { a with sattr := v })) ∧
    (2 ^ 33 ≤ v.toNat → s.traps (.mtcrSattr h o) 0x01 0 0) ∧
    (v.toNat % 8 < 6 → s.completes (.mtcrFpcsr h o) h (s.upd fun a =>
      { a with fprm := v.extractLsb' 0 3, fpflags := v.extractLsb' 3 5, fpen := v.extractLsb' 8 5, fpsp := v.getLsbD 13, fpera := a.fpera + 1 })) ∧
    (6 ≤ v.toNat % 8 → s.traps (.mtcrFpcsr h o) 0x01 0 0) ∧
    (s.me.cls = 0 → s.traps (.mtcrVl h o) 0x01 0 0 ∧ s.traps (.mtcrEfc h o) 0x01 0 0) ∧
    (s.takesEntry → s.completes (.mtcrVl h o) h (s.upd fun a => a.enqueued (s.newEntry (.mtcrVl h o) [v] 0)) ∧
      s.completes (.mtcrEfc h o) h (s.upd fun a => a.enqueued (s.newEntry (.mtcrEfc h o) [v] 0))) ∧
    (s.me.cls ≠ 0 → 64 ≤ s.me.queue.length → s.holds (.mtcrVl h o) ∧ s.holds (.mtcrEfc h o))

/-- spec/02 R37 and R39 for every vector instruction (`Instr.captures` names them), setvl and vmvx. -/
def Obligations.VectorInstructionsJoinTheQueue : Prop :=
  (∀ (s : State) (i : Instr) (h : Hdr) (rs : List Reg), Instr.captures i = some (h, rs) →
    (s.me.cls = 0 → s.traps i 0x01 0 0) ∧
    (s.takesEntry → s.notPending rs [] → s.completes i h (s.upd fun a => a.enqueued (s.newEntry i (rs.map s.x) 0))) ∧
    (s.me.cls ≠ 0 → 64 ≤ s.me.queue.length → s.notPending rs [] → s.holds i)) ∧
  (∀ (s : State) (h : Hdr) (o : SVL) (q : VXS),
    (s.me.cls = 0 → s.traps (.setvl h o) 0x01 0 0 ∧ s.traps (.vmvx h q) 0x01 0 0) ∧
    (s.takesEntry → s.notPending (RegImm.regs o.t ++ [o.a]) [] →
      s.completes (.setvl h o) h ((s.upd fun a => a.enqueued (s.newEntry (.setvl h o) ((RegImm.regs o.t).map s.x) 0)).setX o.a
        (BitVec.ofNat 64 (min (s.val o.t).toNat (s.me.mvl (widthBits (extSel o.ext))))))) ∧
    (s.takesEntry → s.notPending (RegImm.regs q.t ++ [q.a]) [] →
      s.completes (.vmvx h q) h ((s.upd fun a => a.enqueued (s.newEntry (.vmvx h q) ((RegImm.regs q.t).map s.x) 0)).postX q.a
        (Inflight.ofEntry s.me.nextSeq))) ∧
    (s.me.cls ≠ 0 → 64 ≤ s.me.queue.length → (s.notPending (RegImm.regs o.t ++ [o.a]) [] → s.holds (.setvl h o)) ∧
      (s.notPending (RegImm.regs q.t ++ [q.a]) [] → s.holds (.vmvx h q))))

/-- spec/02 R42 for entries without memory, at the head of the queue. -/
def Obligations.AddressStageGivesVlAndMask : Prop :=
  ∀ (s : State) (e : Entry) (rest : List Entry), s.me.streams = true → s.me.vstop = none → s.me.queue = e :: rest →
    (∀ q ∈ rest, q.seq ≠ e.seq) → e.passed = false → e.redo = false →
    let as := fun (vl n : Nat) => { e with vl := vl, n := n, mask := s.me.readMask e.instr, passed := true } :: rest
    ((Instr.vdest e.instr).isSome →
      exec (.vectorAddressStage s.me.uid) s =
        .next (s.upd fun a => { a with queue := as a.vl (min a.vl (a.mvl (Instr.vwidth e.instr))) })) ∧
    (∀ h o, e.instr = .mtcrVl h o →
      exec (.vectorAddressStage s.me.uid) s =
        .next (s.upd fun a => { a with vl := min (e.xs.getD 0 0).toNat (4 * classMvl a.cls), queue := as a.vl (min a.vl (a.mvl 32)) })) ∧
    (∀ h o r, e.instr = .setvl h o → o.t = .reg r →
      exec (.vectorAddressStage s.me.uid) s =
        .next (s.upd fun a => { a with vl := min (e.xs.getD 0 0).toNat (a.mvl (widthBits (extSel o.ext))),
                                       queue := as a.vl (min a.vl (a.mvl 32)) })) ∧
    (∀ h o, e.instr = .mtcrEfc h o → (∀ q ∈ rest, q.readsEfc = false) →
      exec (.vectorAddressStage s.me.uid) s =
        .next (s.upd fun a => { a with efc := (e.xs.getD 0 0).setWidth 32, queue := as a.vl (min a.vl (a.mvl (Instr.vwidth e.instr))) }))

/-- spec/02 R42 and spec/08 R209 to R212; `probeAll` checks the active elements in ascending order. The frame of a vector store, and of the slots of `vappend` (R228): the stored bytes are those at the places that the address stage gave its elements, each aligned to its width; the lines are written under the key of the elements' leaves (spec/17 R417), and the die's RDC has room for them (see
StoresChangeOnlyTheirBytes). -/
def Obligations.VectorAccessesAndTheirFaults : Prop :=
  (∀ (s t : State) (e : Entry) (k : MemKind) (ps : List Probe), e.speculates = false → e.redo = false → (∀ a, t.debugFor a = []) →
    s.probeAll e k ((List.range e.n).filter fun i => e.active i) = (ps, t) →
    (ps.all (fun p => !p.bad) = true → s.stageMem e k = t.passEntry { e with lanes := ps.map Probe.lane }) ∧
    (∀ p, ps.find? Probe.bad = some p →
      (k.store = true ∨ p.i = 0 → s.stageMem e k = t.upd fun a => a.stopAt p.i (e.elemTrap p.cause p.addr p.i)) ∧
      (k.store = false → p.i ≠ 0 → s.stageMem e k =
        (t.passEntry { e with vl := p.i, n := p.i, lanes := (ps.filter fun q => decide (q.i < p.i)).map Probe.lane }).upd fun a =>
          { a with vl := p.i, vfmcLog := addLog ⟨e.seq, p.i, (ps.filter Probe.bad).length, p.cause, false, 0, 0⟩ a.vfmcLog }))) ∧
  (∀ (s : State) (e : Entry) (g : Nat) (h : Hdr) (o : ADR) (q : VU), s.clusterAt e g → e.instr = .vst h o ∨ e.instr = .vappend h q →
    Instr.vwidth e.instr ∈ [8, 16, 32, 64] →
    let wb := Instr.vwidth e.instr / 8
    let ls := if e.instr = .vst h o then s.me.clusterLanes e g else e.lanes
    Memory.wf s.mem = true → (∀ l ∈ ls, l.place % wb = 0 ∧ l.place < 2 ^ 52 ∧ s.lineKey s.me.loc.mod (l.place / 128) = l.key ∧
      (∀ r ∈ s.rdc, r.ep = s.me.loc.mod → r.line = l.place / 128 → r.key = l.key) ∧
      (s.homeDie (l.place / 128) = s.me.loc.die ∨ (s.rdcMates s.me.loc.mod s.me.loc.die (l.place / 128)).length + ls.length ≤ 8)) →
    ∃ t, s.clusterGives g t ∧ t.me.x = s.me.x ∧ t.me.v = s.me.v ∧ t.me.p = s.me.p ∧ t.me.k = s.me.k ∧ t.others = s.others ∧
      ∀ (v : Via) (q : Nat), q < 2 ^ 52 →
        (v.loc.mod = s.me.loc.mod → ∀ l ∈ ls, (q / 128 = l.place / 128 → v.key = l.key) ∧ ¬ (l.place ≤ q ∧ q < l.place + wb)) →
        t.byteAt v q = s.byteAt v q)

/-- spec/02 R40 and R41: what must hold of the entry that `nextFor` gives a cluster. spec/02 R43: the choice of entry F and of the element within it; a stop leaves every restart index as it is. -/
def Obligations.SlipBarriersAndStopsOfTheStream : Prop :=
  (∀ (a : Agent) (g : Nat) (e : Entry), a.nextFor g = some e →
    e ∈ a.queue ∧ e.seq = a.done.getD g 0 ∧ e.passed = true ∧ e.seq - a.minDone ≤ e.slip ∧ (∀ d ∈ a.done, a.minDone ≤ d) ∧
    (∀ v, a.vstop = some v → e.seq < v.seq) ∧ (Instr.cross e.instr = true → ∀ d ∈ a.done, d = e.seq)) ∧
  (∀ (a : Agent) (elem : Nat) (t : Trap),
    (a.stopAt elem t).done = a.done ∧ (a.stopAt elem t).queue = a.queue ∧ (a.stopAt elem t).v = a.v ∧ (a.stopAt elem t).p = a.p ∧
    (a.vstop = none → (a.stopAt elem t).vstop = some ⟨t.seq, elem, t, false⟩) ∧
    (∀ v, a.vstop = some v → (t.seq < v.seq ∨ (t.seq = v.seq ∧ elem < v.elem)) → (a.stopAt elem t).vstop = some ⟨t.seq, elem, t, false⟩) ∧
    (∀ v, a.vstop = some v → ¬ (t.seq < v.seq ∨ (t.seq = v.seq ∧ elem < v.elem)) → (a.stopAt elem t).vstop = some v))

/-- spec/07 R188 and R189; `laneVal` is the result of an element (ElementAndPredicateResults). A conversion whose destination is its source at another width
keeps the source for the clusters that come later, since every element is read before one is written (that it keeps it in the entry is the model's choice, log
entry 26). -/
def Obligations.ClusterWritesItsOwnElements : Prop :=
  ∀ (s : State) (e : Entry) (g : Nat) (rd : Reg) (w : Nat), s.clusterAt e g → Instr.vdest e.instr = some (rd, w) → Instr.barrier e.instr = false →
    e.speculates = false → (∀ h o, e.instr ≠ .vmerge h o) → 0 < w → e.n * w ≤ 8192 →
    let els := s.me.clusterElems g e.n
    let fl := (els.filter fun i => e.active i).map fun i => (i, (laneVal s.me e i).flags)
    (fpTrapping e fl = none → ∃ t, s.clusterGives g t ∧ s.sameRest t ∧ s.me.sameButV t.me rd ∧
      ∀ i, i * w < 8192 → t.me.elem rd w i =
        (if i ∈ els then (if e.active i then (laneVal s.me e i).bits % 2 ^ w else if e.zeroing then 0 else s.me.elem rd w i)
         else s.me.elem rd w i)) ∧
    (∀ q, fpTrapping e fl = some q → s.me.life ≠ .exited → s.clusterGives g (s.upd fun a => a.stopAt q.1 (e.fpTrap q.1 q.2))) ∧
    (∀ h o, e.instr = .vcvt h o → Instr.selfWidth e.instr = true → e.src = none → fpTrapping e fl = none →
      ∃ t, s.clusterGives g t ∧ ∀ q ∈ t.me.queue, q.seq = e.seq → q.src = some (s.me.v[o.b.toNat]'(o.b.isLt)))

/-- spec/07 R191 and R192 as arithmetic of w-bit words; `elemOr` is the element of vT or the low bits of the immediate. spec/07 R200, R201; `lanePred` gives the condition of an element by spec/03 R80. spec/07 R193 to R195: one rounding by the mode captured at issue, 101 as RNE; the operations on
values are those of spec/04. R202: `vsel` chooses by the mask, and writes every element. -/
def Obligations.ElementAndPredicateResults : Prop :=
  ((∀ (a : Agent) (e : Entry) (k : Nat) (h : Hdr) (o : VRR), (extSel o.ext).toNat ≤ 3 →
    let w := widthBits (extSel o.ext)
    let x := BitVec.ofNat w (a.elem (firstReg o.ext o.a) w k)
    let y := BitVec.ofNat w (a.elemOr o.t w k)
    let gives := fun (i : Instr) (v : BitVec w) => laneVal a { e with instr := i } k = ⟨v.toNat, 0⟩
    gives (.vadd h o) (x + y) ∧ gives (.vsub h o) (x - y) ∧ gives (.vmul h o) (x * y) ∧
    gives (.vmulh h o) ((x.signExtend (2 * w) * y.signExtend (2 * w)).extractLsb' w w) ∧
    gives (.vand h o) (x &&& y) ∧ gives (.vor h o) (x ||| y) ∧ gives (.vxor h o) (x ^^^ y) ∧
    gives (.vsll h o) (x <<< (y.toNat % w)) ∧ gives (.vsrl h o) (x >>> (y.toNat % w)) ∧ gives (.vsra h o) (x.sshiftRight (y.toNat % w)) ∧
    gives (.vmin h o) (BitVec.ofInt w (min x.toInt y.toInt)) ∧ gives (.vmax h o) (BitVec.ofInt w (max x.toInt y.toInt)) ∧
    gives (.vminu h o) (BitVec.ofNat w (min x.toNat y.toNat)) ∧ gives (.vmaxu h o) (BitVec.ofNat w (max x.toNat y.toNat)) ∧
    gives (.vaddsat h o) (BitVec.ofInt w (max (-(2 : Int) ^ (w - 1)) (min ((2 : Int) ^ (w - 1) - 1) (x.toInt + y.toInt))))) ∧
  (∀ (a : Agent) (e : Entry) (k : Nat) (h : Hdr) (o : VBC) (q : VU),
    let w := widthBits (extSel o.ext)
    laneVal a { e with instr := .vid h o } k = ⟨k % 2 ^ w, 0⟩ ∧
    (∀ r, o.t = .reg r → laneVal a { e with instr := .vbcast h o } k = ⟨(e.xs.getD 0 0).toNat % 2 ^ w, 0⟩) ∧
    (∀ i, o.t = .imm i → laneVal a { e with instr := .vbcast h o } k = ⟨umod w i.int, 0⟩) ∧
    laneVal a { e with instr := .vmvv h q } k = ⟨a.elem q.b (widthBits (extSel q.ext)) k, 0⟩) ∧
  (∀ (a : Agent) (e : Entry) (k : Nat) (h : Hdr) (o : VRR) (q : VU) (c : CVT),
    let w := widthBits (extSel o.ext)
    let t := vFmt (extSel o.ext)
    let rm := if e.rm = 5 then 0 else e.rm.toNat
    let x := a.elem (firstReg o.ext o.a) w k
    let y := a.elemOr o.t w k
    let gives := fun (i : Instr) (r : FpRes) => laneVal a { e with instr := i } k = r
    gives (.vfadd h o) (t.addV rm e.sp (t.val x) (t.val y)) ∧ gives (.vfsub h o) (t.addV rm e.sp (t.val x) (t.val y).neg) ∧
    gives (.vfmul h o) (t.mulV rm e.sp (t.val x) (t.val y)) ∧ gives (.vfdiv h o) (t.divV rm e.sp (t.val x) (t.val y)) ∧
    gives (.vfma h o) (t.fmaV rm e.sp (t.val (a.elem o.a w k)) (t.val x) (t.val y)) ∧
    gives (.vfmin h o) (t.minMax false x y) ∧ gives (.vfmax h o) (t.minMax true x y) ∧
    (let u := vFmt (extSel q.ext)
     let z := a.elem q.b (widthBits (extSel q.ext)) k
     gives (.vfsqrt h q) (u.sqrtV rm e.sp (u.val z)) ∧ gives (.vfexp2 h q) (u.exp2V rm e.sp (u.val z)) ∧ gives (.vclass h q) ⟨u.classOf z, 0⟩) ∧
    (let sw := codeBits c.src.toNat
     gives (.vcvt h c) (convert c.src.toNat c.dst.toNat rm e.sp (match e.src with
       | some v => v.toNat / 2 ^ (sw * k) % 2 ^ sw
       | none => a.elem c.b sw k)))) ∧
  (∀ (t : Fmt) (x y : Nat),
    (∀ gt, (t.minMax gt x y).flags = if (t.val x).snan || (t.val y).snan then flagNV else 0) ∧
    (∀ gt, (t.val x).isNan = true → (t.val y).isNan = true → (t.minMax gt x y).bits = t.nan) ∧
    (∀ gt, (t.val x).isNan = true → (t.val y).isNan = false → (t.minMax gt x y).bits = y) ∧
    (∀ gt, (t.val x).isNan = false → (t.val y).isNan = true → (t.minMax gt x y).bits = x) ∧
    ((t.val x).isNan = false → (t.val y).isNan = false →
      cmpVal (t.val x) (t.val y) < 0 ∨ (cmpVal (t.val x) (t.val y) = 0 ∧ (t.val x).isNeg = true ∧ (t.val y).isNeg = false) →
      (t.minMax false x y).bits = x ∧ (t.minMax true x y).bits = y ∧ (t.minMax false y x).bits = x ∧ (t.minMax true y x).bits = y)) ∧
  (∀ (s : State) (e : Entry) (g : Nat) (h : Hdr) (o : VRR), s.clusterAt e g → e.instr = .vsel h o →
    let w := widthBits (extSel o.ext)
    w ∈ [8, 16, 32, 64] → e.n * w ≤ 8192 →
    ∃ t, s.clusterGives g t ∧ s.sameRest t ∧ s.me.sameButV t.me o.a ∧
      ∀ i, i * w < 8192 → t.me.elem o.a w i =
        (if i ∈ s.me.clusterElems g e.n then (if e.active i then s.me.elem (firstReg o.ext o.a) w i else s.me.elemOr o.t w i)
         else s.me.elem o.a w i))) ∧
  ((∀ (s : State) (e : Entry) (g : Nat) (h : Hdr) (o : VCM), s.clusterAt e g → (e.instr = .vcmp h o ∨ e.instr = .vfcmp h o) →
    o.p.toNat < 12 → e.n ≤ 1024 →
    let els := s.me.clusterElems g e.n
    fpTrapping e ((els.filter fun i => e.active i).map fun i => (i, (lanePred s.me e i).2)) = none →
    ∃ t, s.clusterGives g t ∧ s.sameRest t ∧ t.me.v = s.me.v ∧ t.me.x = s.me.x ∧
      (∀ q : Reg4, q ≠ o.p → t.me.getP q = s.me.getP q) ∧
      ∀ i, i < 1024 → (t.me.getP o.p).getLsbD i =
        (if i ∈ els then (if e.active i then (lanePred s.me e i).1 else if e.zeroing then false else (s.me.getP o.p).getLsbD i)
         else (s.me.getP o.p).getLsbD i)) ∧
  (∀ (s : State) (e : Entry) (g : Nat) (h : Hdr) (o : PLG), s.clusterAt e g → e.instr = .plog h o → o.a.toNat < 12 → s.me.cls ≤ 5 →
    ∃ t, s.clusterGives g t ∧ s.sameRest t ∧ t.me.v = s.me.v ∧ t.me.x = s.me.x ∧
      (∀ q : Reg4, q ≠ o.a → t.me.getP q = s.me.getP q) ∧
      ∀ i, i < 1024 → (t.me.getP o.a).getLsbD i =
        (if i ∈ s.me.clusterElems g (s.me.mvl 8) then plogBit o.f ((s.me.getP o.b).getLsbD i) ((s.me.getP o.c).getLsbD i)
         else (s.me.getP o.a).getLsbD i)))

/-- spec/08 R221 to R226, R231 and R233, spec/04 R109, R119 and R120: `gap` is what R188 writes to an inactive element under zeroing. `treeSum` is the tree of
R224, `carry` the sequence of R120, whose step is `efStep`. spec/08 R227 to R229: the atomic step of `vappend` on `TAIL`, its slots, and what it writes to them. -/
def Obligations.CrossClusterResults : Prop :=
  (∀ (s : State) (e : Entry) (g : Nat) (h : Hdr), s.clusterAt e g → e.n * Instr.vwidth e.instr ≤ 8192 →
    let act := (List.range e.n).filter fun i => e.active i
    let a := s.me
    let writes := fun (rd : Reg) (w : Nat) (new : Nat → Option Nat) => ∃ t, s.clusterGives g t ∧ s.sameRest t ∧ a.sameButV t.me rd ∧
      ∀ i, i * w < 8192 → t.me.elem rd w i = (match new i with | some v => v % 2 ^ w | none => a.elem rd w i)
    let first := fun (v : Nat) (i : Nat) => if i = 0 ∧ 0 < e.n then some v else none
    let gap := fun (i : Nat) => if e.zeroing = true ∧ i < e.n then some 0 else (none : Option Nat)
    (∀ o : VU, widthBits (extSel o.ext) ∈ [8, 16, 32, 64] →
      let w := widthBits (extSel o.ext)
      let src := act.map fun i => a.elem o.b w i
      (e.instr = .vredsum h o → writes o.a w (first src.sum)) ∧
      (e.instr = .vredmax h o → writes o.a w (first (umod w ((src.map (sval w)).foldl max (-(2 : Int) ^ (w - 1)))))) ∧
      (e.instr = .vredmin h o → writes o.a w (first (umod w ((src.map (sval w)).foldl min ((2 : Int) ^ (w - 1) - 1))))) ∧
      (e.instr = .vscan h o → writes o.a w fun i =>
        if i ∈ act then some ((act.filter fun j => decide (j ≤ i)).map fun j => a.elem o.b w j).sum else gap i) ∧
      (e.instr = .vcompress h o → writes o.a w fun i => match src[i]? with | some v => some v | none => gap i) ∧
      (e.instr = .vfredsum h o → ∀ k, e.n ≤ 2 ^ k → (k = 0 ∨ 2 ^ (k - 1) < e.n) →
        let rm := if e.rm = 5 then 0 else e.rm.toNat
        let r := treeSum (vFmt (extSel o.ext)) rm e.sp k fun i => if i ∈ act then some (a.elem o.b w i) else none
        (e.en &&& r.2 = 0 → writes o.a w (first (r.1.getD 0))) ∧
        (e.en &&& r.2 ≠ 0 → 0 < e.n → a.life ≠ .exited → s.clusterGives g (s.upd fun a => a.stopAt 0 (e.fpTrap 0 r.2))))) ∧
    (∀ o : VRR, widthBits (extSel o.ext) ∈ [8, 16, 32, 64] → e.instr = .vperm h o →
      let w := widthBits (extSel o.ext)
      writes o.a w fun i => if i ∈ act then some (if a.elemOr o.t w i < e.n then a.elem (firstReg o.ext o.a) w (a.elemOr o.t w i) else 0) else gap i) ∧
    (∀ o : VXS, widthBits o.ext.sel ∈ [8, 16, 32, 64] → e.instr = .vslide h o →
      let w := widthBits o.ext.sel
      let off := match o.t with | .reg _ => (e.xs.getD 0 0).toInt | .imm q => q.int
      writes o.a w fun i => if i ∈ act then some (if 0 ≤ (i : Int) + off ∧ (i : Int) + off < e.n then a.elem o.ext.c w ((i : Int) + off).toNat
        else 0) else gap i) ∧
    (∀ o : PCT,
      (e.instr = .pcnt h o → writes o.a 32 (first (act.filter fun i => (a.getP o.p).getLsbD i).length)) ∧
      (e.instr = .pfirst h o → writes o.a 32 (first ((act.filter fun i => (a.getP o.p).getLsbD i).headD 0xFFFFFFFF)))) ∧
    (∀ o : CVT,
      let sw := codeBits o.src.toNat
      let dw := codeBits o.dst.toNat
      let src := fmtOf o.src.toNat
      let dst := fmtOf o.dst.toNat
      let x := fun (i : Nat) => src.val (a.elem o.b sw i)
      let rm := if e.rm = 5 then 0 else e.rm.toNat
      (e.instr = .vcvtef h o → ∀ carry : Nat → Nat, carry 0 = a.efc.toNat →
        (∀ k i, act[k]? = some i → carry (k + 1) = (efStep src dst e.sp (a.elem o.b sw i) (carry k)).2 ∧
          e.en &&& (efStep src dst e.sp (a.elem o.b sw i) (carry k)).1.flags = 0) →
        ∃ t, s.clusterGives g t ∧ s.sameRest t ∧ a.sameButV t.me o.a ∧ t.me.efc = BitVec.ofNat 32 (carry act.length) ∧
          (∀ k i, act[k]? = some i → t.me.elem o.a dw i = (efStep src dst e.sp (a.elem o.b sw i) (carry k)).1.bits % 2 ^ dw) ∧
          ∀ i, i * dw < 8192 → i ∉ act → t.me.elem o.a dw i = (gap i).getD (a.elem o.a dw i)) ∧
      (e.instr = .vcvt h o → fmtMx o.dst = true →
        let scale := fun (b : Nat) => mxScale (mxFmt o.dst).2 ((act.filter fun i => i / 32 == b).map x)
        let code := fun (i : Nat) => if scale (i / 32) = 0xFF then (⟨0, flagNV⟩ : FpRes)
          else (mxFmt o.dst).1.convV rm true ((x i).scaleBy (127 - (scale (i / 32) : Int)))
        (∀ i ∈ act, e.en &&& (code i).flags = 0) → e.n ≤ e.vl → e.vl ≤ 1024 →
        ∃ t, s.clusterGives g t ∧ s.sameRest t ∧ t.me.p = a.p ∧ t.me.x = a.x ∧ t.me.k = a.k ∧ t.me.pc = a.pc ∧ t.me.vl = a.vl ∧
          (∀ q : Reg, q ≠ o.a → q ≠ o.a + 1 → t.me.v[q.toNat]'(q.isLt) = a.v[q.toNat]'(q.isLt)) ∧
          (∀ i, i < 1024 → t.me.elem o.a 8 i = if i ∈ act then (code i).bits % 2 ^ 8 else (gap i).getD (a.elem o.a 8 i)) ∧
          ∀ b, b < 1024 → t.me.elem (o.a + 1) 8 b = if b < (e.vl + 31) / 32 then scale b % 2 ^ 8 else a.elem (o.a + 1) 8 b) ∧
      (e.instr = .vcvt h o → fmtMx o.dst = false → fmtMx o.src = true →
        let decoded := fun (i : Nat) =>
          let scale := a.elem (o.b + 1) 8 (i / 32)
          let v := (mxFmt o.src).1.val (a.elem o.b 8 i % 2 ^ (mxFmt o.src).1.bits)
          if scale = 0xFF ∨ v.isNan = true then (⟨dst.nan, 0⟩ : FpRes) else dst.convV rm e.sp (v.scaleBy ((scale : Int) - 127))
        (∀ i ∈ act, e.en &&& (decoded i).flags = 0) → writes o.a dw fun i => if i ∈ act then some (decoded i).bits else gap i))) ∧
  (∀ (emax : Int) (vs : List Val),
    mxScale emax [] = 0 ∧ ((∃ v ∈ vs, v.finite = false) → mxScale emax vs = 0xFF) ∧
    ((∀ v ∈ vs, v.finite = true ∧ v.expo = none) → mxScale emax vs = 0) ∧
    ∀ m, (∀ v ∈ vs, v.finite = true) → (∃ v ∈ vs, v.expo = some m) → (∀ v ∈ vs, ∀ n, v.expo = some n → n ≤ m) →
      mxScale emax vs = (min (max (m - emax + 127) 0) 254).toNat) ∧
  (∀ (s t : State) (e : Entry) (h : Hdr) (o : VU) (i0 : Nat) (rest : List Nat) (pa : Nat) (v : Via), e.instr = .vappend h o → e.stepped = false →
    ((List.range e.n).filter fun i => e.active i) = i0 :: rest →
    let d := e.xs.getD 0 0
    let u := t.reachHome v (pa / 128)
    let bs := u.homeSeen v.loc.mod v.key pa 16
    (d.toNat % 16 ≠ 0 → s.stageAppend e = s.upd fun a => a.stopAt i0 (e.elemTrap 0x04 d i0)) ∧
    (d.toNat % 16 = 0 → ∀ c, s.translate s.mySpace d.toNat .write = (.error c, t) →
      s.stageAppend e = t.upd fun a => a.stopAt i0 (e.elemTrap c d i0)) ∧
    (d.toNat % 16 = 0 → s.translate s.mySpace d.toNat .write = (.ok (pa, v), t) →
      ((u.counted? v.loc.mod (pa / 128)).isSome → s.stageAppend e = u.upd fun a => a.stopAt i0 (e.elemTrap 0x25 d i0)) ∧
      (u.counted? v.loc.mod (pa / 128) = none → u.poisoned v.loc.mod (pa / 128) = false →
        s.stageAppend e = (u.pokeAs v.loc.mod v.key pa (natBytes 8 (bytesNat (bs.take 8) + (rest.length + 1)))).stageSlots
          { e with stepped := true, tok := BitVec.ofNat 64 (bytesNat (bs.drop 8)), aux := bytesNat (bs.take 8) }))) ∧
  (∀ (s t : State) (e : Entry) (h : Hdr) (o : VU) (ps : List Probe), e.instr = .vappend h o → (∀ a, t.debugFor a = []) →
    let wb := Instr.vwidth e.instr / 8
    let act := (List.range e.n).filter fun i => e.active i
    (∀ k i, act[k]? = some i → (e.slots wb)[k]? = some (i, e.tok + BitVec.ofNat 64 (wb * (e.aux + k)))) ∧
    (act = [] → s.stageAppend e = s.passEntry e) ∧
    (act ≠ [] → e.stepped = true → s.stageAppend e = s.stageSlots e) ∧
    ((s.upd fun a => a.putEntry e).probeSlots e (e.slots wb) = (ps, t) →
      (ps.all (fun p => !p.bad) = true → s.stageSlots e = t.passEntry { e with lanes := ps.map Probe.lane }) ∧
      ∀ p, ps.find? Probe.bad = some p → s.stageSlots e = t.upd fun a => a.stopAt p.i (e.elemTrap p.cause p.addr p.i))) ∧
  (∀ (s : State) (e : Entry) (g : Nat) (h : Hdr) (o : VU), s.clusterAt e g → e.instr = .vappend h o →
    let wb := Instr.vwidth e.instr / 8
    let u := e.lanes.zipIdx.foldl (fun s q =>
      s.storeElem e wb q.1 (e.tok + BitVec.ofNat 64 (wb * (e.aux + q.2))) (s.me.elem o.a (8 * wb) q.1.i)) s
    ∃ t, s.clusterGives g t ∧ t.mem = u.mem ∧ t.rdc = u.rdc ∧ t.reports = u.reports ∧ t.me.x = s.me.x ∧ t.me.v = s.me.v ∧ t.me.p = s.me.p ∧
      t.others = s.others)

/-- spec/07 R196 to R198 and R237: the entry reads the fault mask with every earlier entry's changes in it (`maskAt`), its cluster's bits are then clear, and
once every cluster is past it `vfmc` reads 0. What the log of changes holds is in stream order, which every change keeps. -/
def Obligations.DeferredFaultsOfSpeculation : Prop :=
  (∀ (log : List VfmcLog) (l : VfmcLog), logOrdered log → l.elem ≤ 1024 → logOrdered (addLog l log)) ∧
  (∀ (s : State) (e : Entry) (g : Nat) (h : Hdr) (o : VU) (q : VFL), s.clusterAt e g → logOrdered s.me.vfmcLog →
    (e.instr = .vmerge h o ∧ widthBits (extSel o.ext) ∈ [8, 16, 32, 64] ∧ e.n * widthBits (extSel o.ext) ≤ 8192 ∨ e.instr = .vfault h q ∧ q.p.toNat < 12 ∧ s.me.cls ≤ 5) →
    let els := s.me.clusterElems g e.n
    let w := widthBits (extSel o.ext)
    let fault := els.find? fun i => e.active i && (s.me.maskAt e.seq).getLsbD i
    (e.instr = .vmerge h o → ∀ i, fault = some i → s.me.life ≠ .exited →
      s.clusterGives g (s.upd fun a => a.stopAt i (e.trap 0x14 0 (BitVec.ofNat 64 (i * 2 ^ 32 + (a.vfmcAt e.seq).2 % 256))))) ∧
    (e.instr = .vfault h q ∨ fault = none → ∃ t, s.clusterGives g t ∧
      (e.instr = .vmerge h o → s.me.sameButV t.me o.a ∧ ∀ i, i * w < 8192 → t.me.elem o.a w i =
        (if i ∈ els then (if e.active i then s.me.elem o.b w i else if e.zeroing then 0 else s.me.elem o.a w i) else s.me.elem o.a w i)) ∧
      (e.instr = .vfault h q → t.me.v = s.me.v ∧ t.me.x = s.me.x ∧ (∀ r : Reg4, r ≠ q.p → t.me.getP r = s.me.getP r) ∧
        ∀ i, i < 1024 → (t.me.getP q.p).getLsbD i =
          (if i ∈ s.me.clusterElems g (s.me.mvl 8) then (s.me.maskAt e.seq).getLsbD i else (s.me.getP q.p).getLsbD i)) ∧
      (∀ i, i < 1024 → (t.me.maskAt (e.seq + 1)).getLsbD i = ((s.me.maskAt (e.seq + 1)).getLsbD i && !decide (s.me.homeCluster i = g))) ∧
      ((s.me.queue.map Entry.seq).head? = some e.seq → (∀ c, c ≠ g → c < s.me.done.length → e.seq < s.me.done.getD c 0) →
        t.me.vfmcAt (e.seq + 1) = (0, 0))))

/-- spec/05 R137 and R138 for a line in no save list; what a region has granted to its children is not its own to fill (spec/16 R404). -/
def Obligations.CountedLinesFillAndDrain : Prop :=
  ∀ (s : State) (v : Via) (pa count : Nat) (data : BitVec 1024), s.saved = [] → s.homeDie (pa / 128) = v.loc.die →
    let ep := v.loc.mod
    let line := pa / 128
    let quota := ((s.region? ep v.rid).map fun r => s.left r Region.counted).getD 0
    ((s.counted? ep line).isSome → s.countedFill v pa data count = (.error 0x0F, s)) ∧
    (s.counted? ep line = none → quota ≤ (s.counted.filter fun c => c.ep == ep && c.rid == v.rid).length →
      s.countedFill v pa data count = (.error 0x10, s)) ∧
    (s.counted? ep line = none → (s.counted.filter fun c => c.ep == ep && c.rid == v.rid).length < quota → ∀ w, s.pinWay v ep line = some w →
      ∃ t, s.countedFill v pa data count = (.ok (), t) ∧ t.counted? ep line = some ⟨ep, line, count, v.rid, data, w, v.key⟩ ∧ t.mem = s.mem ∧
        t.me = s.me) ∧
    (s.counted? ep line = none → (s.consume v pa).1 = .error 0x0E) ∧
    (∀ c, s.counted? ep line = some c → c.key = v.key → (∀ q ∈ s.counted, ∀ r ∈ s.counted, q.ep = r.ep → q.line = r.line → q = r) →
      ∃ t, s.consume v pa = (.ok c.data, t) ∧ t.mem = s.mem ∧ t.me = s.me ∧
        (1 < c.count → t.counted? ep line = some { c with count := c.count - 1 }) ∧
        (c.count ≤ 1 → t.counted? ep line = none))

/-- spec/09, row by row. `withSat` is the satellite created (SatellitesAreCreated), in the lowest free slot, which is the model's choice (log entry 55); `gang` of a
tile operation is the model's handle (log entry 4). -/
def Obligations.MatrixInstructions : Prop :=
  (∀ (s : State), let t := s.takeSlice
    t.me = s.me ∧ t.mem = s.mem ∧ t.sats = s.sats ∧
    (∀ q, s.slice? s.me.loc = some q → q.holder = some s.me.uid → t = s) ∧
    ((∀ q, s.slice? s.me.loc = some q → q.holder ≠ some s.me.uid) →
      t.slice? s.me.loc = some ⟨s.me.loc, some s.me.uid, s.me.rid, Tile.zero, Tile.zero⟩) ∧
    ∀ l, l ≠ s.me.loc → t.slice? l = s.slice? l) ∧
  (∀ (s : State) (h : Hdr) (b : XB) (m : MIM) (o : MTL) (slot : Nat), s.me.isHandler = false → s.sliceHeld s.me.loc s.me.uid = false →
    let own := s.takeSlice
    let v := s.x b.b
    let base := s.x o.ext.c
    let next := s.x (o.ext.c + 1)
    (s.notPending [b.b] [] →
      (cfgLegal v = true → s.completes (.mcfg h b) h (own.upd fun a => { a with mcfgv := v })) ∧
      (cfgLegal v = false → s.traps (.mcfg h b) 0x01 0 0) ∧
      s.completes (.mscl h b) h (own.upd fun a => { a with msbase := v }) ∧
      (v.toNat < 2 ^ 16 → v.getLsbD s.me.loc.column = true → contiguousRun v.toNat = true →
        s.completes (.mgrp h b) h (own.upd fun a => { a with mgang := BitVec.ofNat 16 v.toNat })) ∧
      (¬ (v.toNat < 2 ^ 16 ∧ v.getLsbD s.me.loc.column = true ∧ contiguousRun v.toNat = true) → s.traps (.mgrp h b) 0x01 0 0)) ∧
    (s.notPending [m.a] [] → s.completes (.mstat h m) h (own.setX m.a (own.tile s.me.loc (m.i.field 0 1)).counters)) ∧
    s.completes (.mstclr h m) h (own.updTile s.me.loc (m.i.field 0 1) fun t => { t with ovf := 0, nanp := 0, inval := 0 }) ∧
    (s.satSlot slot → attrBad (saPlain s.me.sattr) false = false →
      (s.notPending [m.a] [] → s.completes (.mclr h m) h (s.withSat m.a slot 2 .matrix true [] (.mclr (m.i.field 0 1))).takeSlice) ∧
      (s.notPending [o.ext.c, o.ext.c + 1, o.a] [] →
        (base.toNat % 4 = 0 → (o.i.field 1 1 = 1 ∨ next.toNat % 4 = 0) →
          s.completes (.mldacc h o) h
            (s.withSat o.a slot 2 .matrix true [] (.mldacc (o.i.field 0 1) (o.i.field 1 1 == 1) s.me.mcfgv base next [])).takeSlice) ∧
        (base.toNat % 64 = 0 → next.toNat % 64 = 0 → s.me.mgang = BitVec.ofNat 16 (2 ^ s.me.loc.column) →
          s.completes (.mma h o) h (own.withSat o.a slot 2 .matrix true []
            (.mma ⟨o.i.field 0 1, o.i.field 1 8 + 1, s.me.mcfgv, s.me.msbase, base, next, s.me.mgang, s.nextSid, true, [], []⟩)))) ∧
      (s.takesEntry → ∀ (i : Instr) (carry : Bool) (more : List Reg),
        (i = .mdrn h o ∧ carry = (o.i.field 1 1 == 1) ∧ more = [o.ext.c + 1]) ∨ (i = .mdrnx h o ∧ carry = false ∧ more = [] ∧ 64 ≤ s.me.mvl 32) →
        s.notPending (o.ext.c :: more ++ [o.a]) [] →
        let t := s.withSat o.a slot 3 .drain false [] (.mdrn (o.i.field 0 1) carry s.me.mcfgv [] [] [])
        s.completes i h (t.takeSlice.upd fun a => a.enqueued
          { t.newEntry i ((o.ext.c :: more).map s.x) 0 with tok := ((t.sats.find? fun q => q.sid == s.nextSid).map Sat.token).getD 0,
                                                            aux := s.nextSid })))) ∧
  (∀ (s : State) (h : Hdr) (b : XB) (m : MIM) (o : MTL), s.me.isHandler = true ∨ s.sliceHeld s.me.loc s.me.uid = true →
    (s.notPending [b.b] [] → s.traps (.mcfg h b) 0x01 0 0 ∧ s.traps (.mscl h b) 0x01 0 0 ∧ s.traps (.mgrp h b) 0x01 0 0) ∧
    (s.notPending [m.a] [] → s.traps (.mclr h m) 0x01 0 0 ∧ s.traps (.mstat h m) 0x01 0 0) ∧ s.traps (.mstclr h m) 0x01 0 0 ∧
    (s.notPending [o.ext.c, o.ext.c + 1, o.a] [] → s.traps (.mldacc h o) 0x01 0 0 ∧ s.traps (.mdrn h o) 0x01 0 0 ∧ s.traps (.mdrnx h o) 0x01 0 0))

/-- spec/09 R250 to R262 and spec/04 R124. The gang step is stated for a gang of one without consumption, after its first group. A
drain moves the carries of the rows that have elements in the line that it sends, and no others (R262). That `xA` and a slot are found at issue, the lowest that
is free, is the model's choice (log entry 55). -/
def Obligations.GangsAndTileWork : Prop :=
  (∀ (s : State) (h : Hdr) (o : MTL) (slot : Nat), s.me.isHandler = false → s.sliceHeld s.me.loc s.me.uid = false → s.satSlot slot →
    attrBad (saPlain s.me.sattr) false = false → s.notPending [o.ext.c, o.ext.c + 1, o.a] [] →
    (s.x o.ext.c).toNat % 64 = 0 → (s.x (o.ext.c + 1)).toNat % 64 = 0 → s.me.mgang ≠ BitVec.ofNat 16 (2 ^ s.me.loc.column) →
    let t := s.takeSlice
    let op : TileOp := ⟨o.i.field 0 1, o.i.field 1 8 + 1, s.me.mcfgv, s.me.msbase, s.x o.ext.c, s.x (o.ext.c + 1), s.me.mgang, s.nextSid, true, [], []⟩
    let ident := gangIdent s.me (s.x o.ext.c) op.groups
    let new : Arrival := ⟨s.me.uid, s.me.loc, s.cycle s.me.loc, ident, op, h, o.a.toNat, slot, s.me.gangto⟩
    let mates := (s.rowArrivals s.me).filter fun b => b.op.mgang &&& s.me.mgang != 0
    ((∀ b ∈ mates, identDiff b.ident ident = 0) →
      (arrivedColumns (mates ++ [new]) ≠ s.me.mgang.toNat →
        exec (.mma h o) s = .next ({ t with barrier := s.barrier ++ [new] }.upd fun a => { a with life := .parked .gang })) ∧
      (arrivedColumns (mates ++ [new]) = s.me.mgang.toNat →
        exec (.mma h o) s = .next ({ t with barrier := s.barrier ++ [new] }.startGang (mates ++ [new])))) ∧
    ((∃ b ∈ mates, identDiff b.ident ident ≠ 0) → ∃ info : Word, info.toNat % 2 ^ 16 = arrivedColumns (new :: mates) % 2 ^ 16 ∧
      exec (.mma h o) s = .next ((t.barrierTrap mates 0x17 info).takeTrap (issueTrap 0x17 s.me.pc 0 info)))) ∧
  (∀ (s : State) (n : Nat) (b : Arrival) (a : Agent), s.barrier.find? (fun q => q.uid == n) = some b → s.agent? n = some a →
    let l := (s.rowArrivals a).filter fun q => q.ident == b.ident
    (l.head?.map Arrival.uid = some n → b.at_ + b.gangto ≤ s.cycle b.loc →
      s.gives (.gangStall n) (s.barrierTrap l 0x18 (BitVec.ofNat 64 (arrivedColumns l)))) ∧
    (s.cycle b.loc < b.at_ + b.gangto → s.gives (.gangStall n) s)) ∧
  (∀ (s u w : State) (n : Nat) (t : Sat) (o : TileOp) (a b : List Nat × List Nat), s.satIs n t → t.task = .mma o → t.begun = true →
    t.terminal = false → t.cancel = false → t.units ≠ 0 → s.gangOf t o = [(t, o)] → s.readA t o t.units = (.ok a, u) → u.readB t o t.units = (.ok b, w) →
    let z := w.memberStep t o ⟨a.1, b.1, a.2, b.2⟩
    s.gives (.mmaGroupStep n) (if o.groups ≤ t.units + 1 then z.endSat t.sid 0 0 0 0 else z)) ∧
  (∀ (t : Tile) (cfg : Word) (g : Group) (m : Fin 64) (n : Nat), cfgAcc cfg = 8 → n < 128 →
    let products := (List.range 32).map fun k =>
      tileInt (cfgAfmt cfg) (rowElem (cfgAfmt cfg) (g.a.getD m 0) k) * tileInt (cfgBfmt cfg) (rowElem (cfgBfmt cfg) (g.b.getD n 0) k)
    getField (t.step cfg g).rows[m] (32 * n) 32 = umod 32 (saturate 32 (sval 32 (getField t.rows[m] (32 * n) 32) + products.sum))) ∧
  (∀ (s u : State) (n acc : Nat) (t : Sat) (carry : Bool) (cfg base stride : Word) (part : List Byte) (q : Nat × Nat) (bs : List Byte), s.satIs n t →
    t.task = .mldacc acc carry cfg base stride part → t.begun = true → t.terminal = false → t.cancel = false →
    let len := if carry then 256 else 512
    let row := fun r : Nat => umod 64 ((base.toNat : Int) + stride.toInt * r)
    rowFind row len (if carry then 1 else 64) 0 t.units = some q →
    let o := (blockUnit (row q.1) len q.2).1
    let k := (blockUnit (row q.1) len q.2).2
    s.vread (s.satSpace t .tile) ((row q.1 + o) % 2 ^ 64) k = (.ok bs, u) →
    (rowFind row len (if carry then 1 else 64) 0 (t.units + 1)).isSome = true →
    let w := if carry then u.updTile t.loc acc fun w => w.putCarries o bs
      else if o + k = len then u.updTile t.loc acc fun w => w.putRow q.1 0 (part ++ bs) else u
    s.gives (.mldaccLine n) (w.updSat t.sid fun t =>
      { t with units := t.units + 1, task := .mldacc acc carry cfg base stride (if carry = true ∨ o + k = len then [] else part ++ bs) })) ∧
  (∀ (counted : Bool) (els : List Lane),
    (drainCut counted els).1 ++ (drainCut counted els).2 = els ∧ (els ≠ [] → (drainCut counted els).1 ≠ []) ∧
    (counted = false → ∀ l ∈ (drainCut counted els).1, ∀ m ∈ (drainCut counted els).1, l.line = m.line) ∧
    (counted = true → ∀ l, (drainCut counted els).1.getLast? = some l → ∀ m ∈ (drainCut counted els).2, m.line ≠ l.line)) ∧
  (∀ (s u : State) (n acc : Nat) (t : Sat) (carry : Bool) (cfg : Word) (els : List Lane) (last : Lane) (staged : List Staged)
    (rows : List DrainRow),
    s.satIs n t → t.task = .mdrn acc carry cfg els staged rows → t.begun = true → t.terminal = false → t.cancel = false → saReaders t.sattr = 0 →
    (drainCut false els).1.getLast? = some last → (drainCut false els).2 ≠ [] →
    let rest := (drainCut false els).2
    let new := (drainElems cfg carry (drainCut false els).1 ((s.tile t.loc acc).running rows)).1
    let here := (staged ++ new).filter fun b => b.line == last.line
    let moved := Tile.drained (s.tile t.loc acc, drainRows rows new) here
    let at_ := last.val.getD 0 / 128 * 128
    let v : Via := { s.via t.loc t.rid with key := last.key }
    (s.updTile t.loc acc fun _ => moved.1).drainPut v (t.tag at_) last.line (lineImage here).1 (maskRuns (lineImage here).2) = (.ok (), u) →
    s.gives (.drainLine n) (u.updSat t.sid fun t =>
      { t with units := t.units + bnat (rest.all fun l => l.line != last.line),
               task := .mdrn acc carry cfg rest ((staged ++ new).filter fun b => b.line != last.line) moved.2 })) ∧
  (∀ (q : Tile × List DrainRow) (l : List Staged),
    (∀ m, (∀ e ∈ l, e.row ≠ m) → (Tile.drained q l).1.carries.toList.getD m 0 = q.1.carries.toList.getD m 0) ∧
    (Tile.drained q l).1.rows = q.1.rows ∧
    ∀ e, e.row < 64 → (∀ r ∈ (Tile.drained q l).2, r.row = e.row → r.upto ≤ e.col) →
      (Tile.drained q (l ++ [e])).1.carries.toList.getD e.row 0 = e.carry)

/-- spec/10: the instruction's effect is the satellite; what the satellite does is SatelliteEvents. That the slot is the lowest free one, and that `uaddr` is 0 for
the causes of its issue that name no address, is the model's choice (log entry 55). -/
def Obligations.SatellitesAreCreated : Prop :=
  (∀ (s : State) (h : Hdr) (o : SCP) (slot : Nat),
    let n := (s.val o.t).toNat
    let a := s.x o.ext.c
    let b := s.x (o.ext.c + 1)
    let sa := s.me.sattr
    let ready := s.notPending (o.ext.c :: [o.ext.c + 1] ++ RegImm.regs o.t ++ [o.a]) []
    let here := fun (i : Instr) (kind : Nat) (e : Engine) (lines : List (Nat × Nat)) (t : Task) =>
      (s.satSlot slot → s.completes i h (s.withSat o.a slot kind e true lines t)) ∧
      (s.afterForeign = true → s.traps i 0x1A 0 0) ∧
      (s.afterForeign = false → s.freeSatSlot s.me.loc s.me.rid = none → s.traps i 0x19 0 0)
    (ready → 2 ^ 40 ≤ n → s.traps (.cpy h o) 0x01 0 0 ∧ s.traps (.cpy2 h o) 0x01 0 0 ∧ s.traps (.cpypToScratch h o) 0x01 0 0 ∧
      s.traps (.cpypFromScratch h o) 0x01 0 0 ∧ s.traps (.coll h o) 0x01 0 0) ∧
    (ready → n < 2 ^ 40 → attrBad sa false = false →
      (redAligned sa [a.toNat, b.toNat, n] = true → here (.cpy h o) 1 .streamer [] (.copy (.generic a.toNat) (.generic b.toNat) n 1 0)) ∧
      (redAligned sa [a.toNat, b.toNat, n] = false → s.traps (.cpy h o) 0x04 0 0) ∧
      (redAligned sa [a.toNat, b.toNat, s.me.sshape.toNat % 2 ^ 24] = true → here (.cpy2 h o) 1 .streamer []
        (.copy (.generic a.toNat) (.generic b.toNat) (s.me.sshape.toNat % 2 ^ 24) n s.me.sshape.toNat)) ∧
      (∀ c, s.me.scrOperand a = some c → c.aligned n = true → redAligned sa [b.toNat, n] = true →
        here (.cpypFromScratch h o) 1 .streamer [] (.copy (.scratch c) (.generic b.toNat) n 1 0)) ∧
      (a.toNat % 64 = 0 → here (.coll h o) 4 .collective [] (.coll a.toNat b.toNat n ⟨none, 0, none, 0, 0, 0, none, none, false⟩)) ∧
      (a.toNat % 64 ≠ 0 → s.traps (.coll h o) 0x04 0 0)) ∧
    (ready → n < 2 ^ 40 → attrBad sa true = false → ∀ c, s.me.scrOperand b = some c → c.aligned n = true →
      let lines := s.postedLines s.me.loc s.me.rid c n
      (s.postCauses s.me.loc s.me.rid lines = none →
        here (.cpypToScratch h o) 1 .streamer lines (.copy (.generic a.toNat) (.scratch c) n 1 0)) ∧
      (s.satSlot slot → ∀ q, s.postCauses s.me.loc s.me.rid lines = some q → s.traps (.cpypToScratch h o) q 0 0)) ∧
    (s.notPending (o.ext.c :: [] ++ RegImm.regs o.t ++ [o.a]) [] → n < 2 ^ 40 → attrBad (saPlain sa) false = false →
      (a.toNat % 128 = 0 → n % 128 = 0 → here (.cdrain h o) 3 .streamer [] (.cdrain a.toNat n 0)) ∧
      (a.toNat % 128 ≠ 0 ∨ n % 128 ≠ 0 → s.traps (.cdrain h o) 0x04 0 0))) ∧
  (∀ (s : State) (h : Hdr) (o : SKY) (slot : Nat) (loc : Side), s.notPending [o.ext.c, o.ext.c + 1, o.ext.c + 2, o.a] [o.k] →
    let k := s.k o.k
    let off := (s.x o.ext.c).toNat
    let adr := s.x (o.ext.c + 1)
    let w := (s.x (o.ext.c + 2)).toNat
    let n := w % 2 ^ 40
    let scr := w.testBit 63
    let sa := s.me.sattr
    let usable := fun right => kRouted k s.me.loc.mod = true ∧ kKind k < 2 ∧ kHas k right = true
    w / 2 ^ 40 % 2 ^ 23 = 0 → (scr = true → (s.me.scrOperand adr).isSome = true) →
    ((scr = false ∧ loc = .generic adr.toNat ∧ redAligned sa [adr.toNat, n, kBase k + off] = true) ∨
      ∃ c, scr = true ∧ s.me.scrOperand adr = some c ∧ loc = .scratch c ∧ c.aligned n = true ∧ redAligned sa [n, kBase k + off] = true) →
    (attrBad sa scr = false →
      (usable 0 → off + n ≤ kLen k → s.satSlot slot →
        (∀ a, loc = .generic a → s.completes (.cpykGet h o) h (s.withSat o.a slot 1 .streamer true [] (.copy (.window k off) loc n 1 0))) ∧
        (∀ c, loc = .scratch c → s.postCauses s.me.loc s.me.rid (s.postedLines s.me.loc s.me.rid c n) = none →
          s.completes (.cpykGet h o) h
            (s.withSat o.a slot 1 .streamer true (s.postedLines s.me.loc s.me.rid c n) (.copy (.window k off) loc n 1 0)))) ∧
      (2 ≤ kKind k → s.traps (.cpykGet h o) 0x09 0 0) ∧
      (kKind k < 2 → kLen k < off + n → s.traps (.cpykGet h o) 0x08 (BitVec.ofNat 64 (max off (kLen k))) 0) ∧
      (kKind k < 2 → off + n ≤ kLen k → kRouted k s.me.loc.mod = false ∨ kHas k 0 = false → s.traps (.cpykGet h o) 0x09 0 0)) ∧
    (attrBad sa (kKind k == 1) = false →
      (usable 1 → (saRedop sa = 0 ∨ kHas k 2 = true) → off + n ≤ kLen k → s.satSlot slot →
        s.completes (.cpykPut h o) h (s.withSat o.a slot 1 .streamer true [] (.copy loc (.window k off) n 1 0))) ∧
      (2 ≤ kKind k → s.traps (.cpykPut h o) 0x09 0 0) ∧
      (kKind k < 2 → kLen k < off + n → s.traps (.cpykPut h o) 0x08 (BitVec.ofNat 64 (max off (kLen k))) 0) ∧
      (kKind k < 2 → off + n ≤ kLen k → kRouted k s.me.loc.mod = false ∨ kHas k 1 = false ∨ (saRedop sa ≠ 0 ∧ kHas k 2 = false) →
        s.traps (.cpykPut h o) 0x09 0 0))) ∧
  (∀ (s : State) (rd : Reg) (slot kind : Nat) (e : Engine) (ready : Bool) (t : Task),
    s.depStatus ≠ some 0 → s.depStatus ≠ some 2 → s.depStatus ≠ some 3 →
    let u := s.withSat rd slot kind e ready [] t
    u.sats = s.sats ++ [s.satellite slot kind e ready t] ∧ u.x rd = wrote rd (s.satellite slot kind e ready t).token ∧ u.me.slaunch = 0 ∧
      u.me.safter = 0 ∧ u.mem = s.mem ∧ ∀ q, q ≠ rd → u.x q = s.x q) ∧
  (∀ (t : Sat), t.rid < 2 ^ 16 → t.kind < 2 ^ 8 → t.loc.die < 8 → t.loc.core < 128 → t.slot < 256 → t.gen < 2 ^ 16 →
    tkRegion t.token = t.rid ∧ tkKind t.token = t.kind ∧ tkDie t.token = t.loc.die ∧ tkCore t.token = t.loc.core ∧ tkSlot t.token = t.slot ∧
      tkGen t.token = t.gen)

/-- spec/10 R288 to R297, for live satellites and stale tokens. -/
def Obligations.TokenInstructions : Prop :=
  (∀ (s : State) (h : Hdr) (o : RU) (b : XB) (p : SPR) (q : XBC),
    let w := fun r => s.x r
    let status := fun (t : Sat) => let u := s.setX o.a (statusWord t.status t.pmiss); if t.terminal && t.owner == some s.me.uid then u.reap t.sid else u
    (s.notPending [o.b, o.a] [] → s.foreign (w o.b) = false → ∀ t, s.named (w o.b) = .live t →
      s.completes (.stest h o) h (status t) ∧
      (s.me.isHandler = false → t.terminal = true → s.completes (.swait h o) h (status t)) ∧
      (s.me.isHandler = false → t.terminal = false → exec (.swait h o) s = .next (s.upd fun a => { a with life := .parked (.swait (w o.b)) })) ∧
      (t.terminal = true → s.satIs t.sid t → s.completes (.scancel h o) h (s.setX o.a (statusWord t.status t.pmiss))) ∧
      (t.terminal = false →
        let u := s.cancelSat t.sid
        let st := match u.sats.find? fun d => d.sid == t.sid with | some d => d.status | none => 2
        s.completes (.scancel h o) h (u.setX o.a (statusWord st t.pmiss)))) ∧
    (s.notPending [o.b, o.a] [] → s.foreign (w o.b) = false → s.named (w o.b) = .stale →
      s.completes (.stest h o) h (s.setX o.a 4) ∧ s.completes (.scancel h o) h (s.setX o.a 4) ∧
      (s.me.isHandler = false → s.completes (.swait h o) h (s.setX o.a 4))) ∧
    (s.notPending [o.b, o.a] [] → s.foreign (w o.b) = true → s.traps (.stest h o) 0x1A 0 0 ∧ s.traps (.scancel h o) 0x1A 0 0 ∧
      (s.me.isHandler = false → s.traps (.swait h o) 0x1A 0 0)) ∧
    (s.notPending [o.b, o.a] [] → s.me.isHandler = true → s.traps (.swait h o) 0x1E 0 0) ∧
    (s.notPending [b.b] [] → s.foreign (w b.b) = false → ∀ t, s.named (w b.b) = .live t →
      (t.owner = none → s.completes (.sdetach h b) h s ∧
        s.completes (.sadopt h b) h (s.updSat t.sid fun t => { t with owner := some s.me.uid })) ∧
      (t.owner = some s.me.uid → s.completes (.sadopt h b) h s ∧
        s.completes (.sdetach h b) h ((s.updSat t.sid fun t => { t with owner := none }).settleSat t.sid)) ∧
      ((∃ u, t.owner = some u ∧ u ≠ s.me.uid) → s.traps (.sdetach h b) 0x1A 0 0 ∧ s.traps (.sadopt h b) 0x1A 0 0)) ∧
    (s.notPending [p.b] [] → s.foreign (w p.b) = false → ∀ t, s.named (w p.b) = .live t →
      s.completes (.sprio h p) h (if t.terminal then s else
        s.updSat t.sid fun t => { t with prio := p.p.toNat, aged := 0, waitFrom := s.cycle t.loc })) ∧
    (s.notPending [o.b, o.a, o.a + 1, o.a + 2, o.a + 3] [] → s.foreign (w o.b) = false → ∀ t, s.named (w o.b) = .live t →
      let f := fun i => t.faultWords.getD i 0
      s.completes (.sfault h o) h ((((s.setX o.a (f 0)).setX (o.a + 1) (f 1)).setX (o.a + 2) (f 2)).setX (o.a + 3) (f 3))) ∧
    (s.notPending [q.b, q.ext.c] [] → s.foreign (w q.b) = false → ∀ t, s.named (w q.b) = .live t →
      let u := s.updSat t.sid fun t => { t with promise := some (w q.ext.c).toNat, missed := false }
      (t.terminal = true → s.completes (.spromise h q) h s) ∧
      (t.terminal = false → s.meridian s.me.loc.mod < (w q.ext.c).toNat → s.completes (.spromise h q) h u) ∧
      (t.terminal = false → (w q.ext.c).toNat ≤ s.meridian s.me.loc.mod → s.completes (.spromise h q) h (u.missPromise t.sid)))) ∧
  (∀ (s : State) (h : Hdr) (b : XB) (i : LI),
    (s.me.isHandler = true → s.traps (.swaitall h) 0x1E 0 0 ∧ (s.notPending [b.b] [] → s.traps (.sleepu h b) 0x1E 0 0)) ∧
    (s.me.isHandler = false → s.allTerminal s.me.uid = true →
      let u := ((s.ownSats s.me.uid).filter fun t => t.status != 3).foldl (fun s t => s.reap t.sid) s
      s.completes (.swaitall h) h (u.upd fun a => { a with carried := mapIf (fun c => c.status != 3) (fun c => { c with status := 4 }) a.carried })) ∧
    (s.me.isHandler = false → s.allTerminal s.me.uid = false → exec (.swaitall h) s = .next (s.upd fun a => { a with life := .parked .swaitall })) ∧
    (s.notPending [b.b] [] → s.me.isHandler = false →
      ((s.x b.b).toNat ≤ s.meridian s.me.loc.mod → s.completes (.sleepu h b) h s) ∧
      (s.meridian s.me.loc.mod < (s.x b.b).toNat →
        exec (.sleepu h b) s = .next (s.upd fun a => { a with life := .parked (.sleepu (s.x b.b).toNat) }))) ∧
    (i.i.word.toNat < 2 ^ 33 → s.completes (.sattr h i) h (s.upd fun a => { a with sattr := i.i.word })) ∧
    (2 ^ 33 ≤ i.i.word.toNat → s.traps (.sattr h i) 0x01 0 0))

/-- Each event where it is enabled; one that is not enabled changes nothing, as the first clause says for a satellite that does not exist. -/
def Obligations.SatelliteEvents : Prop :=
  (∀ (s : State) (n : Nat), (s.sats.find? fun q => q.sid == n) = none →
    s.gives (.satelliteLaunch n) s ∧ s.gives (.satelliteBegin n) s ∧ s.gives (.satellitePriorityAging n) s ∧ s.gives (.promiseMiss n) s ∧
      s.gives (.copyUnit n) s ∧ s.gives (.collStepBegin n) s ∧ s.gives (.collNoticeResend n) s ∧ s.gives (.collNoticeTimeout n) s) ∧
  (∀ (s : State) (n : Nat) (t : Sat), s.satIs n t →
    (t.status = 5 → t.launch ≤ s.meridian t.loc.mod →
      s.gives (.satelliteLaunch n) (s.updSat n fun t => { t with status := 1, waitFrom := s.cycle t.loc })) ∧
    (s.meridian t.loc.mod < t.launch → s.gives (.satelliteLaunch n) s) ∧
    (s.satEligible t = true → s.engineFree t = true → s.servedNext t = true →
      ((∃ a b k r p, t.task = .copy a b k r p) ∨ (∃ b k d, t.task = .cdrain b k d) ∨ (∃ a c g x y l, t.task = .mldacc a c g x y l) ∨
          (∃ a c g l k r, t.task = .mdrn a c g l k r) →
        s.gives (.satelliteBegin n) ((match saAcq t.sattr with | some sc => s.acquire t.loc sc | none => s).updSat t.sid
          fun t => { t with begun := true })) ∧
      (∀ acc, t.task = .mclr acc → s.gives (.satelliteBegin n) (((s.updSat t.sid fun t => { t with begun := true }).updTile t.loc acc fun q =>
        { q with rows := Vector.replicate 64 0, carries := Vector.replicate 64 0 }).endSat t.sid 0 0 0 0))) ∧
    (s.satEligible t = false ∨ s.engineFree t = false ∨ s.servedNext t = false → s.gives (.satelliteBegin n) s) ∧
    (t.status = 1 → t.begun = false → t.after = 0 → min 7 (t.prio + t.aged) < 7 → t.waitFrom + 16384 * (t.aged + 1) ≤ s.cycle t.loc →
      s.gives (.satellitePriorityAging n) (s.updSat n fun t => { t with aged := t.aged + 1 })) ∧
    (∀ p, t.promise = some p → t.terminal = false → t.missed = false → p ≤ s.meridian t.loc.mod →
      (saPromise t.sattr = false → s.gives (.promiseMiss n) (s.updSat n fun t => { t with pmiss := true, missed := true })) ∧
      (saPromise t.sattr = true → t.owner = some s.me.uid → s.tbuf? s.me.loc.mod s.me.loc.die s.me.rid = none → ∃ u, s.gives (.promiseMiss n) u ∧
        u.me.late = s.me.late ++ [⟨0x13, 0, t.token, BitVec.ofNat 64 p, false, 0⟩] ∧ u.me.x = s.me.x ∧ u.mem = s.mem)) ∧
    (∀ a b k rows shape c, t.begun = true → t.terminal = false → t.req = none → t.cancel = false →
      t.task = .copy (.generic a) (.generic b) k rows shape → copyUnitAt (.generic b) k rows shape t.units = some c →
      (s.outOfOrder t (.generic b) shape c = true → s.gives (.copyUnit n) s) ∧
      (s.outOfOrder t (.generic b) shape c = false →
        (∀ bs u, s.vread (s.satSpace t .copy) ((rowAddr a (bits shape 24 20) c.row + c.off) % 2 ^ 64) c.len = (.ok bs, u) →
          s.gives (.copyUnit n) (u.unitLand t (.generic a) (.generic b) k rows shape c [(0, bs)])) ∧
        (∀ e u, s.vread (s.satSpace t .copy) ((rowAddr a (bits shape 24 20) c.row + c.off) % 2 ^ 64) c.len = (.error e, u) →
          s.gives (.copyUnit n) (u.faultSat n e.1 e.2 0)))) ∧
    (∀ table buf len cs hd, t.task = .coll table buf len cs → cs.header = some hd →
      (s.meridian t.loc.mod < cs.base + cs.step * dw hd 3 → s.gives (.collStepBegin n) s) ∧
      (t.begun = true → t.terminal = false → cs.cur = none → cs.base + cs.step * dw hd 3 ≤ s.meridian t.loc.mod →
        (t.cancel = true → s.gives (.collStepBegin n) (s.endSat n 2 0 0 0)) ∧
        (t.cancel = false → ∀ bs u, s.vread (s.satSpace t .coll) ((table + 32 + 32 * cs.step) % 2 ^ 64) 32 = (.ok bs, u) →
          let c := dwords 4 bs
          (stAction c = 2 → bits (dw c 0) 24 40 = 0 → bits (dw c 0) 4 4 = 0 → s.gives (.collStepBegin n)
            ((u.updColl n fun q => { q with cur := some c, unit := 0, stepT := u.meridian t.loc.mod }).collWaits t.loc)) ∧
          (3 ≤ stAction c → s.gives (.collStepBegin n) (u.faultSat n 0x01 ((table + 32 + 32 * cs.step) % 2 ^ 64) 2))))) ∧
    (∀ table buf len cs, t.task = .coll table buf len cs → t.terminal = false →
      (∀ r c, cs.retryAt = some r → cs.cur = some c → r ≤ s.meridian t.loc.mod → s.gives (.collNoticeResend n) (s.collNotice t cs c)))) ∧
  (∀ (s : State) (n table buf len : Nat) (t d : Sat) (cs : CollState), s.satIs n t →
    let u := s.collWaits t.loc
    u.satIs n d → d.task = .coll table buf len cs →
    (d.terminal = true → s.gives (.collNoticeTimeout n) u) ∧
    (d.terminal = false → cs.waiting = true → cs.took = false → cs.stepT + 1000000 ≤ u.meridian d.loc.mod →
      s.gives (.collNoticeTimeout n) (u.faultSat n 0x23 (table + 32 + 32 * cs.step) 2)) ∧
    (d.terminal = false → cs.waiting = true → cs.took = true → cs.retryAt = none → s.gives (.collNoticeTimeout n) u) ∧
    (∀ r f, d.terminal = false → cs.waiting = false → cs.retryAt = some r → cs.noticeT = some f →
      s.gives (.collNoticeTimeout n) (if f + 1000000 ≤ u.meridian d.loc.mod then u.faultSat n 0x23 0 1 else u))) ∧
  (∀ (s : State), s.tbuf? s.me.loc.mod s.me.loc.die s.me.rid = none →
    (∀ t, s.me.life = .parked (.sleepu t) →
      s.gives (.parkWake s.me.uid) (if t ≤ s.meridian s.me.loc.mod then s.upd fun a => { a with life := .ready } else s)) ∧
    (s.me.life = .parked .swaitall →
      s.gives (.parkWake s.me.uid) (if s.allTerminal s.me.uid then s.upd fun a => { a with life := .ready } else s)) ∧
    (s.me.life = .parked .gang → s.gives (.parkWake s.me.uid) s))

/-- spec/11 R306 to R309. That `kld` reads and `kst` writes at issue is the model's choice (log entry 12). The destination may be the source: the values are
those before the instruction. -/
def Obligations.KeyInstructions : Prop :=
  (∀ (s t : State) (h : Hdr) (o : ADR) (pa : Nat) (v : Via),
    (s.notPending (ADR.regs o) [keyReg o.a] → s.reaches (s.addr o) 32 .read pa v t → t.readBad v pa = false →
      let r := t.readLine v pa 32
      s.completes (.kld h o) h (r.2.postK (keyReg o.a) (Inflight.known (BitVec.ofNat 256 (bytesNat r.1))))) ∧
    (s.notPending (ADR.regs o) [keyReg o.a] → s.reaches (s.addr o) 32 .write pa v t →
      s.completes (.kst h o) h (t.writeLine v (t.storeTag (s.addr o)) pa (natBytes 32 (s.k (keyReg o.a)).toNat)))) ∧
  (∀ (s : State) (h : Hdr) (o : KK), s.notPending [] [o.b, o.a] → s.completes (.kmov h o) h (s.setK o.a (s.k o.b))) ∧
  (∀ (s : State) (h : Hdr) (o : KKX),
    let k := s.k o.b
    let v := (s.x o.ext.c).toNat
    let l := (s.x (o.ext.c + 1)).toNat
    let one := s.notPending [o.ext.c] [o.b, o.a]
    let two := s.notPending [o.ext.c, o.ext.c + 1] [o.b, o.a]
    let gives := fun (i : Instr) (base len rights holder egr paths stride : Nat) => ∃ q, s.completes i h (s.setK o.a q) ∧
      kBase q = base ∧ kLen q = len ∧ kRights q = rights ∧ kHolder q = holder ∧ kEgr q = egr ∧ kPaths q = paths ∧ kStride q = stride ∧
      kVout q = kVout k ∧ kDie q = kDie k ∧ kUnit q = kUnit k ∧ kKind q = kKind k ∧ kGen q = kGen k ∧
      kTag q = tagOf s.secret.cur q % 2 ^ 64
    let bad := fun (c : Nat) => (two → s.traps (.knarrow h o) c 0 0) ∧
      (one → s.traps (.krights h o) c 0 0 ∧ s.traps (.kgive h o) c 0 0 ∧ s.traps (.kpaths h o) c 0 0)
    (s.tagOk k = false → bad 0x07) ∧
    (s.tagOk k = true → kHolder k ≠ s.myHolder → bad 0x0A) ∧
    (s.tagOk k = true → kHolder k = s.myHolder → 5 < kKind k → bad 0x09) ∧
    (s.tagOk k = true → kHolder k = s.myHolder → kKind k ≤ 5 →
      (two → v + l ≤ kLen k →
        gives (.knarrow h o) ((kBase k + v) % 2 ^ 64) l (kRights k) (kHolder k) (kEgr k) (kPaths k) (kStride k)) ∧
      (two → kLen k < v + l → s.traps (.knarrow h o) 0x08 0 0) ∧
      (one → v < 256 → gives (.krights h o) (kBase k) (kLen k) (kRights k &&& v) (kHolder k) (kEgr k) (kPaths k) (kStride k)) ∧
      (one → 256 ≤ v → s.traps (.krights h o) 0x01 0 0) ∧
      (one → kHas k 5 = false → s.traps (.kgive h o) 0x09 0 0) ∧
      (one → kHas k 5 = true → v % 2 ^ 16 ≠ 0xFFFF → v < 2 ^ 17 →
        gives (.kgive h o) (kBase k) (kLen k) (if v.testBit 16 then kRights k else kRights k &&& 0xDF) (v % 2 ^ 16) (kEgr k) (kPaths k) (kStride k)) ∧
      (one → kHas k 5 = true → v % 2 ^ 16 = 0xFFFF ∨ 2 ^ 17 ≤ v → s.traps (.kgive h o) 0x01 0 0) ∧
      (one → let f := v % 256; let c := v / 256 % 256; let m := v / 65536 % 256
        (kEgr k ≠ 255 → c ≠ 0 → m ≠ 0 → f + (c - 1) * m < kPaths k → v < 2 ^ 24 →
          gives (.kpaths h o) (kBase k) (kLen k) (kRights k) (kHolder k) ((kEgr k + f * kStride k) % 144) c (m * kStride k % 144)) ∧
        (kEgr k = 255 ∨ c = 0 ∨ m = 0 ∨ kPaths k ≤ f + (c - 1) * m ∨ 2 ^ 24 ≤ v → s.traps (.kpaths h o) 0x01 0 0))))

/-- spec/11 R310 to R316. That `rld` is served from the die's cache exactly where `keyedHit` answers is the model's reading of "may" (log entry 57); which bytes an
RDC then gives is `keyedHit`'s. `myRequest` hands a packet to the source's injection; its first clause says what it leaves alone. -/
def Obligations.RemoteAccesses : Prop :=
  (∀ (s : State) (k : Key) (off op sub : Nat) (data : List Byte) (aux : List Word) (use : ReqUse),
    let t := s.myRequest k off op sub data aux use
    t.me = s.me ∧ t.others = s.others ∧ t.mem = s.mem ∧ t.rdc = s.rdc ∧ t.nextReq = s.nextReq + 1) ∧
  (∀ (s : State) (h : Hdr) (o : RMT),
    let k := s.k o.k
    let c := s.x o.ext.c
    let off := c.toNat
    let a := s.x o.a
    let b := s.x (o.a + 1)
    let n := scalarBytes o.ext.sel
    let usable := fun (right len : Nat) => kRouted k s.me.loc.mod = true ∧ kKind k = 0 ∧ kHas k right = true ∧ off + len ≤ kLen k ∧
      (kBase k + off) % len = 0 ∧ s.unwatched
    let wrong := fun (right : Nat) => kRouted k s.me.loc.mod = false ∨ kKind k ≠ 0 ∨ kHas k right = false
    let atomic := fun (op : Nat) (aux : List Word) => (s.myRequest k off 3 op (natBytes 8 a.toNat) aux
      (.result s.me.uid s.me.order 64 false)).postX o.a (Inflight.ofReq s.nextReq)
    (s.notPending [o.ext.c, o.a] [o.k] →
      (wrong 0 → s.traps (.rld h o) 0x09 c 0) ∧ (wrong 1 → s.traps (.rst h o) 0x09 c 0) ∧
      (¬ wrong 0 → kLen k < off + n → s.traps (.rld h o) 0x08 c 0) ∧ (¬ wrong 1 → kLen k < off + n → s.traps (.rst h o) 0x08 c 0) ∧
      (¬ wrong 0 → off + n ≤ kLen k → (kBase k + off) % n ≠ 0 → s.traps (.rld h o) 0x04 c 0) ∧
      (usable 0 n → kHas k 4 = false ∨ s.tagOk k = false ∨ kHolder k ≠ s.myHolder ∨ s.keyedHit s.me.loc k off n = none →
        s.completes (.rld h o) h ((s.myRequest k off 1 0 [] [c, BitVec.ofNat 64 n]
        (.result s.me.uid s.me.order (8 * n) (decide (o.ext.sel.toNat ≤ 2)))).postX o.a (Inflight.ofReq s.nextReq))) ∧
      (usable 0 n → kHas k 4 = true → s.tagOk k = true → kHolder k = s.myHolder → ∀ bs, s.keyedHit s.me.loc k off n = some bs →
        s.completes (.rld h o) h (s.postX o.a (Inflight.known ((scalarExtend o.ext.sel (bytesNat bs)).setWidth 256)))) ∧
      (usable 1 n → s.completes (.rst h o) h
        (s.myRequest k off 2 0 (natBytes n a.toNat) [] (.store (s.storeTag c)))) ∧
      (usable 2 8 → s.completes (.ramoAdd h o) h (atomic 0 []) ∧ s.completes (.ramoSwap h o) h (atomic 1 []) ∧
        s.completes (.ramoMax h o) h (atomic 3 []) ∧ s.completes (.ramoOr h o) h (atomic 4 []) ∧ s.completes (.ramoAnd h o) h (atomic 5 []))) ∧
    (s.notPending [o.ext.c, o.a, o.a + 1] [o.k] →
      (usable 2 8 → s.completes (.ramoCas h o) h (atomic 2 [b])) ∧
      (usable 2 8 → b.toNat < 256 → ∀ m l, s.freeSlots s.me.loc = m :: l → s.completes (.ramoAddn h o) h
        (((s.reserveSlot s.me.loc m s.me.uid s.me.rid s.myHolder (some (b.toNat, [BitVec.ofNat 64 off, BitVec.ofNat 64 (kBase k)]))).myRequest
          k off 3 6 (natBytes 8 a.toNat) [b] (.addn s.me.uid s.me.order m)).postX o.a (Inflight.ofReq s.nextReq))) ∧
      (usable 2 8 → b.toNat < 256 → s.freeSlots s.me.loc = [] → s.traps (.ramoAddn h o) 0x12 0 0) ∧
      (256 ≤ b.toNat → s.traps (.ramoAddn h o) 0x01 0 0)) ∧
    (s.notPending [o.ext.c] [o.k] → ∀ (i : Instr) (right : Nat), (i = .rvld h o ∧ right = 0) ∨ (i = .rvst h o ∧ right = 1) →
      let ok := kRouted k s.me.loc.mod = true ∧ kKind k ≤ 1 ∧ kHas k right = true
      (¬ ok → s.traps i 0x09 c 0) ∧ (ok → s.me.cls = 0 → s.completes i h s) ∧
      (ok → s.takesEntry → s.completes i h (s.upd fun a => a.enqueued (s.newEntry i [c] k))))) ∧
  (∀ (s : State) (h : Hdr) (o : KIN), s.notPending [o.a] [o.k] →
    let k := s.k o.k
    let sel := (extSel o.ext).toNat
    let mine := s.tagOk k = true ∧ kHolder k = s.myHolder ∧ kRouted k s.me.loc.mod = true
    (sel < 3 → s.completes (.kinfo h o) h (s.postX o.a (Inflight.known (BitVec.ofNat 256 (getField k (64 * sel) 64))))) ∧
    (3 ≤ sel → mine → s.completes (.kinfo h o) h
      ((s.myRequest k 0 9 0 [] [] (.probe s.me.uid s.me.order)).postX o.a (Inflight.ofReq s.nextReq))) ∧
    (3 ≤ sel → ¬ mine → s.completes (.kinfo h o) h
      (s.postX o.a (Inflight.known (BitVec.ofNat 256 (bnat (s.tagOk k) + 2 * bnat (kHolder k == s.myHolder)))))))

/-- spec/11 R317 to R327. `relock` tells the messages that wait for the id. -/
def Obligations.MessagesAndTheHandlerTable : Prop :=
  (∀ (s : State) (h : Hdr) (o : MSG) (i : Instr) (vn : Nat) (reply : Bool),
    (i = .send h o ∧ vn = 0 ∧ reply = false) ∨ (i = .sendR h o ∧ vn = 0 ∧ reply = true) ∨ (i = .sendr h o ∧ vn = 1 ∧ reply = false) →
    s.notPending [o.ext.c] (if reply then [o.k, o.k + 1] else [o.k]) →
    let hid := (s.x o.ext.c).toNat
    let k := s.k o.k
    let k0 := getField (s.k (o.k + 1)) 0 64
    let l := s.me.loc
    let sound := hid < 256 ∧ (vn = 0 → s.me.isHandler = false) ∧ sendKeyCause k l.mod vn = none ∧ (reply = true → s.attachCause (s.k (o.k + 1)) = none)
    let leaves := fun (t : State) =>
      (s.takesEntry → s.completes i h (t.upd fun a => a.enqueued { t.newEntry i [s.x o.ext.c] k with tok := BitVec.ofNat 64 k0 })) ∧
      (s.me.cls = 0 → ∀ q, t.reserved l s.me.uid s.me.nextSeq = some q → s.completes i h (t.launchMessage q k hid k0 []))
    (256 ≤ hid → s.traps i 0x01 0 0) ∧
    (hid < 256 → vn = 0 → s.me.isHandler = true → s.traps i 0x1E 0 0) ∧
    (hid < 256 → (vn = 0 → s.me.isHandler = false) → ∀ c, sendKeyCause k l.mod vn = some c → s.traps i c 0 0) ∧
    (hid < 256 → (vn = 0 → s.me.isHandler = false) → sendKeyCause k l.mod vn = none → reply = true → ∀ c, s.attachCause (s.k (o.k + 1)) = some c →
      s.traps i c 0 0) ∧
    (sound → s.me.cls ≠ 0 → 64 ≤ s.me.queue.length → s.holds i) ∧
    (sound → s.me.cls = 0 ∨ s.takesEntry → s.freeSend l vn = none → s.traps i 0x11 0 0) ∧
    (sound → s.me.cls = 0 ∨ s.takesEntry → ∀ id, s.freeSend l vn = some id →
      (reply = false → leaves { s with sendq := s.sendq ++ [⟨l, vn, id, s.me.uid, s.me.nextSeq, false, none⟩] }) ∧
      (reply = true → s.freeSlots l = [] → s.traps i 0x12 0 0) ∧
      (reply = true → ∀ n r, s.freeSlots l = n :: r →
        let t := s.reserveSlot l n s.me.uid s.me.rid s.myHolder none
        leaves { t with sendq := t.sendq ++ [⟨l, vn, id, s.me.uid, s.me.nextSeq, false, some n⟩] }))) ∧
  (∀ (s : State) (h : Hdr) (o : LI), s.notPending [o.a] [] →
    (o.i.int = 0 → s.completes (.sqfree h o) h
      (s.setX o.a (BitVec.ofNat 64 ((s.freeSlots s.me.loc).length * 2 ^ 8 + (16 - (s.sendUsed s.me.loc 0).length))))) ∧
    (o.i.int = 1 → s.completes (.sqfree h o) h (s.setX o.a (BitVec.ofNat 64 (16 - (s.sendUsed s.me.loc 1).length)))) ∧
    (o.i.int ≠ 0 → o.i.int ≠ 1 → s.traps (.sqfree h o) 0x01 0 0)) ∧
  (∀ (s : State) (h : Hdr) (o : HID),
    let id := s.hid o.t
    let v := s.x (HID.c o)
    let l := s.me.loc
    let mine := ∀ e, s.hentry l id = some e → e.rid = s.me.rid
    let one := s.notPending (RegImm.regs o.t) []
    let two := s.notPending (RegImm.regs o.t ++ [HID.c o]) []
    (256 ≤ id → (one → s.traps (.hclr h o) 0x01 0 0) ∧ (two → s.traps (.hset h o) 0x01 0 0 ∧ s.traps (.hmask h o) 0x01 0 0)) ∧
    (id < 256 → ¬ mine → (one → s.traps (.hclr h o) 0x06 0 0) ∧ (two → s.traps (.hset h o) 0x06 0 0 ∧ s.traps (.hmask h o) 0x06 0 0)) ∧
    (id < 256 → mine →
      (one → s.completes (.hclr h o) h ((s.setHentry ⟨l, id, s.me.rid, false, 0⟩).relock l id (some (s.cycle l)))) ∧
      (two → v = 0 → s.completes (.hset h o) h ((s.dropHentry l id).relock l id none)) ∧
      (two → v ≠ 0 → v.getLsbD 0 = true → s.traps (.hset h o) 0x04 0 0) ∧
      (two → v ≠ 0 → v.getLsbD 0 = false → s.completes (.hset h o) h ((s.setHentry ⟨l, id, s.me.rid, true, v⟩).relock l id none)) ∧
      (two → v.toNat ≤ 1 → s.completes (.hmask h o) h (s.updCore l fun c => { c with hmask := setField c.hmask id 1 v.toNat })) ∧
      (two → 1 < v.toNat → s.traps (.hmask h o) 0x01 0 0)))

/-- spec/02 R48 to R52 and spec/11 R328. The handle of the new agent is the model's (log entry 4). -/
def Obligations.HandlersStartAndEnd : Prop :=
  (∀ (s : State) (n c g : Nat) (w : Waiting), s.waiting[n]? = some w →
    (s.hentry w.loc w.hid = none → s.gives (.handlerStart n c g) (s.refuseWaiting n w 0x80)) ∧
    (∀ e, s.hentry w.loc w.hid = some e → e.set = true → (s.core w.loc).hmask.getLsbD w.hid = false → s.running w.loc w.hid = false →
      s.firstWaiting n w = true → c ∈ s.handlerContexts w.loc → g ∈ s.handlerShares w.loc →
      s.gives (.handlerStart n c g) (s.startHandler n w e c g)) ∧
    (∀ e, s.hentry w.loc w.hid = some e → e.set = false ∨ (s.core w.loc).hmask.getLsbD w.hid = true ∨ s.running w.loc w.hid = true ∨
      s.firstWaiting n w = false ∨ c ∉ s.handlerContexts w.loc ∨ g ∉ s.handlerShares w.loc → s.gives (.handlerStart n c g) s) ∧
    (∀ t e, w.lockedAt = some t → s.hentry w.loc w.hid = some e → e.set = false → t + 4096 ≤ s.cycle w.loc →
      s.gives (.handlerBusyTimeout n) (s.refuseWaiting n w 0x81)) ∧
    (∀ t, w.lockedAt = some t → s.cycle w.loc < t + 4096 → s.gives (.handlerBusyTimeout n) s) ∧
    ((w.lockedAt = none ∨ ∀ e, s.hentry w.loc w.hid = some e → e.set = true) → s.gives (.handlerBusyTimeout n) s)) ∧
  (∀ (uid level c g now time : Nat) (w : Waiting) (e : HandlerEntry), w.wait = .inbox →
    let a := handlerAgent uid w e level c g now time
    a.kind = .handler w.hid ∧ a.rid = e.rid ∧ a.cls = 3 ∧ a.level = level ∧ a.loc = w.loc ∧ a.ctx = c ∧ a.life = .ready ∧ a.pc = e.addr &&& ~~~1 ∧
      a.getX 10 = BitVec.ofNat 64 w.hid ∧ a.getX 11 = BitVec.ofNat 64 w.msg.holder ∧ a.getX 12 = BitVec.ofNat 64 w.msg.data.length ∧
      a.getX 13 = 0 ∧ a.getX 14 = 0 ∧ (∀ r : Reg, r.toNat < 10 ∨ 14 < r.toNat → a.getX r = 0) ∧
      a.v[0] = BitVec.ofNat 8192 (bytesNat w.msg.data) ∧ (∀ r : Fin 32, r.val ≠ 0 → a.v[r] = 0) ∧ a.vl = (w.msg.data.length + 3) / 4 ∧
      a.k[15] = w.msg.reply ∧ (∀ r : Fin 15, a.k[r.val] = 0) ∧ (∀ r : Fin 12, a.p[r.val] = 0) ∧ a.mgang = BitVec.ofNat 16 (2 ^ (w.loc.core % 16)) ∧
      a.cmask = BitVec.ofNat 4 (2 ^ g) ∧ a.queue = [] ∧ a.uta = false) ∧
  (∀ (s : State) (n : Nat) (a : Agent), s.agent? n = some a →
    let limit := match s.region? a.loc.mod a.rid with | some r => if r.hcycles = 0 then 65536 else r.hcycles | none => 65536
    (a.isHandler = true → a.placed = true → a.life ≠ .exited → a.started + limit < s.cycle a.loc →
      s.gives (.handlerCycleLimit n) (s.updAgent n fun a => { a with cycleLimit := true })) ∧
    (a.isHandler = false ∨ a.placed = false ∨ a.life = .exited ∨ s.cycle a.loc ≤ a.started + limit → s.gives (.handlerCycleLimit n) s)) ∧
  (∀ (s : State) (h : Hdr),
    (s.me.isHandler = false → s.traps (.hret h) 0x01 0 0) ∧
    (s.me.isHandler = true → s.me.inflight ≠ [] ∨ s.me.streamDone = false → s.holds (.hret h)) ∧
    (s.me.isHandler = true → s.me.inflight = [] → s.me.streamDone = true → s.nothingDue →
      s.gives (.hret h) ((s.traceState s.me 7 0).endHandler s.me.uid)) ∧
    (s.me.isHandler = true → s.me.inflight = [] → s.me.streamDone = true → (s.deliverAll s.me.uid).me.failures ≠ [] →
      s.gives (.hret h) ((s.deliverAll s.me.uid).upd Agent.clearPending))) ∧
  (∀ (s : State), s.ownSats s.me.uid = [] → s.me.failures = [] → s.me.streamDone = true →
    let u := s.endHandler s.me.uid
    u.me.life = .exited ∧ u.me.placed = false ∧ u.mem = s.mem ∧ u.others = s.others ∧ u.reports = s.reports)

/-- spec/11 R329 to R332. The model's choices: the handle of the new thread (log entry 4), the lowest free number for it (log entry 55), and that JOIN_DECREMENT
waits for the acknowledgements of the whole module's earlier writes (log entry 61). -/
def Obligations.ThreadsFromCreationToExit : Prop :=
  (∀ (s : State) (h : Hdr) (o : SPN) (r : Region), s.notPending [o.b, o.ext.c] ((List.range 16).map (BitVec.ofNat 4)) →
    (5 < o.cls.toNat → s.traps (.spawn h o) 0x01 0 0) ∧
    (o.cls.toNat ≤ 5 → (s.x o.b).getLsbD 0 = true → s.traps (.spawn h o) 0x04 0 0) ∧
    (o.cls.toNat ≤ 5 → (s.x o.b).getLsbD 0 = false → s.myRegion = some r → s.freeTid r = none → s.traps (.spawn h o) 0x24 0 0) ∧
    (o.cls.toNat ≤ 5 → (s.x o.b).getLsbD 0 = false → s.myRegion = some r → ∀ tid, s.freeTid r = some tid →
      tid ∉ s.liveTids r.mod r.rid ∧ (∀ q, q < tid → q ∈ s.liveTids r.mod r.rid) ∧
      ∃ (a : Agent) (d : Deferred), s.completes (.spawn h o) h { s.takeUid with deferred := s.deferred ++ [d] } ∧ d.agent = some a ∧ d.join = false ∧
        d.uid = s.me.uid ∧ d.upto = s.me.nextSeq ∧ d.reqAt = s.nextReq ∧ a.tid = tid ∧ a.rid = s.me.rid ∧ a.level = s.me.level ∧ a.cls = o.cls.toNat ∧ a.pc = s.x o.b ∧
        a.getX 10 = s.x o.ext.c ∧ a.loc.die = r.dieFor s.me.loc.die ∧
        ∀ j : Fin 16, a.k[j] = (if kHolder s.me.k[j] = s.myHolder then s.me.k[j] else 0))) ∧
  (∀ (s : State) (h : Hdr) (o : SPN) (j : Reg4), s.notPending [o.b, o.ext.c] [] →
    ((List.range 16).map (BitVec.ofNat 4)).find? (fun r : Reg4 => s.me.pendK.getLsbD r.toNat) = some j →
    s.traps (.spawn h o) 0x03 0 (BitVec.ofNat 64 (32 + j.toNat))) ∧
  (∀ (s : State) (n : Nat) (d : Deferred), s.deferred.find? (fun d => d.id == n && !d.join) = some d → ∀ a, d.agent = some a →
    (s.streamPast d.uid d.upto = true → s.gives (.spawnQueue n) (((s.release d.loc 3).dropDeferred n).enlist a a.loc.die)) ∧
    (s.streamPast d.uid d.upto = false → s.gives (.spawnQueue n) s)) ∧
  (∀ (s : State) (h : Hdr),
    (s.me.isHandler = true → s.traps (.exit h) 0x1E 0 0) ∧
    (s.me.isHandler = false → s.me.streamDone = false → s.holds (.exit h)) ∧
    (s.me.isHandler = false → s.me.streamDone = true → exec (.exit h) s = .next s.exitThread) ∧
    (let u := s.exitThread
     s.me.failures = [] → s.me.carried = [] → s.ownSats s.me.uid = [] → s.tbuf? s.me.loc.mod s.me.loc.die s.me.rid = none →
      u.me.life = .exited ∧ u.me.placed = false ∧ u.mem = s.mem ∧ u.others = s.others) ∧
    (let waits := ∃ q, s.rqueue? s.me.loc.mod s.me.loc.die s.me.rid = some q ∧ s.queueThreads q ≠ []
     (s.me.isHandler = false → waits → s.freeContexts s.me.loc = [] → s.completes (.yield h) h (s.preemptThread s.me)) ∧
     (s.me.isHandler = true ∨ ¬ waits ∨ s.freeContexts s.me.loc ≠ [] → s.completes (.yield h) h s))) ∧
  (∀ (s t : State) (h : Hdr) (o : XB) (pa : Nat) (v : Via), s.notPending [o.b] [] →
    (s.reaches (s.x o.b) 32 .write pa v t → s.completes (.jdec h o) h { t.takeUid with
      deferred := t.deferred ++ [⟨t.nextUid, s.me.uid, s.me.loc, s.me.rid, s.me.nextSeq, t.nextReq, true, (s.x o.b).toNat, pa, v.key, none, s.storeTag (s.x o.b)⟩] }) ∧
    ((s.x o.b).toNat % 32 ≠ 0 → s.traps (.jdec h o) 0x04 (s.x o.b) 0) ∧
    (∀ c, (s.x o.b).toNat % 32 = 0 → s.translate s.mySpace (s.x o.b).toNat .write = (.error c, t) →
      exec (.jdec h o) s = .next (t.takeTrap ⟨c, s.me.pc, s.x o.b, 0, false, 0⟩))) ∧
  (∀ (s : State) (n : Nat) (d : Deferred), s.deferred.find? (fun d => d.id == n && d.join) = some d →
    (s.streamPast d.uid d.upto = true → s.remotesAcked d.uid = true → s.writesAcked d.loc.mod d.reqAt = true → s.gives (.joinDecrement n) (((s.release d.loc 4).dropDeferred n).joinStep d)) ∧
    (s.streamPast d.uid d.upto = false ∨ s.remotesAcked d.uid = false ∨ s.writesAcked d.loc.mod d.reqAt = false → s.gives (.joinDecrement n) s)) ∧
  (∀ (s : State) (d : Deferred),
    let u := s.reachHome { s.via d.loc d.rid with key := d.key } (d.pa / 128)
    let ep := d.loc.mod
    u.counted? ep (d.pa / 128) = none → u.poisoned ep (d.pa / 128) = false → u.lineKey ep (d.pa / 128) = d.key →
    let bs := u.homeBytes ep d.pa 32
    let word := fun (i : Nat) => bytesNat ((bs.drop (8 * i)).take 8)
    (word 0 ≠ 1 → s.joinStep d = u.poke ep d.pa (natBytes 8 ((word 0 + 2 ^ 64 - 1) % 2 ^ 64))) ∧
    (word 0 = 1 → s.joinStep d = (u.poke ep d.pa (natBytes 8 0)).joinContinue d (word 1) (word 2) (bytesNat (bs.drop 24))))

/-- spec/15 R391 to R402. What a U thread meets is PageSevenNeedsItsLevel. The model's choices: a write of `mchk` with another value than 0 does nothing (log entry
41), the ASID of a `tlbi` is checked whatever bits 16 and 17 are (log entry 40), `icinv` acts on the thread's interface and ASID (log entry 37), and which of the
pstate pair an operand is (log entry 11). -/
def Obligations.PrivilegedRegistersAndCaches : Prop :=
  (∀ (s : State) (h : Hdr) (o : CRN), s.me.level ≠ 0 → s.notPending [o.a] [] →
    let n := o.i.nat
    (∀ l, prRead n = some l → l ≤ s.me.level → s.completes (.mfpr h o) h (s.setX o.a (s.prWord n))) ∧
    (∀ l, prRead n = some l → s.me.level < l → s.traps (.mfpr h o) 0x1D 0 0) ∧
    (prRead n = none → s.traps (.mfpr h o) 0x01 0 0) ∧
    (∀ i ∈ [Instr.mtpr h o, .mtprMchkClear h o],
      (n = 0x104 → s.completes i h (s.upd fun a => { a with pscratch := s.x o.a })) ∧
      (n = 0x180 → 3 ≤ s.me.level → s.x o.a = 0 → s.completes i h (s.updCore s.me.loc fun c => { c with mchk := 0 })) ∧
      (n = 0x180 → 3 ≤ s.me.level → s.x o.a ≠ 0 → s.completes i h s) ∧
      (n = 0x180 → s.me.level < 3 → s.traps i 0x1D 0 0) ∧
      (n ≠ 0x104 → n ≠ 0x180 → s.traps i 0x01 0 0))) ∧
  (∀ (s : State), s.prWord 0x100 = BitVec.ofNat 64 s.me.level ∧ s.prWord 0x104 = s.me.pscratch ∧ s.prWord 0x180 = (s.core s.me.loc).mchk ∧
    (∀ r, s.myRegion = some r → s.prWord 0x101 = BitVec.ofNat 64 r.vif ∧ s.prWord 0x102 = BitVec.ofNat 64 r.rcb) ∧
    (s.prWord 0x111).toNat ≤ 256) ∧
  (∀ (s : State) (h : Hdr) (o : TLB) (r : Region) (slot : Nat), s.me.level ≠ 0 → s.notPending [o.b, o.ext.c, o.a] [] → s.myRegion = some r →
    let c := (s.x o.ext.c).toNat
    let asid := c % 2 ^ 16
    let granted := s.vifs.any fun v => v.mod == s.me.loc.mod && v.vif == r.vif && decide (v.asidBase ≤ asid) && decide (asid < v.asidBase + v.asidCount)
    (granted = false → s.traps (.tlbi h o) 0x06 0 0) ∧ (granted = true → 2 ^ 18 ≤ c → s.traps (.tlbi h o) 0x01 0 0) ∧
    (c < 2 ^ 18 → granted = true → s.freeSatSlot s.me.loc s.me.rid = none → s.traps (.tlbi h o) 0x19 0 0) ∧
    (c < 2 ^ 18 → granted = true → s.freeSatSlot s.me.loc s.me.rid = some slot → s.completes (.tlbi h o) h
      (s.createSat o.a slot 3 .shootdown (s.me.sattr &&& 0xF00) 0 0 true (.tlbi r.vif asid (s.x o.b).toNat (c.testBit 16) (c.testBit 17))))) ∧
  (∀ (s : State) (n : Nat) (t : Sat) (vif asid va : Nat) (allAsid allVif : Bool), s.satIs n t → t.task = .tlbi vif asid va allAsid allVif →
    let probed := (∃ a ∈ s.agents, s.holdsProbe t.loc.mod vif asid allVif a = true) ∨
      (∃ d ∈ s.sats, s.drainsProbe t.loc.mod vif asid allVif d = true) ∨ ∃ d ∈ s.deferred, s.joinsProbe t.loc.mod vif asid allVif d = true
    (t.begun = false ∨ t.terminal = true → s.gives (.tlbiDone n) s) ∧
    (t.begun = true → t.terminal = false → t.cancel = true → s.gives (.tlbiDone n) (s.endSat n 2 0 0 0)) ∧
    (t.begun = true → t.terminal = false → t.cancel = false → ¬ probed →
      let u := s.settleBursts t.loc.mod
      s.gives (.tlbiDone n)
        ({ u with tlb := u.tlb.filter fun e => !(e.loc.mod == t.loc.mod && tlbiNames vif asid va allAsid allVif e) }.endSat n 0 0 0 0)) ∧
    (t.begun = true → t.terminal = false → t.cancel = false → probed → s.gives (.tlbiDone n) s)) ∧
  (∀ (s : State) (h : Hdr) (o : CFL),
    (s.me.streamDone = false → s.holds (.icinv h)) ∧
    (s.me.streamDone = true → s.completes (.icinv h) h { s with icache := s.icache.filter fun c =>
      !(c.loc == s.me.loc && c.vif == s.mySpace.vif && c.asid == s.mySpace.asid) }) ∧
    (s.notPending [o.b, o.ext.c] [] →
      let sc := o.ext.sel.toNat
      let b := (s.x o.b).toNat
      let n := (s.x o.ext.c).toNat
      (sc ≤ 5 → s.me.level ≠ 0 ∨ sc < 3 →
        (2 ^ 40 < n → s.traps (.cflush h o) 0x01 0 0) ∧ (n = 0 → s.completes (.cflush h o) h s) ∧
        (0 < n → n ≤ 2 ^ 40 → s.completes (.cflush h o) h (State.flushLines sc ((b % 128 + n + 127) / 128) s (b / 128 * 128)))))) ∧
  (∀ (s : State) (sc pa : Nat),
    let t := s.flushLine sc pa
    ((s.counted? s.me.loc.mod (pa / 128)).isSome = true → t = s) ∧
    ((s.counted? s.me.loc.mod (pa / 128)).isSome = false →
      (∀ d ∈ t.dcache, d.loc = s.me.loc → d.ep = s.me.loc.mod → d.line ≠ pa / 128) ∧
      (sc < 2 → t.rdc = s.rdc ∧ t.mem = s.mem) ∧
      (sc = 2 → t.rdc? s.me.loc.mod s.me.loc.die s.me.loc.mod (pa / 128) = none) ∧
      (3 ≤ sc → ∀ d, d < 8 → t.rdc? s.me.loc.mod d s.me.loc.mod (pa / 128) = none))) ∧
  (∀ (s : State) (h : Hdr), s.me.level ≠ 0 →
    let ends := s.meridian s.me.loc.mod + 1000000
    ((∀ w, s.me.wfiFrom = some w → w.1 ≠ s.me.pc) → s.gives (.wfi h) (s.upd fun a =>
      { a with wfiSeen := false, wfiFrom := some (s.me.pc, ends), life := .parked (.wfi ends) })) ∧
    (∀ e, s.me.wfiFrom = some (s.me.pc, e) → s.gives (.wfi h) (s.upd fun a => { a with life := .parked (.wfi e) }))) ∧
  (∀ (s : State) (h : Hdr) (o : RB), s.notPending (RegImm.regs o.t ++ [o.a]) [] →
    let r := match o.t with | .reg b => (s.x b).toNat | .imm i => i.nat
    ∀ i ∈ [Instr.pstateSet h o, .pstateRead h o],
      (16 ≤ r → s.traps i 0x01 0 0) ∧
      (r < 8 → s.completes i h (s.setX o.a s.pstateWord)) ∧
      (8 ≤ r → r < 16 → s.completes i h ((s.setCeiling (r - 8)).setX o.a (s.setCeiling (r - 8)).pstateWord)))

/-- spec/15 R365 and R366; the level is checked before the registers (spec/03 R75). -/
def Obligations.PageSevenNeedsItsLevel : Prop :=
  (∀ (s : State) (h : Hdr) (r : CRN) (b : XB) (q : XBC) (t : TLB) (f : CFL) (k : KB), s.me.level = 0 →
    (∀ i ∈ [Instr.mfpr h r, .mtpr h r, .mtprMchkClear h r, .tlbi h t, .ctxsave h b, .ctxload h b, .rgnbindBind h q, .rgnbindReload h q, .rgnbindEnd h q,
        .qmap h q, .trcctl h q, .kmint h k, .krekeyAdvance h b, .krekeyRotate h b, .wfi h], s.traps i 0x1D 0 0) ∧
    (3 ≤ f.ext.sel.toNat → f.ext.sel.toNat ≤ 5 → s.traps (.cflush h f) 0x1D 0 0) ∧
    (s.me.uta = false → s.traps (.rett h) 0x1D 0 0)) ∧
  (∀ (s : State) (h : Hdr) (b : XB) (k : KB),
    (s.me.level ≠ 2 ∨ ∀ a, s.module? s.me.loc.mod = some a → a.keywright ≠ s.me.loc.die) →
    ∀ i ∈ [Instr.kmint h k, .krekeyAdvance h b, .krekeyRotate h b], s.traps i 0x1D 0 0) ∧
  (∀ (s : State) (h : Hdr), s.me.level ≠ 0 → s.me.uta = false → s.traps (.rett h) 0x01 0 0)

/-- spec/15 R395 to R400 and spec/16 R414. The model's choices: which operation rgnbind and krekey perform is their operand's (log entry 11), the refusals 0x01 and
0x06 of a launch (log entries 31 and 64), a `ctxload` or `ctxsave` that finds no such thread (log entry 36), and that an advance is answered by a later step (log
entry 42). -/
def Obligations.RegionsContextsAndKeywright : Prop :=
  (∀ (s : State) (h : Hdr) (b : XB), s.me.level ≠ 0 → s.notPending [b.b] [] →
    (∀ c, s.selector (s.x b.b) = .error c → s.traps (.ctxsave h b) c 0 0 ∧ s.traps (.ctxload h b) c 0 0) ∧
    (∀ rid tid, s.selector (s.x b.b) = .ok (rid, tid) →
      (s.threadOf s.me.loc.mod rid tid = none → s.completes (.ctxsave h b) h s) ∧
      (∀ a, s.threadOf s.me.loc.mod rid tid = some a →
        (a.saved = true → s.completes (.ctxsave h b) h s) ∧
        (a.saved = false → a.placed = true → s.completes (.ctxsave h b) h ((s.preemptThread a).updAgent a.uid fun a => { a with hold := true }))) ∧
      (∀ r l u, s.region? s.me.loc.mod rid = some r →
        s.translateSpans { s.space s.me.loc .core r.rid 1 with level := 1 } .read (lineSpans 2 (imageBase r tid) 16) = (.ok l, u) →
        let x := u.readVias (State.dumpVias r l)
        let bad := u.badSpan (imageBase r tid) (State.dumpVias r l)
        (∀ q, bad = some q → s.gives (.ctxload h b)
          ((u.foundError s.me.loc (u.poisonUnit q.2.2.loc.mod (q.2.1 / 128)) q.2.1).takeTrap ⟨0x22, s.me.pc, BitVec.ofNat 64 q.1, 0, false, 0⟩)) ∧
        (bad = none → bits (wordAt x.1 0) 32 16 ≠ 0x0901 → s.traps (.ctxload h b) 0x01 0 0) ∧
        (bad = none → bits (wordAt x.1 0) 32 16 = 0x0901 →
          (∀ a, s.threadOf s.me.loc.mod rid tid = some a → a.saved = true → a.hold = true →
            s.completes (.ctxload h b) h (x.2.unhold r a (wordAt x.1 8))) ∧
          (∀ a, s.threadOf s.me.loc.mod rid tid = some a → a.saved = false ∨ a.hold = false → s.completes (.ctxload h b) h x.2) ∧
          (s.threadOf s.me.loc.mod rid tid = none → s.completes (.ctxload h b) h x.2))))) ∧
  (∀ (s u : State) (h : Hdr) (q : XBC) (p : Region) (bs : List Byte), s.me.level ≠ 0 → s.notPending [q.b, q.ext.c] [] → s.myRegion = some p →
    (s.x q.b).toNat % 256 = 0 → s.vread s.mySpace (s.x q.b).toNat 256 = (.ok bs, u) →
    let addr := (s.x q.b).toNat
    let rid := bits (wordAt bs 0) 48 16
    let mod := s.me.loc.mod
    ∀ i ∈ [Instr.rgnbindBind h q, .rgnbindReload h q, .rgnbindEnd h q],
      (s.x q.ext.c = 0 → ∀ n t, u.bindChild false p addr bs = (.ok n, t) → s.completes i h t) ∧
      (s.x q.ext.c = 0 → ∀ c t, u.bindChild false p addr bs = (.error c, t) → s.traps i c 0 0) ∧
      (s.x q.ext.c = 1 → s.isDescendant mod p.rid rid = true → ∀ r n t, s.region? mod rid = some r → u.reloadRegion false r bs = (.ok n, t) →
        s.completes i h t) ∧
      (s.x q.ext.c = 2 → s.isDescendant mod p.rid rid = true → ∀ r, s.region? mod rid = some r →
        s.completes i h (u.endRegion s.me.loc rid .asked)) ∧
      (s.x q.ext.c = 1 ∨ s.x q.ext.c = 2 → s.isDescendant mod p.rid rid = false → s.traps i 0x06 0 0) ∧
      (3 ≤ (s.x q.ext.c).toNat → s.traps i 0x01 0 0)) ∧
  (∀ (s : State) (h : Hdr) (q : XBC), s.me.level ≠ 0 → s.notPending [q.b, q.ext.c] [] →
    let m := s.me.loc.mod
    let rid := (s.x q.b).toNat % 2 ^ 16
    let c := (s.x q.ext.c).toNat
    let d := c % 8
    let on := (s.rqueue? m d rid).any RQueue.pinned
    (s.within m s.me.rid rid = false → s.traps (.qmap h q) 0x06 0 0) ∧
    (s.within m s.me.rid rid = true → (s.x q.b).toNat < 2 ^ 16 →
      (c < 8 → s.completes (.qmap h q) h ((s.updQueue m d rid fun q => { q with pinned := false }).settleQueues m d)) ∧
      (256 ≤ c → c < 264 → on = true → s.completes (.qmap h q) h s) ∧
      (256 ≤ c → c < 264 → on = false → 16 ≤ s.pinned m d → s.traps (.qmap h q) 0x24 0 0) ∧
      (256 ≤ c → c < 264 → on = false → s.pinned m d < 16 → s.completes (.qmap h q) h (s.pinQueue m d rid)))) ∧
  (∀ (s u : State) (h : Hdr) (q : XBC) (bs : List Byte), s.me.level ≠ 0 → s.notPending [q.b, q.ext.c] [] →
    (s.x q.b).toNat % 64 = 0 → (s.x q.ext.c).toNat &&& 0xFF0F = (s.x q.ext.c).toNat → s.vread s.mySpace (s.x q.b).toNat 64 = (.ok bs, u) →
    let ws := byteWords 8 bs
    let w := fun (i : Nat) => (ws.getD i 0).toNat
    let mod := s.me.loc.mod
    let rid := bits (w 4) 48 16
    let die := bits (w 4) 40 3
    let ctl := (s.x q.ext.c).toNat
    w 5 = 0 → (s.within mod s.me.rid rid = false → s.traps (.trcctl h q) 0x06 0 0) ∧
    (s.within mod s.me.rid rid = true → descriptorOk ws ctl = false → s.traps (.trcctl h q) 0x01 0 0) ∧
    (s.within mod s.me.rid rid = true → descriptorOk ws ctl = true →
      (ctl.testBit 0 = false → s.completes (.trcctl h q) h (u.unbindTrace mod die rid)) ∧
      (ctl.testBit 0 = true → (s.tbuf? mod die rid).isSome = true ∨ (s.tbufs.filter fun b => b.mod == mod && b.die == die).length < 8 →
        let masked := s.confidential mod rid && rid != s.me.rid && !s.confidential mod s.me.rid
        ∀ t, u.bindTrace ⟨mod, die, rid, s.me.rid, (s.x q.b).toNat, masked, ws, ctl, 0, 0, 0, 0, 0, []⟩ = (.ok (), t) →
          s.completes (.trcctl h q) h t))) ∧
  (∀ (s u : State) (h : Hdr) (o : KB) (b : XB) (bs : List Byte), s.onKeywright = true →
    (s.notPending [o.b] [o.a] → (s.x o.b).toNat % 32 = 0 → s.vread s.mySpace (s.x o.b).toNat 32 = (.ok bs, u) →
      let r := u.mint s.me.loc.mod (keyOf (wordAt bs 0) (wordAt bs 8) (wordAt bs 16) 0)
      (wordAt bs 24 ≠ 0 → s.traps (.kmint h o) 0x01 0 0) ∧
      (wordAt bs 24 = 0 → ∀ k t, r = (.ok k, t) → s.completes (.kmint h o) h (t.setK o.a k)) ∧
      (wordAt bs 24 = 0 → ∀ c t, r = (.error c, t) → s.traps (.kmint h o) c 0 0)) ∧
    (s.notPending [b.b] [] → (s.x b.b).toNat % 32 = 0 → s.vread s.mySpace (s.x b.b).toNat 32 = (.ok bs, u) →
      let addr := (s.x b.b).toNat
      let m := s.me.loc.mod
      ∀ i ∈ [Instr.krekeyAdvance h b, .krekeyRotate h b],
        (bits (wordAt bs 0) 0 4 = 0 →
          let k := keyOf (wordAt bs 8) (wordAt bs 16) 0 0
          ((∃ c ∈ s.charters, c.mod = m ∧ s.endpointChartered c k = true) →
            s.completes i h { u with advances := u.advances ++ [⟨m, s.me.rid, addr, k, s.me.uid, s.me.pc, s.me.order⟩] }) ∧
          ((∀ c ∈ s.charters, c.mod = m → s.endpointChartered c k = false) → s.traps i 0x06 0 0)) ∧
        (bits (wordAt bs 0) 0 4 = 1 →
          (s.lowestUp ≠ some m → s.traps i 0x06 0 0) ∧
          (s.lowestUp = some m → s.secret.old = none → s.secret.next = none → s.completes i h ({ u with
            secret := { u.secret with next := some (freshSecret u.fresh), word3 := some ⟨m, s.me.rid, addr, 0, s.me.uid, s.me.pc, s.me.order⟩ }, fresh := u.fresh + 2 }.tellRotation)) ∧
          (s.lowestUp = some m → s.secret.old ≠ none ∨ s.secret.next ≠ none →
            s.completes i h (u.answerRequest m s.me.rid addr (2 ^ 63 + 2 ^ 61)))) ∧
        (2 ≤ bits (wordAt bs 0) 0 4 → s.traps i 0x01 0 0))) ∧
  (∀ (s : State) (m : Nat) (k : Key),
    let t := s.claim k
    let e := t.keyEndpoint k
    (kRouted k m = false → (s.mint m k).1 = .error 0x09) ∧
    (kRouted k m = true → t.chartered m k = false → (s.mint m k).1 = .error 0x06) ∧
    (kRouted k m = true → t.chartered m k = true → ∀ c, s.probeCause m k = some c → (s.mint m k).1 = .error c) ∧
    (kRouted k m = true → t.chartered m k = true → s.probeCause m k = none →
      (e.retired = true → (s.mint m k).1 = .error 0x06) ∧ (e.retired = false → s.mint m k = (.ok (t.signed (setField k 52 12 e.gen)), t)))) ∧
  (∀ (s : State) (q : Advance) (l : List Advance), s.advances = q :: l →
    let e := (s.keyEndpoint q.key).advance
    s.move .advance = .next (({ s with advances := l }.setEndpoint e).answerRequest q.mod q.rid q.addr (2 ^ 63 + (if e.retired then 2 ^ 62 else 0) + e.gen))) ∧
  (∀ (s : State) (n : Nat) (q : Launch), s.launches[n]? = some q → s.firstLaunch n q = true → q.src ≠ q.mod →
    let i := if q.op = 1 then Instr.launchCreateThread n else if q.op = 2 then .launchEndRegion n else if q.op = 3 then .launchReload n else .launchBind n
    s.gives i ({ s with launches := s.launches.eraseIdx n }.launchResult q (.error 0x06))) ∧
  (∀ (s : State) (n : Nat) (q : Launch) (p : Region), s.launches[n]? = some q → s.firstLaunch n q = true → q.src = q.mod → s.region? q.mod q.actor = some p →
    p.state = .bound → p.launch = true ∨ q.host.isSome = true →
    let u : State := { s with launches := s.launches.eraseIdx n }
    let i := if q.op = 1 then Instr.launchCreateThread n else if q.op = 2 then .launchEndRegion n else if q.op = 3 then .launchReload n else .launchBind n
    (q.formed = false → s.gives i (u.launchResult q (.error 0x01))) ∧
    (q.formed = true →
      (4 ≤ q.op → s.gives i (u.launchResult q (.error 0x01))) ∧
      (q.op = 2 → s.isDescendant q.mod p.rid q.target = true →
        s.gives i ((u.endRegion ⟨q.mod, q.die, 0⟩ q.target .asked).launchResult q (.ok q.target))) ∧
      (q.op = 2 → s.isDescendant q.mod p.rid q.target = false → s.gives i (u.launchResult q (.error 0x06))) ∧
      (q.op = 1 → ∀ r, s.region? q.mod q.target = some r → s.within q.mod p.rid r.rid = true → bits (q.word 3) 0 3 ≤ 5 → bit (q.word 3) 14 = true →
        bit (q.word 1) 0 = false → ∀ tid, s.freeTid r = some tid → ∃ a : Agent,
          s.gives i ((u.takeUid.enlist a r.lowDie).launchResult q (.ok tid)) ∧ a.tid = tid ∧ a.rid = r.rid ∧ a.level = r.level ∧
            a.cls = bits (q.word 3) 0 3 ∧ a.pc = q.words.getD 1 0 ∧ a.getX 10 = q.words.getD 2 0 ∧ a.named = none ∧
            (q.ofBlock = false → ∀ j : Fin 16, a.k[j] = 0)) ∧
      (q.op = 0 → q.word 1 % 256 = 0 → ∀ bs v rid t, u.vread { u.space ⟨q.mod, q.die, 0⟩ .core p.rid 1 with level := 1 } (q.word 1) 256 = (.ok bs, v) →
        v.bindChild q.host.isSome p (q.word 1) bs = (.ok rid, t) →
        let r := t.mintAll q.mod (((t.region? q.mod rid).map Region.holder).getD 0) q.keys
        (∀ ks w, r = (.ok ks, w) → s.gives i ({ w with
          plans := (w.plans.filter fun (a : Plan) => !(a.mod == q.mod && a.rid == rid)) ++ [(⟨q.mod, rid, q.handlers, ks⟩ : Plan)] }.launchResult q (.ok rid))) ∧
        (∀ c w, r = (.error c, w) → s.gives i (u.launchResult q (.error c)))) ∧
      (q.op = 3 → q.word 1 % 256 = 0 → ∀ bs v r n t, u.vread { u.space ⟨q.mod, q.die, 0⟩ .core p.rid 1 with level := 1 } (q.word 1) 256 = (.ok bs, v) →
        bits (wordAt bs 0) 48 16 = q.target → v.isDescendant q.mod p.rid q.target = true → v.region? q.mod q.target = some r →
        v.reloadRegion q.host.isSome r bs = (.ok n, t) → s.gives i (t.launchResult q (.ok n)))))

/-- spec/11 R302, R303 and spec/18 R426 to R435. `arrive` takes one packet at an ingress. The model's choices: the numbering
at the egress, and that the first packet of an unknown bucket is the oldest one still unanswered (log entry 8). -/
def Obligations.PacketsFromSourceToAnswer : Prop :=
  (∀ (s : State) (n : Nat) (f : Flight), s.flights[n]? = some f →
    let p := f.pkt
    let refused := fun (c ep : Nat) (w : Place) => s.moveFlight n ⟨p.answer (s.timeAt ep) (.error c), w, f.port⟩
    let mine := (p.op = 5 ∧ kHolder p.key = 0xFFFF) ∨ kHolder p.key = p.holder
    (f.place = .egress → p.isAnswer = true →
      (s.stale p.target p = true → s.gives (.egressCheck n) (s.dropFlight n)) ∧
      (s.stale p.target p = false → s.uplink p.target f.port p = true →
        s.gives (.egressCheck n) ((s.moveFlight n { f with place := .vault f.port }).sendOn p.target f.port p)) ∧
      (s.stale p.target p = false → s.uplink p.target f.port p = false → s.gives (.egressCheck n) s)) ∧
    (f.place = .egress → p.isAnswer = false →
      (s.stale p.srcMod p = true → s.gives (.egressCheck n) (s.dropFlight n)) ∧
      (s.stale p.srcMod p = false → s.tagOk p.key = false → s.gives (.egressCheck n) (refused 0x07 p.srcMod .back)) ∧
      (s.stale p.srcMod p = false → s.tagOk p.key = true → ¬ mine → s.gives (.egressCheck n) (refused 0x0A p.srcMod .back)) ∧
      (f.port = 255 ∨ (s.port p.srcMod f.port).works = true → s.wayOut f = f.port) ∧
      (∀ q w, f.port ≠ 255 → (s.port p.srcMod f.port).works = false → s.reqs.find? (fun q => q.req == p.req) = some q →
        s.choosePort p.srcMod p.key p.line q.resent = some w → s.wayOut f = w) ∧
      (s.stale p.srcMod p = false → s.tagOk p.key = true → mine → s.behind n p = false → s.wayOut f = 255 → ∀ q t, s.numbered p = some (q, t) →
        s.gives (.egressCheck n) (t.moveFlight n ⟨q, .ingress q.target, 255⟩)) ∧
      (s.stale p.srcMod p = false → s.tagOk p.key = true → mine → s.behind n p = false → s.wayOut f ≠ 255 → s.uplink p.srcMod (s.wayOut f) p = true →
        ∀ q t, s.numbered p = some (q, t) →
        s.gives (.egressCheck n) ((t.moveFlight n ⟨q, .vault (s.wayOut f), s.wayOut f⟩).sendOn q.srcMod (s.wayOut f) q))) ∧
    (∀ k, f.place = .vault k → s.stale (512 + k) p = true → s.gives (.vaultForward n) (s.dropFlight n)) ∧
    (∀ k, f.place = .vault k → s.stale (512 + k) p = false → s.buffered n k p = true → s.gives (.vaultForward n) s) ∧
    (∀ k, f.place = .vault k → p.isAnswer = true → s.stale (512 + k) p = false → s.buffered n k p = false → s.downlink k p.srcMod p = true →
      s.gives (.vaultForward n) ((s.moveFlight n { f with place := .back }).sendOn (512 + k) p.srcMod p)) ∧
    (∀ k, f.place = .vault k → p.isAnswer = false → s.stale (512 + k) p = false → s.buffered n k p = false →
      (s.tagOk p.key = false → s.gives (.vaultForward n) (refused 0x07 (512 + k) (.vault k))) ∧
      (s.tagOk p.key = true → inPathSet p.key k = false → s.gives (.vaultForward n) (refused 0x09 (512 + k) (.vault k))) ∧
      (s.tagOk p.key = true → inPathSet p.key k = true → p.target < 512 → s.module? p.target = none →
        s.gives (.vaultForward n) (refused 0x09 (512 + k) (.vault k))) ∧
      (s.tagOk p.key = true → inPathSet p.key k = true → p.target < 512 → (s.module? p.target).isSome = true → s.downlink k p.target p = true →
        s.gives (.vaultForward n) ((s.moveFlight n { f with place := .ingress p.target }).sendOn (512 + k) p.target p)))) ∧
  (∀ (s t : State) (n : Nat) (f : Flight) (act : Act) (b : Bucket) (ans : Except Nat (List Byte)),
    let p := f.pkt
    s.stale p.target p = false → s.bucket? p = some b →
    let ahead := (p.seq + 65536 - b.expect) % 65536
    (ahead = 0 → (match s.ingressCause p with | some c => (some (.error c), s) | none => act s p) = (some ans, t) →
      ∃ u, s.arrive n f act = u ∧ u.mem = t.mem ∧ u.me = t.me ∧ u.sats = t.sats ∧ u.waiting = t.waiting ∧
        (∀ c, u.bucket? p = some c → c.expect = (p.seq + 1) % 65536) ∧ answerFlight (p.answer (s.timeAt p.target) ans) f.port ∈ u.flights) ∧
    (1 ≤ ahead → ahead ≤ 31 → (s.arrive n f act).mem = s.mem ∧ (s.arrive n f act).me = s.me ∧
      ∀ c, (s.arrive n f act).bucket? p = some c → p.seq ∈ c.held.map Packet.seq) ∧
    (32 ≤ ahead → ahead ≤ 65503 → (s.arrive n f act).mem = s.mem ∧ (s.arrive n f act).me = s.me ∧ (s.arrive n f act).reqs = s.reqs ∧
      (s.arrive n f act).flights = s.flights.eraseIdx n ∧ ∀ c, (s.arrive n f act).bucket? p = some c → c = { b with last := s.now }) ∧
    (65504 ≤ ahead → (s.arrive n f act).mem = s.mem ∧ (s.arrive n f act).me = s.me)) ∧
  (∀ (s : State) (n : Nat) (f : Flight) (act : Act), s.stale f.pkt.target f.pkt = false → s.bucket? f.pkt = none → s.older f.pkt = true →
    s.arrive n f act = s) ∧
  (∀ (p : Packet) (port : Nat), answerFlight p port = ⟨p, if port = 255 then .back else if 512 ≤ p.target then .vault port else .egress, port⟩) ∧
  (∀ (s : State) (n : Nat) (f : Flight), s.flights[n]? = some f → f.place = .ingress f.pkt.target →
    let at_ := fun (i : Instr) (act : Act) => s.gives i ((s.claim f.pkt.key).arrive n f act)
    (f.pkt.op ∈ [1, 2, 3, 9] → at_ (.ingressPacket n) State.atTarget) ∧
    (f.pkt.op = 4 → at_ (.messageAccept n) fun s p => match p.msg with
      | none => (some (.ok []), s)
      | some m => (some (s.acceptMessage p m).1, (s.acceptMessage p m).2)) ∧
    (f.pkt.op = 5 → at_ (.replyAccept n) fun s p => match p.msg with
      | none => (some (.ok []), s)
      | some m => (some (s.acceptReply p m).1, (s.acceptReply p m).2)) ∧
    (f.pkt.op = 8 → ∃ act, at_ (.collNoticeArrival n) act ∧ ∀ u p,
      let r := u.takeNotice ⟨p.target, kDie p.key, kUnit p.key⟩ (p.aux.getD 0 0).toNat (p.aux.getD 1 0).toNat
      act u p = (some (if r.1 then .ok [] else .error 0x82), r.2))) ∧
  (∀ (s : State) (p : Packet),
    let r := if kKind p.key = 0 then s.packetLines p p.ranges else ([], s)
    let u := r.2.beforePacket p r.1
    (p.op = 1 → ∀ bs t, u.targetRead p.key p.aux = (some (.ok bs), t) → s.atTarget p = (some (.ok bs), t.afterRead p r.1)) ∧
    (p.op = 1 → ∀ a t, u.targetRead p.key p.aux = (a, t) → (∀ bs, a ≠ some (.ok bs)) → s.atTarget p = (a, t)) ∧
    (p.op = 2 → s.atTarget p = (some (u.targetWrite p).1, (u.targetWrite p).2)) ∧
    (p.op = 3 → s.atTarget p = (some (u.targetAtomic p).1, (u.targetAtomic p).2)) ∧
    (p.op = 9 → s.atTarget p = (some (.ok []), s))) ∧
  (∀ (s : State) (n : Nat) (f : Flight), s.flights[n]? = some f → f.place = .back → f.pkt.isAnswer = true → s.stale f.pkt.srcMod f.pkt = true →
    ∀ i ∈ [Instr.remoteResponse n, .sendAck n, .messageReturn n], s.gives i (s.dropFlight n)) ∧
  (∀ (s : State) (n : Nat) (f : Flight) (q : Request), s.flights[n]? = some f → f.place = .back → f.pkt.isAnswer = true →
    s.stale f.pkt.srcMod f.pkt = false → s.answered f.pkt = some q →
    let done := (s.dropFlight n).complete q f.pkt.says
    (q.isMessage = false → s.gives (.remoteResponse n) done ∧ s.gives (.sendAck n) s ∧ s.gives (.messageReturn n) s) ∧
    (q.isMessage = true → f.pkt.op = 6 → s.gives (.sendAck n) done ∧ s.gives (.messageReturn n) s) ∧
    (q.isMessage = true → f.pkt.op = 7 → s.gives (.messageReturn n) done ∧ s.gives (.sendAck n) s)) ∧
  (∀ (s : State) (q : Request), (s.dropRequest q.req).reqs = s.reqs.filter (fun r => r.req != q.req) ∧
    (∀ tag c, q.use = .store tag → s.complete q (.error c) =
      ({ s.dropRequest q.req with reports := s.reports ++ [⟨tag, c⟩] } : State).pump) ∧
    (∀ tag bs, q.use = .store tag → s.complete q (.ok bs) = (s.dropRequest q.req).pump) ∧
    (∀ m e bs, q.use = .message m e → s.complete q (.ok bs) = ((s.dropRequest q.req).dropSend m.src m.vn e).pump) ∧
    (∀ m e c, q.use = .message m e → s.complete q (.error c) = ((s.dropRequest q.req).returnMessage m (.returned e c m.vn) c).pump)) ∧
  (∀ (s : State) (n : Nat) (r : Report), s.reports[n]? = some r →
    let mates := (s.reports.filter r.mate).foldl (fun l q => joinReport q l) []
    (s.entryRuns r = true ∨ s.entryDirty r = true → s.gives (.storeHomeFailure n) s) ∧
    (s.entryRuns r = false → s.entryDirty r = false → r.tag.sid ≠ 0 → s.gives (.storeHomeFailure n) (({ s with reports := s.reports.eraseIdx n } : State).unitRefused r)) ∧
    (s.entryRuns r = false → s.entryDirty r = false → r.tag.sid = 0 → s.gives (.storeHomeFailure n)
      (mates.foldl State.deliver ({ s with reports := s.reports.filter fun q => !r.mate q } : State))) ∧
    (r.tag.entry = false → (∀ q ∈ s.reports.eraseIdx n, q ≠ r) → mates = [r]) ∧
    (∀ t, s.sats.find? (fun t => t.sid == r.tag.sid && !t.terminal) = some t →
      s.unitRefused r = s.faultSat r.tag.sid r.cause r.tag.data.toNat (if t.kind = 1 ∨ t.kind = 4 then 1 else 0)) ∧
    (r.tag.uid = s.me.uid → r.tag.uid ≠ 0 → s.me.life ≠ .exited → s.deliver r = s.upd fun a =>
      { a with failures := addFailure { r.failure with armed := !s.me.waitsToTrap } a.failures })) ∧
  (∀ (s : State) (n : Nat) (q : Request), s.reqs.find? (fun q => q.req == n) = some q →
    let now := s.meridian q.loc.mod
    (q.queued = false → q.resent < 3 → q.first + resendAt q.resent ≤ now → ∀ port,
      s.choosePort q.loc.mod q.pkt.key q.pkt.line (q.resent + 1) = some port →
      let u := s.injected q.loc.mod port q.rid q.pkt.size
      (s.mayInject q.loc.mod port q.rid q.pkt.size = true → s.gives (.retransmit n) { u with
        reqs := mapIf (fun r => r.req == n) (fun r => { r with resent := r.resent + 1 }) u.reqs, flights := u.flights ++ [⟨q.pkt, .egress, port⟩] }) ∧
      (s.mayInject q.loc.mod port q.rid q.pkt.size = false → s.gives (.retransmit n) s)) ∧
    (q.queued = true ∨ 3 ≤ q.resent ∨ now < q.first + resendAt q.resent → s.gives (.retransmit n) s) ∧
    (q.queued = false → q.first + 100000 ≤ now → s.gives (.endToEndFailure n) (s.complete q (.error 0x23))) ∧
    (now < q.first + 100000 → s.gives (.endToEndFailure n) s) ∧
    (q.queued = true → s.gives (.injectionRelease n) s.pump)) ∧
  (∀ r q : Report, r.tag.entry = true → q.tag.entry = true → r.tag.uid = q.tag.uid → r.tag.order = q.tag.order →
    joinReport r [q] = [if r.tag.elem < q.tag.elem then r else q]) ∧
  resendAt 0 = 8000 ∧ resendAt 1 = 24000 ∧ resendAt 2 = 56000 ∧
  (∀ (s : State) (m d t : Nat),
    let mine := fun (b : Bucket) => b.mod == m && b.die == d && b.target == t
    ((∀ b ∈ s.buckets, mine b = true → b.last + 1000000 ≤ s.now) →
      s.gives (.streamStateRelease m d t) { s with buckets := s.buckets.filter fun b => !mine b }) ∧
    ((∃ b ∈ s.buckets, mine b = true ∧ s.now < b.last + 1000000) → s.gives (.streamStateRelease m d t) s))

/-- spec/18 R428 to R431 and R437 to R440. The model's choices: how packets fill flits (log entry 21); that a clock slews, and drifts, by 1 ns at a time, and when
`SLEWING` clears (log entry 48); and that a request not answered at a takeover is refused by a failure of the thread that asked (log entry 24). -/
def Obligations.LinksTimeAndSecrets : Prop :=
  (∀ (s : State) (ep n f : Nat), (s.port ep n).works = true → s.gives (.flitReceive ep n f)
    ((s.updPort ep n fun q => q.receive (s.timeAt ep) f).updPort (farEnd ep n).1 (farEnd ep n).2 fun q => q.returned f).pump) ∧
  (∀ (q : Port) (now f : Nat),
    let bs := natBytes 256 f
    let ok := bytesNat (bs.drop 248) = flitCrc q.recvSeq bs ∧ bits f 32 8 < 3
    (¬ ok → q.receive now f = { q with nak := true }) ∧
    (ok → (q.receive now f).nak = false ∧ (q.receive now f).recvSeq = (if bits f 32 8 = 1 then (q.recvSeq + 1) % 1024 else q.recvSeq) ∧
      (q.receive now f).replay.length ≤ q.replay.length)) ∧
  (∀ (q : Port) (now : Nat) (g : Nat × List Byte) (l : List (Nat × List Byte)), q.replay = g :: l →
    (q.resends < 16 → q.acknowledge now g.1 true = { q with resends := q.resends + 1 }) ∧
    (16 ≤ q.resends → q.acknowledge now g.1 true = { q with training := true, resends := 0 }) ∧ q.acknowledge now g.1 false = q) ∧
  (∀ (s : State) (ep n lanes : Nat),
    let q := s.port ep n
    let now := s.timeAt ep
    (q.works = true → q.replay ≠ [] → q.acked + 4000 ≤ now → s.gives (.ackTimeout ep n) (s.updPort ep n fun q => { q with training := true, resends := 0 })) ∧
    (now < q.acked + 4000 → s.gives (.ackTimeout ep n) s) ∧
    (q.training = true → q.dead = false → s.gives (.linkRetrain ep n lanes) (s.updPort ep n fun q => q.trained now lanes).pump) ∧
    (q.dead = true → s.gives (.portReset ep n) (s.updPort ep n fun q => { q with dead := false, fails := [], training := true })) ∧
    (q.dead = false → s.gives (.portReset ep n) s)) ∧
  (∀ (q : Port) (now lanes : Nat),
    (lanes % 4 ≠ 0 → (q.trained now lanes).works = (!q.dead) ∧ (q.trained now lanes).lanes = lanes % 4) ∧
    (lanes % 4 = 0 → (q.trained now lanes).up = false ∧
      (q.trained now lanes).dead = decide (2 ≤ (q.fails.filter fun t => decide (now < t + 1000000000)).length))) ∧
  (∀ (s : State) (m s1 a1 s2 a2 : Nat) (a : ModuleState), s.module? m = some a →
    (a.refr = false → a.up = true → a.beacon + 10000 ≤ s.now → ∀ r, s.modules.find? (fun r => r.up && r.refr) = some r →
      let way := s.linked a.mod (a.mod % 144) && s.linked r.mod (a.mod % 144)
      let e := a.offset - r.offset
      let left := if 0 < e then e - 1 else if e < 0 then e + 1 else e
      (way = true → beaconError s1 a1 s2 a2 = e → s.gives (.beaconExchange m s1 a1 s2 a2) (s.updModule m fun a =>
        { a.slewed s.now (left - e) with beacon := s.now, freeRun := false,
                                                  slewing := (a.freeRun || a.slewing) && !(decide ((a.slewed s.now (left - e)).count s.now ≤ r.count s.now + 4) &&
                                                    decide (r.count s.now ≤ (a.slewed s.now (left - e)).count s.now + 4)) })) ∧
      (way = false ∨ beaconError s1 a1 s2 a2 ≠ e → s.gives (.beaconExchange m s1 a1 s2 a2) s)) ∧
    (a.refr = true ∨ a.up = false ∨ s.now < a.beacon + 10000 → s.gives (.beaconExchange m s1 a1 s2 a2) s) ∧
    (∀ (now later : Nat) (d : Int), now ≤ later → a.count now ≤ (a.slewed now d).count later ∧ (a.slewed now d).offset = a.offset + d) ∧
    (a.refr = false → a.up = true → a.beacon + 1000000 ≤ s.now →
      s.gives (.meridianFreeRun m) (s.updModule m fun a => { a with freeRun := true, slewing := false })) ∧
    (s.now < a.beacon + 1000000 → s.gives (.meridianFreeRun m) s) ∧
    (∀ b, a.refr = true → s.nextReference m = some b → ∃ t, s.gives (.referenceFailover m) t ∧ t.mem = s.mem ∧ t.me = s.me ∧
      (∀ x ∈ t.modules, x.refr = decide (x.mod = b)) ∧ t.modules.map ModuleState.mod = s.modules.map ModuleState.mod ∧
      t.modules.map ModuleState.offset = s.modules.map ModuleState.offset) ∧
    (a.refr = false → s.gives (.referenceFailover m) s) ∧
    (a.keywright ≠ 9 → s.gives (.keywrightTakeover m) (((s.updModule m fun a => { a with keywright := 9 }).refuseRotation m).refuseAdvances m)) ∧
    (a.keywright = 9 → s.gives (.keywrightTakeover m) s)) ∧
  (∀ (s : State) (m : Nat) (ahead : Bool), ∃ u, s.move (.drift m ahead) = .next u ∧ u.mem = s.mem ∧ u.me = s.me ∧ u.now = s.now ∧
    (u = s ∨ (u = s.updModule m (fun a => a.slewed s.now (if ahead then 1 else -1)) ∧
      ∀ a ∈ u.modules, a.up = true → a.freeRun = false → a.slewing = false → ∀ r, u.modules.find? (fun r => r.up && r.refr) = some r →
        a.count u.now ≤ r.count u.now + 4 ∧ r.count u.now ≤ a.count u.now + 4))) ∧
  (∀ (s : State) (q : Advance) (m : Nat),
    s.refuseRequest q = s.updAgent q.uid (fun a =>
      { a with failures := addFailure ⟨q.order, ⟨0x23, 0, q.pc, BitVec.ofNat 64 q.addr, false, 0⟩, true⟩ a.failures }) ∧
    (s.secret.word3 = some q → q.mod = m →
      s.refuseRotation m = { s with secret := { s.secret with next := none, word3 := none } }.refuseRequest q) ∧
    (s.secret.word3 = none → s.refuseRotation m = s) ∧ ((∀ q ∈ s.advances, q.mod ≠ m) → s.refuseAdvances m = s) ∧
    (s.advances = [q] → q.mod = m → s.refuseAdvances m = { s with advances := [] }.refuseRequest q)) ∧
  (∀ (s : State) (k : BitVec 128) (q : Advance), s.secret.next = some k → s.secret.word3 = some q →
    s.gives .rotationAcknowledged (({ s with
      secret := ⟨k, some s.secret.cur, s.now + s.gracePeriod q.mod q.rid, none, none⟩
      endpoints := s.endpoints.map Endpoint.ripe } : State).answerRequest q.mod q.rid q.addr (2 ^ 63))) ∧
  (∀ (s : State), s.secret.next = none → s.gives .rotationAcknowledged s) ∧
  (∀ (s : State),
    (s.secret.old.isSome = true → s.secret.graceEnd ≤ s.now → s.gives .tagGraceExpiry { s with
      secret := { s.secret with old := none },
      endpoints := mapIf (fun e => e.retired && !e.young) (fun e => { e with retired := false, gen := 0 }) s.endpoints }) ∧
    (s.secret.old = none ∨ s.now < s.secret.graceEnd → s.gives .tagGraceExpiry s)) ∧
  (∀ (e : Endpoint), e.ripe.young = false ∧ e.ripe.retired = e.retired ∧ e.ripe.gen = e.gen) ∧
  (∀ (s : State) (k : Key), s.tagOk k = true ↔ k ≠ 0 ∧ (tagOf s.secret.cur k = kTag k ∨ ∃ o, s.secret.old = some o ∧ tagOf o k = kTag k))

/-- spec/16 R407 to R411 and spec/15 R385, R388. `settleQueues` gives a die's free slots to its waiting queues. -/
def Obligations.SchedulersAndBudgets : Prop :=
  (∀ (s : State) (m d r : Nat) (q : RQueue),
    let t := s.settleQueues m d
    t.rqueue? m d r = some q →
    (∀ f, q.slotAt = some f → q.pinned = true ∨ t.meridian m < f + 100000 → s.gives (.slotBoundary m d r) t) ∧
    (∀ f, q.slotAt = some f → q.pinned = false → f + 100000 ≤ t.meridian m → t.nextMapped m d = none →
      s.gives (.slotBoundary m d r) (t.updQueue m d r fun q => { q with slotAt := some (f + 100000) })) ∧
    (∀ f w, q.slotAt = some f → q.pinned = false → f + 100000 ≤ t.meridian m → t.nextMapped m d = some w → s.gives (.slotBoundary m d r)
      (((((t.updQueue m d r fun q => q.wait (t.basePrio q) (t.meridian m)).updQueue m d w.rid fun q =>
        q.map ((t.updQueue m d r fun q => q.wait (t.basePrio q) (t.meridian m)).basePrio q) (t.meridian m)).preemptWhere fun a =>
          a.loc.mod == m && a.loc.die == d && a.rid == r)).settleQueues m d)) ∧
    s.gives (.queueAging m d r) (t.updQueue m d r fun q => q.agedTo (t.meridian m))) ∧
  (∀ (q : RQueue) (now f : Nat), q.waitFrom = some f →
    let k := (now - f) / 250000
    (q.agedTo now).aged = max q.aged k ∧ (q.agedTo now).prio = (if k ≤ q.aged then q.prio else min 7 (q.prio + (k - q.aged)))) ∧
  (∀ (s : State) (q : RQueue), q.waitFrom.isSome = true → q.slotAt = none → q.pinned = true ∨ s.hasWork q = true →
    s.tidied q = q.agedTo (s.meridian q.mod)) ∧
  (∀ (s : State) (n c x g q : Nat) (a : Agent) (r : Region) (k : RQueue), s.agent? n = some a → s.region? a.loc.mod a.rid = some r →
    let l : Loc := ⟨a.loc.mod, c / 128, c % 128⟩
    let t := s.settleQueues l.mod l.die
    t.region? a.loc.mod a.rid = some r → t.rqueue? a.loc.mod a.loc.die a.rid = some k → a.life = .queued → a.hold = false → l.die = a.loc.die →
    k.slotAt.isSome = true → t.hasWork k = true → t.isNext r k a l = true → t.gangWaits k l = false → t.takesFirst k l (t.openQueues l.mod l.die) = false →
    (a.saved = false ∨ a.columns.length ≤ 1 →
      (t.seatOk r a l ⟨x, g, q⟩ = true → s.gives (.threadPlace n c x g q) (t.seatThread r a l ⟨x, g, q⟩)) ∧
      (t.seatOk r a l ⟨x, g, q⟩ = false → s.gives (.threadPlace n c x g q) t)) ∧
    (a.saved = true → 1 < a.columns.length → s.gives (.threadPlace n c x g q) (t.placeGang r a l))) ∧
  (∀ (a : Agent) (l : Loc) (t : Seat) (now : Nat), let b := a.seated l t now
    b.loc = l ∧ b.ctx = t.ctx ∧ b.placed = true ∧ b.x = a.x ∧ b.k = a.k ∧ b.v = a.v ∧ b.p = a.p ∧ b.pc = a.pc ∧ b.vl = a.vl ∧ b.level = a.level ∧
      (a.marked = false → b.life = .ready) ∧ (1 < a.columns.length → b.mgang = a.mgang) ∧
      (a.columns.length ≤ 1 → b.mgang = BitVec.ofNat 16 (2 ^ l.column))) ∧
  (∀ (s : State) (n : Nat) (a : Agent), s.agent? n = some a →
    let t := s.settleQueues a.loc.mod a.loc.die
    let waits := ∃ q, t.rqueue? a.loc.mod a.loc.die a.rid = some q ∧ t.queueThreads q ≠ []
    (a.isHandler = false → a.placed = true → a.life ≠ .exited →
      (waits ∧ a.started + 100000 ≤ t.meridian a.loc.mod) ∨ t.inGangsWay a = true → s.gives (.threadQuantum n) (t.preemptThread a)) ∧
    (a.isHandler = true ∨ a.placed = false ∨ ((¬ waits ∨ t.meridian a.loc.mod < a.started + 100000) ∧ t.inGangsWay a = false) →
      s.gives (.threadQuantum n) t) ∧
    (let limit := ((s.region? a.loc.mod a.rid).map Region.drainLimit).getD 1000000
     (a.saved = true → a.life = .queued → a.complete = false → a.saveTime + limit ≤ s.meridian a.loc.mod → s.gives (.drainLimitExpiry n)
       (((s.ownSats n).filter fun t => !t.terminal).foldl (fun s t => s.cancelSat t.sid) s)) ∧
     (s.meridian a.loc.mod < a.saveTime + limit → s.gives (.drainLimitExpiry n) s)) ∧
    (∀ r t u, s.region? a.loc.mod a.rid = some r → a.saved = true → a.life = .queued → a.complete = false → (s.ownSats n).all Sat.terminal = true →
      s.savePieces r a.loc (imageBase r a.tid) ((0xB000, (s.slotRecords a).flatMap wordsBytes) ::
        (match s.sliceOf n with | some l => matrixPieces l | none => [])) = (.ok (), t) →
      (t.release a.loc 3).savePieces r a.loc (imageBase r a.tid) [(0, wordsBytes [headerWord0 true a.tid])] = (.ok (), u) →
      s.gives (.contextSaveStage2 n) (((u.release a.loc 3).dropSlice n).updAgent n fun a => { a with complete := true })) ∧
    ((s.ownSats n).all Sat.terminal = false → s.gives (.contextSaveStage2 n) s)) ∧
  (∀ (s : State) (m r n : Nat) (g : Region), s.region? m r = some g → g.state = .bound →
    (g.tperiod ≠ 0 → g.tbudget ≤ g.periodUsed → g.exhausted = false → s.gives (.timeBudgetSpent m r)
      (((s.updRegion m r fun g => { g with exhausted := true }).preemptWhere fun a => a.loc.mod == m && a.rid == r).settleAll m)) ∧
    (g.tperiod = 0 ∨ g.periodUsed < g.tbudget → s.gives (.timeBudgetSpent m r) s) ∧
    (g.tperiod ≠ 0 → g.periodStart + g.tperiod ≤ s.meridian m → 
      let k := (s.meridian m - g.periodStart) / g.tperiod
      s.gives (.timePeriodBegin m r)
        ((s.updRegion m r fun r => { r with periodStart := r.periodStart + k * r.tperiod, periodUsed := 0, exhausted := false }).settleAll m)) ∧
    (g.tperiod = 0 ∨ s.meridian m < g.periodStart + g.tperiod → s.gives (.timePeriodBegin m r) s) ∧
    (g.hardns ≠ 0 → g.hardns ≤ g.used → s.gives (.lifetimeBudget m r n) (s.endRegion ⟨m, 0, 0⟩ r (.budget g.spentBy))) ∧
    (g.hardns = 0 ∨ g.used < g.hardns → s.gives (.lifetimeBudget m r n) s) ∧
    (∀ d c d2 c2,
      let l : Loc := ⟨m, d, c⟩
      let k : Loc := ⟨m, d2, c2⟩
      let u := ({ s with allocs := s.allocs.filter fun a => !(a.loc == l && a.rid == r) } : State).passScratch l
      (∃ a ∈ s.allocs, a.loc = l ∧ a.rid = r) → (∀ t ∈ s.sats, t.rid = r → t.loc = l ∨ t.reaches l = true → t.terminal = true) →
      (∀ a ∈ s.agents, a.loc = l → a.rid = r → a.placed = true → a.life = .exited) → g.allows d2 = true → d2 < 8 → c2 < 128 →
      (∀ a ∈ s.allocs, a.loc = k → a.rid ≠ r) → s.laneUsed k + s.laneBytes l r ≤ 16384 → ∀ v w bs,
      u.saveBytes g l g.spsave (u.scratchBytes l r (s.laneBytes l r / 128)) = (.ok (), v) →
      (v.release l 3).loadBytes g k g.spsave (64 * s.laneBytes l r + s.laneBytes l r / 2 * 8) = (.ok bs, w) →
      ∃ t, s.gives (.scratchpadMove m r d c d2 c2) t ∧ t.mem = w.mem ∧ t.allocs = w.allocs ++ [⟨k, r, s.laneBytes l r⟩] ∧
        ∀ q ∈ t.slines, q.loc = l → q.rid ≠ r)) ∧
  (∀ (s : State) (m v n : Nat),
    let q := s.hostq m v n
    (q.owed = true → q.entries.length < q.size → s.gives (.hostQueueWrite m v n)
      (s.setHostq { q with entries := q.entries ++ [hostEntry 4 0 (s.meridian m) 0 (natBytes 8 q.lost)], tail := (q.tail + 1) % 2 ^ 64, owed := false })) ∧
    (q.owed = true → q.size ≤ q.entries.length → s.gives (.hostQueueWrite m v n) s) ∧
    (q.owed = false → s.gives (.hostQueueWrite m v n) s))

/-- spec/19 and spec/20. The model's choices: which cores and contexts a die's event has records for (log entry 22), under which number the energy of a die's L2, RDC
and router is kept (log entry 46), that a scrub raises the count of corrected errors by one (log entry 47), and that a reset's operand outside 1 to 6 means that
no step fails (log entry 10). -/
def Obligations.PlatformTraceAndReset : Prop :=
  (∀ (s : State) (m d r : Nat), s.gives (.traceSample m d r) ((s.agents.filter fun a =>
      a.loc.mod == m && a.loc.die == d && a.rid == r && a.placed && !a.isHandler && a.life != .exited).foldl State.sample s) ∧
    ((∃ q ∈ s.tqueue, q.mod = m ∧ q.die = d) → s.gives (.traceFlush m d) (s.traceFlush m d fun _ => true)) ∧
    ((∀ q ∈ s.tqueue, ¬ (q.mod = m ∧ q.die = d)) → s.gives (.traceFlush m d) s)) ∧
  (∀ (s : State) (m d temp watts : Nat),
    ((s.die m d).power = [] → s.gives (.powerEvent m d temp watts) s) ∧
    (∀ e r, (s.die m d).power = e :: r →
      let t := (s.tbufs.filter fun b => b.mod == m && b.die == d).foldl (fun s b => s.powerRecord e temp watts b)
        (s.updDie m d fun x => { x with power := r })
      (e.ev = 1 ∨ e.ev = 3 → s.gives (.powerEvent m d temp watts) (t.updDie m d fun x => { x with captureEnd := some (e.at_ + 50000) })) ∧
      (e.ev ≠ 1 → e.ev ≠ 3 → s.gives (.powerEvent m d temp watts) t)) ∧
    (∀ (e : PowerEv) (b : TraceBuf), (e.ev ≠ 1 ∧ e.ev ≠ 3) ∨ b.ctl.testBit 1 = false ∨ b.ctl.testBit 2 = true → s.powerRecord e temp watts b =
      (e.places b.rid).foldl (fun s q => s.trace ⟨b.mod, b.die, q.core⟩ q.ctx b.rid 7 e.at_
        (BitVec.ofNat 64 (temp % 2 ^ 16 * 2 ^ 48 + watts % 2 ^ 16 * 2 ^ 32 + q.new % 16 * 2 ^ 12 + q.old % 16 * 2 ^ 8 + e.ev))
        (BitVec.ofNat 64 e.at_) (BitVec.ofNat 64 (s.dieEnergy b.mod b.die b.rid))) s) ∧
    (∀ (e : PowerEv) (rid : Nat), ((∀ q ∈ e.held, q.rid ≠ rid) → e.places rid = [⟨rid, e.core, 0, e.old, e.new⟩]) ∧
      ((∃ q ∈ e.held, q.rid = rid) → e.places rid = e.held.filter fun q => q.rid == rid)) ∧
    (∀ f, (s.die m d).captureEnd = some f → s.gives (.captureEnd m d) (if f ≤ s.meridian m then s.updDie m d fun x => { x with captureEnd := none } else s)) ∧
    ((s.die m d).captureEnd = none → s.gives (.captureEnd m d) s)) ∧
  (∀ (s : State) (m d c r nj : Nat),
    let charged := fun (t : State) (core rid : Nat) => (t.core ⟨m, d, core⟩).energy.find? (fun e => e.1 == rid) =
      some (rid, (((((s.core ⟨m, d, core⟩).energy.find? fun e => e.1 == rid).map Prod.snd).getD 0) + nj) % 2 ^ 64)
    (c < 128 → ∃ t, s.gives (.energyMeter m d c r nj) t ∧ t.mem = s.mem ∧ t.me = s.me ∧
      charged t c (if s.holdsUnit ⟨m, d, c⟩ r then r else 0xFFFF)) ∧
    (128 ≤ c → ∃ t, s.gives (.energyMeter m d c r nj) t ∧ t.mem = s.mem ∧ t.me = s.me ∧ (∀ a ∈ t.accs, ¬ (a.mod = m ∧ a.die = d)) ∧
      ∀ a, (s.accs.filter fun a => a.mod == m && a.die == d && (s.region? m a.rid).any fun g => g.state == .bound) = [a] → 0 < a.n →
        charged t 128 a.rid)) ∧
  (∀ (s : State) (m d : Nat),
    let x := s.die m d
    (x.limCeil < 7 → s.gives (.powerLimitStep m d 0) (s.dieChange m d (if x.limited then 5 else 1) fun x => { x with limited := true, limCeil := x.limCeil + 1 })) ∧
    (7 ≤ x.limCeil → s.gives (.powerLimitStep m d 0) s) ∧
    (x.limCeil = 0 → s.gives (.powerLimitStep m d 1) s) ∧
    (0 < x.limCeil → s.gives (.powerLimitStep m d 1)
      (s.dieChange m d (if x.limCeil = 1 then 2 else 5) fun x => { x with limited := decide (1 < x.limCeil), limCeil := x.limCeil - 1 })) ∧
    (x.throttle = false → s.gives (.thermalThrottle m d 1) (s.dieChange m d 3 fun x => { x with throttle := true })) ∧
    (x.throttle = true → s.gives (.thermalThrottle m d 0) (s.dieChange m d 4 fun x => { x with throttle := false })) ∧
    (∃ t, s.gives (.thermalTrip m d) t ∧
      (s.regionsOn m d = [] → t = s.updDie m d fun x => { x with tripped := true })) ∧
    (∀ u : State, (u.die u.me.loc.mod u.me.loc.die).tripped = true → u.myTurn = .fault .clocksStopped)) ∧
  (∀ (s : State) (m d c unit pa who : Nat), s.gives (.scrub m) (s.updModule m fun a => { a with corrected := a.corrected + 1 }) ∧ (7 ≤ unit → s.gives (.uncorrectableError m d c unit pa who) s) ∧
    (unit < 7 → unit ≠ 5 → ∃ t, s.gives (.uncorrectableError m d c unit pa who) t ∧ t.mem = s.mem ∧ t.me = s.me ∧ t.others = s.others ∧
      (t.core ⟨m, d, c⟩).mchk = mchkWord unit pa ∧ (unit ≠ 3 → unit ≠ 4 → s.counted? m (pa / 128) = none ∨ unit = 2 → t.poisoned m (pa / 128) = true)) ∧
    (unit = 5 → ∃ t, s.gives (.uncorrectableError m d c unit pa who) t ∧ (t.core ⟨m, d, c⟩).mchk = mchkWord 5 0)) ∧
  (∀ (s : State) (m nonce : Nat), ∃ report : ModuleState → List Byte,
    s.gives (.attestationRequest m nonce) (s.updModule m fun a => { a with attests := a.attests ++ [report a] }) ∧ ∀ a, (report a).length = 1024) ∧
  (∀ (s : State) (m : Nat), s.gives (.hostInterfaceTakeover m) (s.updModule m fun a => { a with hostif := 9 })) ∧
  (∀ (s : State) (m stop fail : Nat),
    let t := (s.failover m).wiped m
    (1 ≤ stop → stop ≤ 4 → s.gives (.reset m stop fail) (t.updModule m fun a => a.stopped stop fail)) ∧
    (5 ≤ stop → stop ≤ 6 → s.gives (.reset m stop fail) ((t.joined m).updModule m fun a => { a with boot := stop, bootFail := max 1 fail })) ∧
    (stop = 0 ∨ 6 < stop → s.gives (.reset m stop fail) (t.broughtUp m)) ∧
    (∀ pa, Memory.get t.mem (cellOf m pa) = 0) ∧ (∀ e pa, e ≠ m → Memory.wf s.mem = true → Memory.get t.mem (cellOf e pa) = Memory.get s.mem (cellOf e pa)) ∧
    (∀ r ∈ t.regions, r.mod ≠ m) ∧ (∀ p ∈ t.ports, p.ep ≠ m ∧ (512 ≤ p.ep → p.n ≠ m)) ∧ (∀ q ∈ t.sats, q.loc.mod ≠ m) ∧ (∀ a ∈ t.others, a.loc.mod ≠ m) ∧ (s.me.loc.mod = m → t.me.life = .exited))

/-- The invariant behind every claim about bytes: with it equal memories are equal data. It holds at State.reset by ResetAndTheCreationOfAThread. -/
def Obligations.EveryStepKeepsMemoryCanonical : Prop :=
  ∀ s t : State, Memory.wf s.mem = true → step s = .next t → Memory.wf t.mem = true
end

