-- ==== Sys2Proof/Laws/Encoding.lean ====
section
/-! SUPPORT. Sys2Proof/Laws/Encoding.lean: the fields of a chain made from operands are those operands, class by class, and a chain that its opcode's
entry accepts decodes to what the entry builds. -/

namespace Sys2Proof

/-! ### Fields -/

/-- The EXT payload keeps both fields. -/
@[simp] theorem extOf_byte (e : Ext) : extOf e.byte = e := by
  obtain ⟨s, c⟩ := e
  simp only [extOf, Ext.byte]
  congr 1 <;> (revert s c; decide +kernel)

/-- The MASK payload keeps every field. -/
@[simp] theorem maskOf_byte (m : Mask) : maskOf m.byte = m := by
  obtain ⟨a, b, c, p⟩ := m
  revert a b c p
  decide +kernel

/-- An absent EXT stays absent. -/
@[simp] theorem extOf_comp : extOf ∘ Ext.byte = id := funext extOf_byte

/-- An absent MASK stays absent. -/
@[simp] theorem maskOf_comp : maskOf ∘ Mask.byte = id := funext maskOf_byte

/-- A `k` register or predicate survives the five-bit field. -/
@[simp] theorem narrow4_setWidth (r : Reg4) : narrow4 (r.setWidth 5) = some r := by
  revert r
  decide

/-- The source format of a conversion is the upper half of the EXT payload. -/
@[simp] theorem codes_high (a b : BitVec 4) : (a ++ b : BitVec 8).extractLsb' 4 4 = a := by
  revert a b
  decide +kernel

/-- The destination format of a conversion is the lower half of the EXT payload. -/
@[simp] theorem codes_low (a b : BitVec 4) : (a ++ b : BitVec 8).extractLsb' 0 4 = b := by
  revert a b
  decide +kernel

/-- The two fields of the EXT payload of `plog`. -/
@[simp] theorem extOf_codes (f : BitVec 3) (c : BitVec 5) : extOf (f ++ c : BitVec 8) = ⟨f, c⟩ := extOf_byte ⟨f, c⟩

/-- A three-bit field survives the five-bit field. -/
theorem three_back (p : BitVec 3) : (p.setWidth 5).setWidth 3 = p := by
  revert p
  decide

/-- A three-bit field holds 0 to 7. -/
theorem three_lt (p : BitVec 3) : p.toNat % 32 < 8 := by
  revert p
  decide

/-- A two-bit field survives the five-bit field. -/
theorem two_back (p : BitVec 2) : (p.setWidth 5).setWidth 2 = p := by
  revert p
  decide

/-- A two-bit field holds 0 to 3. -/
theorem two_lt (p : BitVec 2) : p.toNat % 32 < 4 := by
  revert p
  decide

/-- A register or an immediate with IMM words is read back. -/
theorem regImm_back {t : RegImm} {n : Nat} (h : t.ok n = true) : (if t.ws = [] then RegImm.reg t.b else .imm ⟨t.ws, t.b⟩) = t := by
  cases t with
  | reg r => rfl
  | imm i =>
    obtain ⟨ws, b⟩ := i
    cases ws with
    | nil => simp [RegImm.ok] at h
    | cons a l => rfl

/-- The number of IMM words is within the class's. -/
theorem regImm_len {t : RegImm} {n : Nat} (h : t.ok n = true) : t.ws.length ≤ n := by
  cases t <;> simp_all [RegImm.ok, RegImm.ws]

/-- The IMM words of an operand are its words. -/
theorem regImm_words {t : RegImm} (h : (t.words == 0) = true) : t.ws.length ≤ 0 := by
  cases t <;> simp_all [RegImm.words, RegImm.ws]

/-! ### Opcodes of several rows -/

/-- `mtcr` of a register without a row of its own. -/
theorem mtcrRow_plain {h : Hdr} {o : CRN} (e : (!crOwnRow o.i.nat) = true) : mtcrRow h o = .mtcr h o := by
  unfold mtcrRow
  split <;> simp_all [crOwnRow]

/-! ### Chains -/

/-- The header of a chain. -/
@[simp] theorem chainOf_hdr (page : Byte) (op : BitVec 5) (h : Hdr) (a b : BitVec 5) (ws : List Byte) (e m : Option Byte) :
    (chainOf page op h a b ws e m).hdr = h := rfl

/-- What a class accepts, as conditions on the chain. -/
theorem accepts_of {lo hi : Nat} {e : ExtRule} {m : Bool} {c : Chain} (h1 : lo ≤ c.ws.length) (h2 : c.ws.length ≤ hi) (h3 : e = .no → c.ext = none)
    (h4 : e = .req → c.ext.isSome = true) (h5 : m = false → c.mask = none) : (⟨lo, hi, e, m⟩ : Accepts).refuses c = none := by
  cases e <;> cases m <;> simp_all [Accepts.refuses, Option.isSome_iff_ne_none] <;>
    rw [if_neg (Nat.not_lt.mpr h2), if_neg (Nat.not_lt.mpr h1)]

/-- A chain whose opcode has an entry that accepts it and builds a well-formed instruction decodes to that instruction (spec/03 R75). -/
theorem row_decodes {c : Chain} {acc : Accepts} {f : Chain → Option Instr} {i : Instr} (he : chainEntry c = .ok (acc, f))
    (hr : acc.refuses c = none) (hf : f c = some i) (hw : i.wf = true) : chainDecode c = .ok i := by
  simp [chainDecode, he, entryDecode, hr, hf, hw]

/-! ### Classes -/

/-- Class RRI. -/
theorem RRI.back (p : Byte) (q : BitVec 5) (h : Hdr) (o : RRI) {n : Nat} (k : o.t.ok n = true) : (o.chain p q h).asRRI = o := by
  simp [RRI.chain, chainOf, Chain.asRRI, Chain.regImm, Chain.imm, Chain.extOpt, regImm_back k]

/-- The header of class RRI. -/
@[simp] theorem RRI.hdr (p : Byte) (q : BitVec 5) (h : Hdr) (o : RRI) : (o.chain p q h).hdr = h := rfl

/-- Class RU. -/
theorem RU.back (p : Byte) (q : BitVec 5) (h : Hdr) (o : RU) : (o.chain p q h).asRU = o := by
  simp [RU.chain, chainOf, Chain.asRU]

/-- The header of class RU. -/
@[simp] theorem RU.hdr (p : Byte) (q : BitVec 5) (h : Hdr) (o : RU) : (o.chain p q h).hdr = h := rfl

/-- Class LI. -/
theorem LI.back (p : Byte) (q : BitVec 5) (h : Hdr) (o : LI) : (o.chain p q h).asLI = o := by
  simp [LI.chain, chainOf, Chain.asLI, Chain.imm]

/-- The header of class LI. -/
@[simp] theorem LI.hdr (p : Byte) (q : BitVec 5) (h : Hdr) (o : LI) : (o.chain p q h).hdr = h := rfl

/-- Class BR. -/
theorem BR.back (p : Byte) (q : BitVec 5) (h : Hdr) (o : BR) : (o.chain p q h).asBR = o := by
  simp [BR.chain, chainOf, Chain.asBR]

/-- The header of class BR. -/
@[simp] theorem BR.hdr (p : Byte) (q : BitVec 5) (h : Hdr) (o : BR) : (o.chain p q h).hdr = h := rfl

/-- Class ADR. -/
theorem ADR.back (p : Byte) (q : BitVec 5) (h : Hdr) (o : ADR) {n : Nat} (k : o.t.ok n = true) : (o.chain p q h).asADR = o := by
  simp [ADR.chain, chainOf, Chain.asADR, Chain.regImm, Chain.imm, Chain.extOpt, Chain.maskOpt, regImm_back k]

/-- The header of class ADR. -/
@[simp] theorem ADR.hdr (p : Byte) (q : BitVec 5) (h : Hdr) (o : ADR) : (o.chain p q h).hdr = h := rfl

/-- Class AMO. -/
theorem AMO.back (p : Byte) (q : BitVec 5) (h : Hdr) (o : AMO) : (o.chain p q h).asAMO = o := by
  simp [AMO.chain, chainOf, Chain.asAMO, Chain.extReq]

/-- The header of class AMO. -/
@[simp] theorem AMO.hdr (p : Byte) (q : BitVec 5) (h : Hdr) (o : AMO) : (o.chain p q h).hdr = h := rfl

/-- Class CRN. -/
theorem CRN.back (p : Byte) (q : BitVec 5) (h : Hdr) (o : CRN) : (o.chain p q h).asCRN = o := by
  simp [CRN.chain, chainOf, Chain.asCRN, Chain.imm]

/-- The header of class CRN. -/
@[simp] theorem CRN.hdr (p : Byte) (q : BitVec 5) (h : Hdr) (o : CRN) : (o.chain p q h).hdr = h := rfl

/-- Class FRR. -/
theorem FRR.back (p : Byte) (q : BitVec 5) (h : Hdr) (o : FRR) : (o.chain p q h).asFRR = o := by
  simp [FRR.chain, chainOf, Chain.asFRR, Chain.extOpt]

/-- The header of class FRR. -/
@[simp] theorem FRR.hdr (p : Byte) (q : BitVec 5) (h : Hdr) (o : FRR) : (o.chain p q h).hdr = h := rfl

/-- Class FRU. -/
theorem FRU.back (p : Byte) (q : BitVec 5) (h : Hdr) (o : FRU) : (o.chain p q h).asFRU = o := by
  simp [FRU.chain, chainOf, Chain.asFRU, Chain.extOpt]

/-- The header of class FRU. -/
@[simp] theorem FRU.hdr (p : Byte) (q : BitVec 5) (h : Hdr) (o : FRU) : (o.chain p q h).hdr = h := rfl

/-- Class CVT. -/
theorem CVT.back (p : Byte) (q : BitVec 5) (h : Hdr) (o : CVT) : (o.chain p q h).asCVT = o := by
  simp [CVT.chain, chainOf, Chain.asCVT, Chain.maskOpt]

/-- The header of class CVT. -/
@[simp] theorem CVT.hdr (p : Byte) (q : BitVec 5) (h : Hdr) (o : CVT) : (o.chain p q h).hdr = h := rfl

/-- Class VRR. -/
theorem VRR.back (p : Byte) (q : BitVec 5) (h : Hdr) (o : VRR) {n : Nat} (k : o.t.ok n = true) : (o.chain p q h).asVRR = o := by
  simp [VRR.chain, chainOf, Chain.asVRR, Chain.regImm, Chain.imm, Chain.extOpt, Chain.maskOpt, regImm_back k]

/-- The header of class VRR. -/
@[simp] theorem VRR.hdr (p : Byte) (q : BitVec 5) (h : Hdr) (o : VRR) : (o.chain p q h).hdr = h := rfl

/-- Class VU. -/
theorem VU.back (p : Byte) (q : BitVec 5) (h : Hdr) (o : VU) : (o.chain p q h).asVU = o := by
  simp [VU.chain, chainOf, Chain.asVU, Chain.extOpt, Chain.maskOpt]

/-- The header of class VU. -/
@[simp] theorem VU.hdr (p : Byte) (q : BitVec 5) (h : Hdr) (o : VU) : (o.chain p q h).hdr = h := rfl

/-- Class VBC. -/
theorem VBC.back (p : Byte) (q : BitVec 5) (h : Hdr) (o : VBC) {n : Nat} (k : o.t.ok n = true) : (o.chain p q h).asVBC = o := by
  simp [VBC.chain, chainOf, Chain.asVBC, Chain.regImm, Chain.imm, Chain.extOpt, Chain.maskOpt, regImm_back k]

/-- The header of class VBC. -/
@[simp] theorem VBC.hdr (p : Byte) (q : BitVec 5) (h : Hdr) (o : VBC) : (o.chain p q h).hdr = h := rfl

/-- Class VST. -/
theorem VST.back (p : Byte) (q : BitVec 5) (h : Hdr) (o : VST) : (o.chain p q h).asVST = o := by
  simp [VST.chain, chainOf, Chain.asVST, Chain.extReq, Chain.maskOpt]

/-- The header of class VST. -/
@[simp] theorem VST.hdr (p : Byte) (q : BitVec 5) (h : Hdr) (o : VST) : (o.chain p q h).hdr = h := rfl

/-- Class VXS. -/
theorem VXS.back (p : Byte) (q : BitVec 5) (h : Hdr) (o : VXS) {n : Nat} (k : o.t.ok n = true) : (o.chain p q h).asVXS = o := by
  simp [VXS.chain, chainOf, Chain.asVXS, Chain.regImm, Chain.imm, Chain.extReq, Chain.maskOpt, regImm_back k]

/-- The header of class VXS. -/
@[simp] theorem VXS.hdr (p : Byte) (q : BitVec 5) (h : Hdr) (o : VXS) : (o.chain p q h).hdr = h := rfl

/-- Class SVL. -/
theorem SVL.back (p : Byte) (q : BitVec 5) (h : Hdr) (o : SVL) {n : Nat} (k : o.t.ok n = true) : (o.chain p q h).asSVL = o := by
  simp [SVL.chain, chainOf, Chain.asSVL, Chain.regImm, Chain.imm, Chain.extOpt, regImm_back k]

/-- The header of class SVL. -/
@[simp] theorem SVL.hdr (p : Byte) (q : BitVec 5) (h : Hdr) (o : SVL) : (o.chain p q h).hdr = h := rfl

/-- Class MIM. -/
theorem MIM.back (p : Byte) (q : BitVec 5) (h : Hdr) (o : MIM) : (o.chain p q h).asMIM = o := by
  simp [MIM.chain, chainOf, Chain.asMIM, Chain.imm]

/-- The header of class MIM. -/
@[simp] theorem MIM.hdr (p : Byte) (q : BitVec 5) (h : Hdr) (o : MIM) : (o.chain p q h).hdr = h := rfl

/-- Class MTL. -/
theorem MTL.back (p : Byte) (q : BitVec 5) (h : Hdr) (o : MTL) : (o.chain p q h).asMTL = o := by
  simp [MTL.chain, chainOf, Chain.asMTL, Chain.imm, Chain.extReq]

/-- The header of class MTL. -/
@[simp] theorem MTL.hdr (p : Byte) (q : BitVec 5) (h : Hdr) (o : MTL) : (o.chain p q h).hdr = h := rfl

/-- Class SCP. -/
theorem SCP.back (p : Byte) (q : BitVec 5) (h : Hdr) (o : SCP) {n : Nat} (k : o.t.ok n = true) : (o.chain p q h).asSCP = o := by
  simp [SCP.chain, chainOf, Chain.asSCP, Chain.regImm, Chain.imm, Chain.extReq, regImm_back k]

/-- The header of class SCP. -/
@[simp] theorem SCP.hdr (p : Byte) (q : BitVec 5) (h : Hdr) (o : SCP) : (o.chain p q h).hdr = h := rfl

/-- Class TLB. -/
theorem TLB.back (p : Byte) (q : BitVec 5) (h : Hdr) (o : TLB) : (o.chain p q h).asTLB = o := by
  simp [TLB.chain, chainOf, Chain.asTLB, Chain.extReq]

/-- The header of class TLB. -/
@[simp] theorem TLB.hdr (p : Byte) (q : BitVec 5) (h : Hdr) (o : TLB) : (o.chain p q h).hdr = h := rfl

/-- Class RB. -/
theorem RB.back (p : Byte) (q : BitVec 5) (h : Hdr) (o : RB) {n : Nat} (k : o.t.ok n = true) : (o.chain p q h).asRB = o := by
  simp [RB.chain, chainOf, Chain.asRB, Chain.regImm, Chain.imm, regImm_back k]

/-- The header of class RB. -/
@[simp] theorem RB.hdr (p : Byte) (q : BitVec 5) (h : Hdr) (o : RB) : (o.chain p q h).hdr = h := rfl

/-- Class JL. -/
theorem JL.back (p : Byte) (q : BitVec 5) (h : Hdr) (o : JL) : (o.chain p q h).asJL = some o := by
  simp [JL.chain, chainOf, Chain.asJL, mustZero]

/-- The header of class JL. -/
@[simp] theorem JL.hdr (p : Byte) (q : BitVec 5) (h : Hdr) (o : JL) : (o.chain p q h).hdr = h := rfl

/-- Class FEN. -/
theorem FEN.back (p : Byte) (q : BitVec 5) (h : Hdr) (o : FEN) : (o.chain p q h).asFEN = some o := by
  simp [FEN.chain, chainOf, Chain.asFEN, Chain.extOpt, mustZero, two_lt]

/-- The header of class FEN. -/
@[simp] theorem FEN.hdr (p : Byte) (q : BitVec 5) (h : Hdr) (o : FEN) : (o.chain p q h).hdr = h := rfl

/-- Class COD. -/
theorem COD.back (p : Byte) (q : BitVec 5) (h : Hdr) (o : COD) : (o.chain p q h).asCOD = some o := by
  simp [COD.chain, chainOf, Chain.asCOD, Chain.imm, mustZero]

/-- The header of class COD. -/
@[simp] theorem COD.hdr (p : Byte) (q : BitVec 5) (h : Hdr) (o : COD) : (o.chain p q h).hdr = h := rfl

/-- Class VCM. -/
theorem VCM.back (p : Byte) (q : BitVec 5) (h : Hdr) (o : VCM) : (o.chain p q h).asVCM = some o := by
  simp [VCM.chain, chainOf, Chain.asVCM, Chain.imm, Chain.extReq, Chain.maskOpt]

/-- The header of class VCM. -/
@[simp] theorem VCM.hdr (p : Byte) (q : BitVec 5) (h : Hdr) (o : VCM) : (o.chain p q h).hdr = h := rfl

/-- Class PLG. -/
theorem PLG.back (p : Byte) (q : BitVec 5) (h : Hdr) (o : PLG) : (o.chain p q h).asPLG = some o := by
  simp [PLG.chain, chainOf, Chain.asPLG, Chain.extReq]

/-- The header of class PLG. -/
@[simp] theorem PLG.hdr (p : Byte) (q : BitVec 5) (h : Hdr) (o : PLG) : (o.chain p q h).hdr = h := rfl

/-- Class PCT. -/
theorem PCT.back (p : Byte) (q : BitVec 5) (h : Hdr) (o : PCT) : (o.chain p q h).asPCT = some o := by
  simp [PCT.chain, chainOf, Chain.asPCT, Chain.maskOpt]

/-- The header of class PCT. -/
@[simp] theorem PCT.hdr (p : Byte) (q : BitVec 5) (h : Hdr) (o : PCT) : (o.chain p q h).hdr = h := rfl

/-- Class VFL. -/
theorem VFL.back (p : Byte) (q : BitVec 5) (h : Hdr) (o : VFL) : (o.chain p q h).asVFL = some o := by
  simp [VFL.chain, chainOf, Chain.asVFL, mustZero]

/-- The header of class VFL. -/
@[simp] theorem VFL.hdr (p : Byte) (q : BitVec 5) (h : Hdr) (o : VFL) : (o.chain p q h).hdr = h := rfl

/-- Class XB. -/
theorem XB.back (p : Byte) (q : BitVec 5) (h : Hdr) (o : XB) : (o.chain p q h).asXB = some o := by
  simp [XB.chain, chainOf, Chain.asXB, mustZero]

/-- The header of class XB. -/
@[simp] theorem XB.hdr (p : Byte) (q : BitVec 5) (h : Hdr) (o : XB) : (o.chain p q h).hdr = h := rfl

/-- Class XBC. -/
theorem XBC.back (p : Byte) (q : BitVec 5) (h : Hdr) (o : XBC) : (o.chain p q h).asXBC = some o := by
  simp [XBC.chain, chainOf, Chain.asXBC, Chain.extReq, mustZero]

/-- The header of class XBC. -/
@[simp] theorem XBC.hdr (p : Byte) (q : BitVec 5) (h : Hdr) (o : XBC) : (o.chain p q h).hdr = h := rfl

/-- Class SKY. -/
theorem SKY.back (p : Byte) (q : BitVec 5) (h : Hdr) (o : SKY) : (o.chain p q h).asSKY = some o := by
  simp [SKY.chain, chainOf, Chain.asSKY, Chain.extReq]

/-- The header of class SKY. -/
@[simp] theorem SKY.hdr (p : Byte) (q : BitVec 5) (h : Hdr) (o : SKY) : (o.chain p q h).hdr = h := rfl

/-- Class SPR. -/
theorem SPR.back (p : Byte) (q : BitVec 5) (h : Hdr) (o : SPR) : (o.chain p q h).asSPR = some o := by
  simp [SPR.chain, chainOf, Chain.asSPR, three_lt]

/-- The header of class SPR. -/
@[simp] theorem SPR.hdr (p : Byte) (q : BitVec 5) (h : Hdr) (o : SPR) : (o.chain p q h).hdr = h := rfl

/-- Class KK. -/
theorem KK.back (p : Byte) (q : BitVec 5) (h : Hdr) (o : KK) : (o.chain p q h).asKK = some o := by
  simp [KK.chain, chainOf, Chain.asKK]

/-- The header of class KK. -/
@[simp] theorem KK.hdr (p : Byte) (q : BitVec 5) (h : Hdr) (o : KK) : (o.chain p q h).hdr = h := rfl

/-- Class KKX. -/
theorem KKX.back (p : Byte) (q : BitVec 5) (h : Hdr) (o : KKX) : (o.chain p q h).asKKX = some o := by
  simp [KKX.chain, chainOf, Chain.asKKX, Chain.extReq]

/-- The header of class KKX. -/
@[simp] theorem KKX.hdr (p : Byte) (q : BitVec 5) (h : Hdr) (o : KKX) : (o.chain p q h).hdr = h := rfl

/-- Class KIN. -/
theorem KIN.back (p : Byte) (q : BitVec 5) (h : Hdr) (o : KIN) : (o.chain p q h).asKIN = some o := by
  simp [KIN.chain, chainOf, Chain.asKIN, Chain.extOpt]

/-- The header of class KIN. -/
@[simp] theorem KIN.hdr (p : Byte) (q : BitVec 5) (h : Hdr) (o : KIN) : (o.chain p q h).hdr = h := rfl

/-- Class RMT. -/
theorem RMT.back (p : Byte) (q : BitVec 5) (h : Hdr) (o : RMT) : (o.chain p q h).asRMT = some o := by
  simp [RMT.chain, chainOf, Chain.asRMT, Chain.extReq, Chain.maskOpt]

/-- The header of class RMT. -/
@[simp] theorem RMT.hdr (p : Byte) (q : BitVec 5) (h : Hdr) (o : RMT) : (o.chain p q h).hdr = h := rfl

/-- Class MSG. -/
theorem MSG.back (p : Byte) (q : BitVec 5) (h : Hdr) (o : MSG) : (o.chain p q h).asMSG = some o := by
  simp [MSG.chain, chainOf, Chain.asMSG, Chain.extReq]

/-- The header of class MSG. -/
@[simp] theorem MSG.hdr (p : Byte) (q : BitVec 5) (h : Hdr) (o : MSG) : (o.chain p q h).hdr = h := rfl

/-- Class HID. -/
theorem HID.back (p : Byte) (q : BitVec 5) (h : Hdr) (o : HID) {n : Nat} (k : o.t.ok n = true) : (o.chain p q h).asHID = some o := by
  simp [HID.chain, chainOf, Chain.asHID, Chain.regImm, Chain.imm, Chain.extOpt, mustZero, regImm_back k]

/-- The header of class HID. -/
@[simp] theorem HID.hdr (p : Byte) (q : BitVec 5) (h : Hdr) (o : HID) : (o.chain p q h).hdr = h := rfl

/-- Class SPN. -/
theorem SPN.back (p : Byte) (q : BitVec 5) (h : Hdr) (o : SPN) : (o.chain p q h).asSPN = some o := by
  simp [SPN.chain, chainOf, Chain.asSPN, Chain.extReq, three_lt]

/-- The header of class SPN. -/
@[simp] theorem SPN.hdr (p : Byte) (q : BitVec 5) (h : Hdr) (o : SPN) : (o.chain p q h).hdr = h := rfl

/-- Class CFL. -/
theorem CFL.back (p : Byte) (q : BitVec 5) (h : Hdr) (o : CFL) : (o.chain p q h).asCFL = some o := by
  simp [CFL.chain, chainOf, Chain.asCFL, Chain.extReq, mustZero]

/-- The header of class CFL. -/
@[simp] theorem CFL.hdr (p : Byte) (q : BitVec 5) (h : Hdr) (o : CFL) : (o.chain p q h).hdr = h := rfl

/-- Class KB. -/
theorem KB.back (p : Byte) (q : BitVec 5) (h : Hdr) (o : KB) : (o.chain p q h).asKB = some o := by
  simp [KB.chain, chainOf, Chain.asKB]

/-- The header of class KB. -/
@[simp] theorem KB.hdr (p : Byte) (q : BitVec 5) (h : Hdr) (o : KB) : (o.chain p q h).hdr = h := rfl

end Sys2Proof
end

