-- ==== Sys2Proof/Laws/State.lean ====
section
/-! SUPPORT. Sys2Proof/Laws/State.lean: what each update of the state leaves alone, one lemma for each field, so that no proof unfolds a record update. -/

namespace Sys2Proof.Machine

/-! ### The agent whose turn it is -/

@[simp] theorem State.upd_me (s : State) (f : Agent → Agent) : (s.upd f).me = f s.me := rfl
@[simp] theorem State.setX_me (s : State) (r : Reg) (v : Word) : (s.setX r v).me = s.me.setX r v := rfl
@[simp] theorem State.setK_me (s : State) (r : Reg4) (v : Key) : (s.setK r v).me = s.me.setK r v := rfl
@[simp] theorem State.setPc_me (s : State) (v : Word) : (s.setPc v).me = { s.me with pc := v &&& ~~~1 } := rfl
@[simp] theorem State.postK_me (s : State) (r : Reg4) (i : Inflight) : (s.postK r i).me = s.me.post true r.toNat i := rfl
@[simp] theorem State.takeUid_me (s : State) : s.takeUid.me = s.me := rfl

/-- Reading a register that was written, and any other one; `x0` reads as zero (spec/03 R63). -/
@[simp] theorem Agent.getX_setX (a : Agent) (r q : Reg) (v : Word) :
    (a.setX r v).getX q = if q = r then (if r = 0 then 0 else v) else a.getX q := by
  unfold Agent.setX Agent.getX
  by_cases hr : r = 0
  · rw [if_pos hr, if_pos hr]
    by_cases hq : q = r
    · rw [if_pos hq, if_pos (hq.trans hr)]
    · rw [if_neg hq]
  · rw [if_neg hr, if_neg hr]
    by_cases hq : q = r
    · subst hq
      simp only [Vector.getElem_set_self, if_neg hr, if_true]
    · have h : r.toNat ≠ q.toNat := fun h => hq (BitVec.eq_of_toNat_eq h.symm)
      simp only [Vector.getElem_set_ne _ _ h, if_neg hq]

/-- Reading a `k` register that was written, and any other one. -/
@[simp] theorem State.k_setK (s : State) (r q : Reg4) (v : Key) : (s.setK r v).k q = if q = r then v else s.k q := by
  by_cases hq : q = r
  · subst hq
    simp only [State.k, State.setK, State.upd, Agent.setK, Vector.getElem_set_self, if_true]
  · have h : r.toNat ≠ q.toNat := fun h => hq (BitVec.eq_of_toNat_eq h.symm)
    simp only [State.k, State.setK, State.upd, Agent.setK, Vector.getElem_set_ne _ _ h, if_neg hq]

@[simp] theorem State.x_setX (s : State) (r q : Reg) (v : Word) :
    (s.setX r v).x q = if q = r then (if r = 0 then 0 else v) else s.x q := Agent.getX_setX ..
@[simp] theorem State.x_setPc (s : State) (q : Reg) (v : Word) : (s.setPc v).x q = s.x q := rfl
@[simp] theorem State.k_setX (s : State) (r : Reg) (q : Reg4) (v : Word) : (s.setX r v).k q = s.k q := by
  unfold State.setX State.upd State.k Agent.setX
  split <;> rfl
@[simp] theorem State.x_setK (s : State) (r : Reg4) (q : Reg) (v : Key) : (s.setK r v).x q = s.x q := rfl

/-! ### Outside the agent: an update of the agent -/

@[simp] theorem State.upd_others (s : State) (f : Agent → Agent) : (s.upd f).others = s.others := rfl
@[simp] theorem State.upd_schedule (s : State) (f : Agent → Agent) : (s.upd f).schedule = s.schedule := rfl
@[simp] theorem State.upd_fresh (s : State) (f : Agent → Agent) : (s.upd f).fresh = s.fresh := rfl
@[simp] theorem State.upd_nextUid (s : State) (f : Agent → Agent) : (s.upd f).nextUid = s.nextUid := rfl
@[simp] theorem State.upd_now (s : State) (f : Agent → Agent) : (s.upd f).now = s.now := rfl
@[simp] theorem State.upd_clocks (s : State) (f : Agent → Agent) : (s.upd f).clocks = s.clocks := rfl
@[simp] theorem State.upd_mem (s : State) (f : Agent → Agent) : (s.upd f).mem = s.mem := rfl
@[simp] theorem State.upd_homes (s : State) (f : Agent → Agent) : (s.upd f).homes = s.homes := rfl
@[simp] theorem State.upd_counted (s : State) (f : Agent → Agent) : (s.upd f).counted = s.counted := rfl
@[simp] theorem State.upd_saved (s : State) (f : Agent → Agent) : (s.upd f).saved = s.saved := rfl
@[simp] theorem State.upd_rdc (s : State) (f : Agent → Agent) : (s.upd f).rdc = s.rdc := rfl
@[simp] theorem State.upd_l2 (s : State) (f : Agent → Agent) : (s.upd f).l2 = s.l2 := rfl
@[simp] theorem State.upd_l2clock (s : State) (f : Agent → Agent) : (s.upd f).l2clock = s.l2clock := rfl
@[simp] theorem State.upd_fills (s : State) (f : Agent → Agent) : (s.upd f).fills = s.fills := rfl
@[simp] theorem State.upd_outHits (s : State) (f : Agent → Agent) : (s.upd f).outHits = s.outHits := rfl
@[simp] theorem State.upd_accs (s : State) (f : Agent → Agent) : (s.upd f).accs = s.accs := rfl
@[simp] theorem State.upd_icache (s : State) (f : Agent → Agent) : (s.upd f).icache = s.icache := rfl
@[simp] theorem State.upd_dcache (s : State) (f : Agent → Agent) : (s.upd f).dcache = s.dcache := rfl
@[simp] theorem State.upd_tlb (s : State) (f : Agent → Agent) : (s.upd f).tlb = s.tlb := rfl
@[simp] theorem State.upd_reports (s : State) (f : Agent → Agent) : (s.upd f).reports = s.reports := rfl
@[simp] theorem State.upd_poison (s : State) (f : Agent → Agent) : (s.upd f).poison = s.poison := rfl
@[simp] theorem State.upd_crypt (s : State) (f : Agent → Agent) : (s.upd f).crypt = s.crypt := rfl
@[simp] theorem State.upd_allocs (s : State) (f : Agent → Agent) : (s.upd f).allocs = s.allocs := rfl
@[simp] theorem State.upd_slines (s : State) (f : Agent → Agent) : (s.upd f).slines = s.slines := rfl
@[simp] theorem State.upd_regions (s : State) (f : Agent → Agent) : (s.upd f).regions = s.regions := rfl
@[simp] theorem State.upd_rqueues (s : State) (f : Agent → Agent) : (s.upd f).rqueues = s.rqueues := rfl
@[simp] theorem State.upd_vifs (s : State) (f : Agent → Agent) : (s.upd f).vifs = s.vifs := rfl
@[simp] theorem State.upd_hostqs (s : State) (f : Agent → Agent) : (s.upd f).hostqs = s.hostqs := rfl
@[simp] theorem State.upd_launches (s : State) (f : Agent → Agent) : (s.upd f).launches = s.launches := rfl
@[simp] theorem State.upd_plans (s : State) (f : Agent → Agent) : (s.upd f).plans = s.plans := rfl
@[simp] theorem State.upd_nextSid (s : State) (f : Agent → Agent) : (s.upd f).nextSid = s.nextSid := rfl
@[simp] theorem State.upd_sats (s : State) (f : Agent → Agent) : (s.upd f).sats = s.sats := rfl
@[simp] theorem State.upd_gens (s : State) (f : Agent → Agent) : (s.upd f).gens = s.gens := rfl
@[simp] theorem State.upd_notices (s : State) (f : Agent → Agent) : (s.upd f).notices = s.notices := rfl
@[simp] theorem State.upd_slices (s : State) (f : Agent → Agent) : (s.upd f).slices = s.slices := rfl
@[simp] theorem State.upd_barrier (s : State) (f : Agent → Agent) : (s.upd f).barrier = s.barrier := rfl
@[simp] theorem State.upd_nextReq (s : State) (f : Agent → Agent) : (s.upd f).nextReq = s.nextReq := rfl
@[simp] theorem State.upd_waiting (s : State) (f : Agent → Agent) : (s.upd f).waiting = s.waiting := rfl
@[simp] theorem State.upd_sendq (s : State) (f : Agent → Agent) : (s.upd f).sendq = s.sendq := rfl
@[simp] theorem State.upd_rslots (s : State) (f : Agent → Agent) : (s.upd f).rslots = s.rslots := rfl
@[simp] theorem State.upd_htab (s : State) (f : Agent → Agent) : (s.upd f).htab = s.htab := rfl
@[simp] theorem State.upd_reqs (s : State) (f : Agent → Agent) : (s.upd f).reqs = s.reqs := rfl
@[simp] theorem State.upd_flights (s : State) (f : Agent → Agent) : (s.upd f).flights = s.flights := rfl
@[simp] theorem State.upd_seqs (s : State) (f : Agent → Agent) : (s.upd f).seqs = s.seqs := rfl
@[simp] theorem State.upd_buckets (s : State) (f : Agent → Agent) : (s.upd f).buckets = s.buckets := rfl
@[simp] theorem State.upd_ports (s : State) (f : Agent → Agent) : (s.upd f).ports = s.ports := rfl
@[simp] theorem State.upd_endpoints (s : State) (f : Agent → Agent) : (s.upd f).endpoints = s.endpoints := rfl
@[simp] theorem State.upd_secret (s : State) (f : Agent → Agent) : (s.upd f).secret = s.secret := rfl
@[simp] theorem State.upd_advances (s : State) (f : Agent → Agent) : (s.upd f).advances = s.advances := rfl
@[simp] theorem State.upd_charters (s : State) (f : Agent → Agent) : (s.upd f).charters = s.charters := rfl
@[simp] theorem State.upd_modules (s : State) (f : Agent → Agent) : (s.upd f).modules = s.modules := rfl
@[simp] theorem State.upd_deferred (s : State) (f : Agent → Agent) : (s.upd f).deferred = s.deferred := rfl
@[simp] theorem State.upd_inject (s : State) (f : Agent → Agent) : (s.upd f).inject = s.inject := rfl
@[simp] theorem State.upd_tbufs (s : State) (f : Agent → Agent) : (s.upd f).tbufs = s.tbufs := rfl
@[simp] theorem State.upd_tqueue (s : State) (f : Agent → Agent) : (s.upd f).tqueue = s.tqueue := rfl
@[simp] theorem State.upd_tcapture (s : State) (f : Agent → Agent) : (s.upd f).tcapture = s.tcapture := rfl
@[simp] theorem State.upd_dies (s : State) (f : Agent → Agent) : (s.upd f).dies = s.dies := rfl
@[simp] theorem State.upd_cores (s : State) (f : Agent → Agent) : (s.upd f).cores = s.cores := rfl

/-! ### Outside the agent: a write of an `x` register -/

@[simp] theorem State.setX_others (s : State) (r : Reg) (v : Word) : (s.setX r v).others = s.others := rfl
@[simp] theorem State.setX_schedule (s : State) (r : Reg) (v : Word) : (s.setX r v).schedule = s.schedule := rfl
@[simp] theorem State.setX_fresh (s : State) (r : Reg) (v : Word) : (s.setX r v).fresh = s.fresh := rfl
@[simp] theorem State.setX_nextUid (s : State) (r : Reg) (v : Word) : (s.setX r v).nextUid = s.nextUid := rfl
@[simp] theorem State.setX_now (s : State) (r : Reg) (v : Word) : (s.setX r v).now = s.now := rfl
@[simp] theorem State.setX_clocks (s : State) (r : Reg) (v : Word) : (s.setX r v).clocks = s.clocks := rfl
@[simp] theorem State.setX_mem (s : State) (r : Reg) (v : Word) : (s.setX r v).mem = s.mem := rfl
@[simp] theorem State.setX_homes (s : State) (r : Reg) (v : Word) : (s.setX r v).homes = s.homes := rfl
@[simp] theorem State.setX_counted (s : State) (r : Reg) (v : Word) : (s.setX r v).counted = s.counted := rfl
@[simp] theorem State.setX_saved (s : State) (r : Reg) (v : Word) : (s.setX r v).saved = s.saved := rfl
@[simp] theorem State.setX_rdc (s : State) (r : Reg) (v : Word) : (s.setX r v).rdc = s.rdc := rfl
@[simp] theorem State.setX_l2 (s : State) (r : Reg) (v : Word) : (s.setX r v).l2 = s.l2 := rfl
@[simp] theorem State.setX_l2clock (s : State) (r : Reg) (v : Word) : (s.setX r v).l2clock = s.l2clock := rfl
@[simp] theorem State.setX_fills (s : State) (r : Reg) (v : Word) : (s.setX r v).fills = s.fills := rfl
@[simp] theorem State.setX_outHits (s : State) (r : Reg) (v : Word) : (s.setX r v).outHits = s.outHits := rfl
@[simp] theorem State.setX_accs (s : State) (r : Reg) (v : Word) : (s.setX r v).accs = s.accs := rfl
@[simp] theorem State.setX_icache (s : State) (r : Reg) (v : Word) : (s.setX r v).icache = s.icache := rfl
@[simp] theorem State.setX_dcache (s : State) (r : Reg) (v : Word) : (s.setX r v).dcache = s.dcache := rfl
@[simp] theorem State.setX_tlb (s : State) (r : Reg) (v : Word) : (s.setX r v).tlb = s.tlb := rfl
@[simp] theorem State.setX_reports (s : State) (r : Reg) (v : Word) : (s.setX r v).reports = s.reports := rfl
@[simp] theorem State.setX_poison (s : State) (r : Reg) (v : Word) : (s.setX r v).poison = s.poison := rfl
@[simp] theorem State.setX_crypt (s : State) (r : Reg) (v : Word) : (s.setX r v).crypt = s.crypt := rfl
@[simp] theorem State.setX_allocs (s : State) (r : Reg) (v : Word) : (s.setX r v).allocs = s.allocs := rfl
@[simp] theorem State.setX_slines (s : State) (r : Reg) (v : Word) : (s.setX r v).slines = s.slines := rfl
@[simp] theorem State.setX_regions (s : State) (r : Reg) (v : Word) : (s.setX r v).regions = s.regions := rfl
@[simp] theorem State.setX_rqueues (s : State) (r : Reg) (v : Word) : (s.setX r v).rqueues = s.rqueues := rfl
@[simp] theorem State.setX_vifs (s : State) (r : Reg) (v : Word) : (s.setX r v).vifs = s.vifs := rfl
@[simp] theorem State.setX_hostqs (s : State) (r : Reg) (v : Word) : (s.setX r v).hostqs = s.hostqs := rfl
@[simp] theorem State.setX_launches (s : State) (r : Reg) (v : Word) : (s.setX r v).launches = s.launches := rfl
@[simp] theorem State.setX_plans (s : State) (r : Reg) (v : Word) : (s.setX r v).plans = s.plans := rfl
@[simp] theorem State.setX_nextSid (s : State) (r : Reg) (v : Word) : (s.setX r v).nextSid = s.nextSid := rfl
@[simp] theorem State.setX_sats (s : State) (r : Reg) (v : Word) : (s.setX r v).sats = s.sats := rfl
@[simp] theorem State.setX_gens (s : State) (r : Reg) (v : Word) : (s.setX r v).gens = s.gens := rfl
@[simp] theorem State.setX_notices (s : State) (r : Reg) (v : Word) : (s.setX r v).notices = s.notices := rfl
@[simp] theorem State.setX_slices (s : State) (r : Reg) (v : Word) : (s.setX r v).slices = s.slices := rfl
@[simp] theorem State.setX_barrier (s : State) (r : Reg) (v : Word) : (s.setX r v).barrier = s.barrier := rfl
@[simp] theorem State.setX_nextReq (s : State) (r : Reg) (v : Word) : (s.setX r v).nextReq = s.nextReq := rfl
@[simp] theorem State.setX_waiting (s : State) (r : Reg) (v : Word) : (s.setX r v).waiting = s.waiting := rfl
@[simp] theorem State.setX_sendq (s : State) (r : Reg) (v : Word) : (s.setX r v).sendq = s.sendq := rfl
@[simp] theorem State.setX_rslots (s : State) (r : Reg) (v : Word) : (s.setX r v).rslots = s.rslots := rfl
@[simp] theorem State.setX_htab (s : State) (r : Reg) (v : Word) : (s.setX r v).htab = s.htab := rfl
@[simp] theorem State.setX_reqs (s : State) (r : Reg) (v : Word) : (s.setX r v).reqs = s.reqs := rfl
@[simp] theorem State.setX_flights (s : State) (r : Reg) (v : Word) : (s.setX r v).flights = s.flights := rfl
@[simp] theorem State.setX_seqs (s : State) (r : Reg) (v : Word) : (s.setX r v).seqs = s.seqs := rfl
@[simp] theorem State.setX_buckets (s : State) (r : Reg) (v : Word) : (s.setX r v).buckets = s.buckets := rfl
@[simp] theorem State.setX_ports (s : State) (r : Reg) (v : Word) : (s.setX r v).ports = s.ports := rfl
@[simp] theorem State.setX_endpoints (s : State) (r : Reg) (v : Word) : (s.setX r v).endpoints = s.endpoints := rfl
@[simp] theorem State.setX_secret (s : State) (r : Reg) (v : Word) : (s.setX r v).secret = s.secret := rfl
@[simp] theorem State.setX_advances (s : State) (r : Reg) (v : Word) : (s.setX r v).advances = s.advances := rfl
@[simp] theorem State.setX_charters (s : State) (r : Reg) (v : Word) : (s.setX r v).charters = s.charters := rfl
@[simp] theorem State.setX_modules (s : State) (r : Reg) (v : Word) : (s.setX r v).modules = s.modules := rfl
@[simp] theorem State.setX_deferred (s : State) (r : Reg) (v : Word) : (s.setX r v).deferred = s.deferred := rfl
@[simp] theorem State.setX_inject (s : State) (r : Reg) (v : Word) : (s.setX r v).inject = s.inject := rfl
@[simp] theorem State.setX_tbufs (s : State) (r : Reg) (v : Word) : (s.setX r v).tbufs = s.tbufs := rfl
@[simp] theorem State.setX_tqueue (s : State) (r : Reg) (v : Word) : (s.setX r v).tqueue = s.tqueue := rfl
@[simp] theorem State.setX_tcapture (s : State) (r : Reg) (v : Word) : (s.setX r v).tcapture = s.tcapture := rfl
@[simp] theorem State.setX_dies (s : State) (r : Reg) (v : Word) : (s.setX r v).dies = s.dies := rfl
@[simp] theorem State.setX_cores (s : State) (r : Reg) (v : Word) : (s.setX r v).cores = s.cores := rfl

/-! ### Outside the agent: a write of a `k` register -/

@[simp] theorem State.setK_others (s : State) (r : Reg4) (v : Key) : (s.setK r v).others = s.others := rfl
@[simp] theorem State.setK_schedule (s : State) (r : Reg4) (v : Key) : (s.setK r v).schedule = s.schedule := rfl
@[simp] theorem State.setK_fresh (s : State) (r : Reg4) (v : Key) : (s.setK r v).fresh = s.fresh := rfl
@[simp] theorem State.setK_nextUid (s : State) (r : Reg4) (v : Key) : (s.setK r v).nextUid = s.nextUid := rfl
@[simp] theorem State.setK_now (s : State) (r : Reg4) (v : Key) : (s.setK r v).now = s.now := rfl
@[simp] theorem State.setK_clocks (s : State) (r : Reg4) (v : Key) : (s.setK r v).clocks = s.clocks := rfl
@[simp] theorem State.setK_mem (s : State) (r : Reg4) (v : Key) : (s.setK r v).mem = s.mem := rfl
@[simp] theorem State.setK_homes (s : State) (r : Reg4) (v : Key) : (s.setK r v).homes = s.homes := rfl
@[simp] theorem State.setK_counted (s : State) (r : Reg4) (v : Key) : (s.setK r v).counted = s.counted := rfl
@[simp] theorem State.setK_saved (s : State) (r : Reg4) (v : Key) : (s.setK r v).saved = s.saved := rfl
@[simp] theorem State.setK_rdc (s : State) (r : Reg4) (v : Key) : (s.setK r v).rdc = s.rdc := rfl
@[simp] theorem State.setK_l2 (s : State) (r : Reg4) (v : Key) : (s.setK r v).l2 = s.l2 := rfl
@[simp] theorem State.setK_l2clock (s : State) (r : Reg4) (v : Key) : (s.setK r v).l2clock = s.l2clock := rfl
@[simp] theorem State.setK_fills (s : State) (r : Reg4) (v : Key) : (s.setK r v).fills = s.fills := rfl
@[simp] theorem State.setK_outHits (s : State) (r : Reg4) (v : Key) : (s.setK r v).outHits = s.outHits := rfl
@[simp] theorem State.setK_accs (s : State) (r : Reg4) (v : Key) : (s.setK r v).accs = s.accs := rfl
@[simp] theorem State.setK_icache (s : State) (r : Reg4) (v : Key) : (s.setK r v).icache = s.icache := rfl
@[simp] theorem State.setK_dcache (s : State) (r : Reg4) (v : Key) : (s.setK r v).dcache = s.dcache := rfl
@[simp] theorem State.setK_tlb (s : State) (r : Reg4) (v : Key) : (s.setK r v).tlb = s.tlb := rfl
@[simp] theorem State.setK_reports (s : State) (r : Reg4) (v : Key) : (s.setK r v).reports = s.reports := rfl
@[simp] theorem State.setK_poison (s : State) (r : Reg4) (v : Key) : (s.setK r v).poison = s.poison := rfl
@[simp] theorem State.setK_crypt (s : State) (r : Reg4) (v : Key) : (s.setK r v).crypt = s.crypt := rfl
@[simp] theorem State.setK_allocs (s : State) (r : Reg4) (v : Key) : (s.setK r v).allocs = s.allocs := rfl
@[simp] theorem State.setK_slines (s : State) (r : Reg4) (v : Key) : (s.setK r v).slines = s.slines := rfl
@[simp] theorem State.setK_regions (s : State) (r : Reg4) (v : Key) : (s.setK r v).regions = s.regions := rfl
@[simp] theorem State.setK_rqueues (s : State) (r : Reg4) (v : Key) : (s.setK r v).rqueues = s.rqueues := rfl
@[simp] theorem State.setK_vifs (s : State) (r : Reg4) (v : Key) : (s.setK r v).vifs = s.vifs := rfl
@[simp] theorem State.setK_hostqs (s : State) (r : Reg4) (v : Key) : (s.setK r v).hostqs = s.hostqs := rfl
@[simp] theorem State.setK_launches (s : State) (r : Reg4) (v : Key) : (s.setK r v).launches = s.launches := rfl
@[simp] theorem State.setK_plans (s : State) (r : Reg4) (v : Key) : (s.setK r v).plans = s.plans := rfl
@[simp] theorem State.setK_nextSid (s : State) (r : Reg4) (v : Key) : (s.setK r v).nextSid = s.nextSid := rfl
@[simp] theorem State.setK_sats (s : State) (r : Reg4) (v : Key) : (s.setK r v).sats = s.sats := rfl
@[simp] theorem State.setK_gens (s : State) (r : Reg4) (v : Key) : (s.setK r v).gens = s.gens := rfl
@[simp] theorem State.setK_notices (s : State) (r : Reg4) (v : Key) : (s.setK r v).notices = s.notices := rfl
@[simp] theorem State.setK_slices (s : State) (r : Reg4) (v : Key) : (s.setK r v).slices = s.slices := rfl
@[simp] theorem State.setK_barrier (s : State) (r : Reg4) (v : Key) : (s.setK r v).barrier = s.barrier := rfl
@[simp] theorem State.setK_nextReq (s : State) (r : Reg4) (v : Key) : (s.setK r v).nextReq = s.nextReq := rfl
@[simp] theorem State.setK_waiting (s : State) (r : Reg4) (v : Key) : (s.setK r v).waiting = s.waiting := rfl
@[simp] theorem State.setK_sendq (s : State) (r : Reg4) (v : Key) : (s.setK r v).sendq = s.sendq := rfl
@[simp] theorem State.setK_rslots (s : State) (r : Reg4) (v : Key) : (s.setK r v).rslots = s.rslots := rfl
@[simp] theorem State.setK_htab (s : State) (r : Reg4) (v : Key) : (s.setK r v).htab = s.htab := rfl
@[simp] theorem State.setK_reqs (s : State) (r : Reg4) (v : Key) : (s.setK r v).reqs = s.reqs := rfl
@[simp] theorem State.setK_flights (s : State) (r : Reg4) (v : Key) : (s.setK r v).flights = s.flights := rfl
@[simp] theorem State.setK_seqs (s : State) (r : Reg4) (v : Key) : (s.setK r v).seqs = s.seqs := rfl
@[simp] theorem State.setK_buckets (s : State) (r : Reg4) (v : Key) : (s.setK r v).buckets = s.buckets := rfl
@[simp] theorem State.setK_ports (s : State) (r : Reg4) (v : Key) : (s.setK r v).ports = s.ports := rfl
@[simp] theorem State.setK_endpoints (s : State) (r : Reg4) (v : Key) : (s.setK r v).endpoints = s.endpoints := rfl
@[simp] theorem State.setK_secret (s : State) (r : Reg4) (v : Key) : (s.setK r v).secret = s.secret := rfl
@[simp] theorem State.setK_advances (s : State) (r : Reg4) (v : Key) : (s.setK r v).advances = s.advances := rfl
@[simp] theorem State.setK_charters (s : State) (r : Reg4) (v : Key) : (s.setK r v).charters = s.charters := rfl
@[simp] theorem State.setK_modules (s : State) (r : Reg4) (v : Key) : (s.setK r v).modules = s.modules := rfl
@[simp] theorem State.setK_deferred (s : State) (r : Reg4) (v : Key) : (s.setK r v).deferred = s.deferred := rfl
@[simp] theorem State.setK_inject (s : State) (r : Reg4) (v : Key) : (s.setK r v).inject = s.inject := rfl
@[simp] theorem State.setK_tbufs (s : State) (r : Reg4) (v : Key) : (s.setK r v).tbufs = s.tbufs := rfl
@[simp] theorem State.setK_tqueue (s : State) (r : Reg4) (v : Key) : (s.setK r v).tqueue = s.tqueue := rfl
@[simp] theorem State.setK_tcapture (s : State) (r : Reg4) (v : Key) : (s.setK r v).tcapture = s.tcapture := rfl
@[simp] theorem State.setK_dies (s : State) (r : Reg4) (v : Key) : (s.setK r v).dies = s.dies := rfl
@[simp] theorem State.setK_cores (s : State) (r : Reg4) (v : Key) : (s.setK r v).cores = s.cores := rfl

/-! ### Outside the agent: a write of the program counter -/

@[simp] theorem State.setPc_others (s : State) (v : Word) : (s.setPc v).others = s.others := rfl
@[simp] theorem State.setPc_schedule (s : State) (v : Word) : (s.setPc v).schedule = s.schedule := rfl
@[simp] theorem State.setPc_fresh (s : State) (v : Word) : (s.setPc v).fresh = s.fresh := rfl
@[simp] theorem State.setPc_nextUid (s : State) (v : Word) : (s.setPc v).nextUid = s.nextUid := rfl
@[simp] theorem State.setPc_now (s : State) (v : Word) : (s.setPc v).now = s.now := rfl
@[simp] theorem State.setPc_clocks (s : State) (v : Word) : (s.setPc v).clocks = s.clocks := rfl
@[simp] theorem State.setPc_mem (s : State) (v : Word) : (s.setPc v).mem = s.mem := rfl
@[simp] theorem State.setPc_homes (s : State) (v : Word) : (s.setPc v).homes = s.homes := rfl
@[simp] theorem State.setPc_counted (s : State) (v : Word) : (s.setPc v).counted = s.counted := rfl
@[simp] theorem State.setPc_saved (s : State) (v : Word) : (s.setPc v).saved = s.saved := rfl
@[simp] theorem State.setPc_rdc (s : State) (v : Word) : (s.setPc v).rdc = s.rdc := rfl
@[simp] theorem State.setPc_l2 (s : State) (v : Word) : (s.setPc v).l2 = s.l2 := rfl
@[simp] theorem State.setPc_l2clock (s : State) (v : Word) : (s.setPc v).l2clock = s.l2clock := rfl
@[simp] theorem State.setPc_fills (s : State) (v : Word) : (s.setPc v).fills = s.fills := rfl
@[simp] theorem State.setPc_outHits (s : State) (v : Word) : (s.setPc v).outHits = s.outHits := rfl
@[simp] theorem State.setPc_accs (s : State) (v : Word) : (s.setPc v).accs = s.accs := rfl
@[simp] theorem State.setPc_icache (s : State) (v : Word) : (s.setPc v).icache = s.icache := rfl
@[simp] theorem State.setPc_dcache (s : State) (v : Word) : (s.setPc v).dcache = s.dcache := rfl
@[simp] theorem State.setPc_tlb (s : State) (v : Word) : (s.setPc v).tlb = s.tlb := rfl
@[simp] theorem State.setPc_reports (s : State) (v : Word) : (s.setPc v).reports = s.reports := rfl
@[simp] theorem State.setPc_poison (s : State) (v : Word) : (s.setPc v).poison = s.poison := rfl
@[simp] theorem State.setPc_crypt (s : State) (v : Word) : (s.setPc v).crypt = s.crypt := rfl
@[simp] theorem State.setPc_allocs (s : State) (v : Word) : (s.setPc v).allocs = s.allocs := rfl
@[simp] theorem State.setPc_slines (s : State) (v : Word) : (s.setPc v).slines = s.slines := rfl
@[simp] theorem State.setPc_regions (s : State) (v : Word) : (s.setPc v).regions = s.regions := rfl
@[simp] theorem State.setPc_rqueues (s : State) (v : Word) : (s.setPc v).rqueues = s.rqueues := rfl
@[simp] theorem State.setPc_vifs (s : State) (v : Word) : (s.setPc v).vifs = s.vifs := rfl
@[simp] theorem State.setPc_hostqs (s : State) (v : Word) : (s.setPc v).hostqs = s.hostqs := rfl
@[simp] theorem State.setPc_launches (s : State) (v : Word) : (s.setPc v).launches = s.launches := rfl
@[simp] theorem State.setPc_plans (s : State) (v : Word) : (s.setPc v).plans = s.plans := rfl
@[simp] theorem State.setPc_nextSid (s : State) (v : Word) : (s.setPc v).nextSid = s.nextSid := rfl
@[simp] theorem State.setPc_sats (s : State) (v : Word) : (s.setPc v).sats = s.sats := rfl
@[simp] theorem State.setPc_gens (s : State) (v : Word) : (s.setPc v).gens = s.gens := rfl
@[simp] theorem State.setPc_notices (s : State) (v : Word) : (s.setPc v).notices = s.notices := rfl
@[simp] theorem State.setPc_slices (s : State) (v : Word) : (s.setPc v).slices = s.slices := rfl
@[simp] theorem State.setPc_barrier (s : State) (v : Word) : (s.setPc v).barrier = s.barrier := rfl
@[simp] theorem State.setPc_nextReq (s : State) (v : Word) : (s.setPc v).nextReq = s.nextReq := rfl
@[simp] theorem State.setPc_waiting (s : State) (v : Word) : (s.setPc v).waiting = s.waiting := rfl
@[simp] theorem State.setPc_sendq (s : State) (v : Word) : (s.setPc v).sendq = s.sendq := rfl
@[simp] theorem State.setPc_rslots (s : State) (v : Word) : (s.setPc v).rslots = s.rslots := rfl
@[simp] theorem State.setPc_htab (s : State) (v : Word) : (s.setPc v).htab = s.htab := rfl
@[simp] theorem State.setPc_reqs (s : State) (v : Word) : (s.setPc v).reqs = s.reqs := rfl
@[simp] theorem State.setPc_flights (s : State) (v : Word) : (s.setPc v).flights = s.flights := rfl
@[simp] theorem State.setPc_seqs (s : State) (v : Word) : (s.setPc v).seqs = s.seqs := rfl
@[simp] theorem State.setPc_buckets (s : State) (v : Word) : (s.setPc v).buckets = s.buckets := rfl
@[simp] theorem State.setPc_ports (s : State) (v : Word) : (s.setPc v).ports = s.ports := rfl
@[simp] theorem State.setPc_endpoints (s : State) (v : Word) : (s.setPc v).endpoints = s.endpoints := rfl
@[simp] theorem State.setPc_secret (s : State) (v : Word) : (s.setPc v).secret = s.secret := rfl
@[simp] theorem State.setPc_advances (s : State) (v : Word) : (s.setPc v).advances = s.advances := rfl
@[simp] theorem State.setPc_charters (s : State) (v : Word) : (s.setPc v).charters = s.charters := rfl
@[simp] theorem State.setPc_modules (s : State) (v : Word) : (s.setPc v).modules = s.modules := rfl
@[simp] theorem State.setPc_deferred (s : State) (v : Word) : (s.setPc v).deferred = s.deferred := rfl
@[simp] theorem State.setPc_inject (s : State) (v : Word) : (s.setPc v).inject = s.inject := rfl
@[simp] theorem State.setPc_tbufs (s : State) (v : Word) : (s.setPc v).tbufs = s.tbufs := rfl
@[simp] theorem State.setPc_tqueue (s : State) (v : Word) : (s.setPc v).tqueue = s.tqueue := rfl
@[simp] theorem State.setPc_tcapture (s : State) (v : Word) : (s.setPc v).tcapture = s.tcapture := rfl
@[simp] theorem State.setPc_dies (s : State) (v : Word) : (s.setPc v).dies = s.dies := rfl
@[simp] theorem State.setPc_cores (s : State) (v : Word) : (s.setPc v).cores = s.cores := rfl

/-! ### Outside the agent: a `k` result put in flight -/

@[simp] theorem State.postK_others (s : State) (r : Reg4) (i : Inflight) : (s.postK r i).others = s.others := rfl
@[simp] theorem State.postK_schedule (s : State) (r : Reg4) (i : Inflight) : (s.postK r i).schedule = s.schedule := rfl
@[simp] theorem State.postK_fresh (s : State) (r : Reg4) (i : Inflight) : (s.postK r i).fresh = s.fresh := rfl
@[simp] theorem State.postK_nextUid (s : State) (r : Reg4) (i : Inflight) : (s.postK r i).nextUid = s.nextUid := rfl
@[simp] theorem State.postK_now (s : State) (r : Reg4) (i : Inflight) : (s.postK r i).now = s.now := rfl
@[simp] theorem State.postK_clocks (s : State) (r : Reg4) (i : Inflight) : (s.postK r i).clocks = s.clocks := rfl
@[simp] theorem State.postK_mem (s : State) (r : Reg4) (i : Inflight) : (s.postK r i).mem = s.mem := rfl
@[simp] theorem State.postK_homes (s : State) (r : Reg4) (i : Inflight) : (s.postK r i).homes = s.homes := rfl
@[simp] theorem State.postK_counted (s : State) (r : Reg4) (i : Inflight) : (s.postK r i).counted = s.counted := rfl
@[simp] theorem State.postK_saved (s : State) (r : Reg4) (i : Inflight) : (s.postK r i).saved = s.saved := rfl
@[simp] theorem State.postK_rdc (s : State) (r : Reg4) (i : Inflight) : (s.postK r i).rdc = s.rdc := rfl
@[simp] theorem State.postK_l2 (s : State) (r : Reg4) (i : Inflight) : (s.postK r i).l2 = s.l2 := rfl
@[simp] theorem State.postK_l2clock (s : State) (r : Reg4) (i : Inflight) : (s.postK r i).l2clock = s.l2clock := rfl
@[simp] theorem State.postK_fills (s : State) (r : Reg4) (i : Inflight) : (s.postK r i).fills = s.fills := rfl
@[simp] theorem State.postK_outHits (s : State) (r : Reg4) (i : Inflight) : (s.postK r i).outHits = s.outHits := rfl
@[simp] theorem State.postK_accs (s : State) (r : Reg4) (i : Inflight) : (s.postK r i).accs = s.accs := rfl
@[simp] theorem State.postK_icache (s : State) (r : Reg4) (i : Inflight) : (s.postK r i).icache = s.icache := rfl
@[simp] theorem State.postK_dcache (s : State) (r : Reg4) (i : Inflight) : (s.postK r i).dcache = s.dcache := rfl
@[simp] theorem State.postK_tlb (s : State) (r : Reg4) (i : Inflight) : (s.postK r i).tlb = s.tlb := rfl
@[simp] theorem State.postK_reports (s : State) (r : Reg4) (i : Inflight) : (s.postK r i).reports = s.reports := rfl
@[simp] theorem State.postK_poison (s : State) (r : Reg4) (i : Inflight) : (s.postK r i).poison = s.poison := rfl
@[simp] theorem State.postK_crypt (s : State) (r : Reg4) (i : Inflight) : (s.postK r i).crypt = s.crypt := rfl
@[simp] theorem State.postK_allocs (s : State) (r : Reg4) (i : Inflight) : (s.postK r i).allocs = s.allocs := rfl
@[simp] theorem State.postK_slines (s : State) (r : Reg4) (i : Inflight) : (s.postK r i).slines = s.slines := rfl
@[simp] theorem State.postK_regions (s : State) (r : Reg4) (i : Inflight) : (s.postK r i).regions = s.regions := rfl
@[simp] theorem State.postK_rqueues (s : State) (r : Reg4) (i : Inflight) : (s.postK r i).rqueues = s.rqueues := rfl
@[simp] theorem State.postK_vifs (s : State) (r : Reg4) (i : Inflight) : (s.postK r i).vifs = s.vifs := rfl
@[simp] theorem State.postK_hostqs (s : State) (r : Reg4) (i : Inflight) : (s.postK r i).hostqs = s.hostqs := rfl
@[simp] theorem State.postK_launches (s : State) (r : Reg4) (i : Inflight) : (s.postK r i).launches = s.launches := rfl
@[simp] theorem State.postK_plans (s : State) (r : Reg4) (i : Inflight) : (s.postK r i).plans = s.plans := rfl
@[simp] theorem State.postK_nextSid (s : State) (r : Reg4) (i : Inflight) : (s.postK r i).nextSid = s.nextSid := rfl
@[simp] theorem State.postK_sats (s : State) (r : Reg4) (i : Inflight) : (s.postK r i).sats = s.sats := rfl
@[simp] theorem State.postK_gens (s : State) (r : Reg4) (i : Inflight) : (s.postK r i).gens = s.gens := rfl
@[simp] theorem State.postK_notices (s : State) (r : Reg4) (i : Inflight) : (s.postK r i).notices = s.notices := rfl
@[simp] theorem State.postK_slices (s : State) (r : Reg4) (i : Inflight) : (s.postK r i).slices = s.slices := rfl
@[simp] theorem State.postK_barrier (s : State) (r : Reg4) (i : Inflight) : (s.postK r i).barrier = s.barrier := rfl
@[simp] theorem State.postK_nextReq (s : State) (r : Reg4) (i : Inflight) : (s.postK r i).nextReq = s.nextReq := rfl
@[simp] theorem State.postK_waiting (s : State) (r : Reg4) (i : Inflight) : (s.postK r i).waiting = s.waiting := rfl
@[simp] theorem State.postK_sendq (s : State) (r : Reg4) (i : Inflight) : (s.postK r i).sendq = s.sendq := rfl
@[simp] theorem State.postK_rslots (s : State) (r : Reg4) (i : Inflight) : (s.postK r i).rslots = s.rslots := rfl
@[simp] theorem State.postK_htab (s : State) (r : Reg4) (i : Inflight) : (s.postK r i).htab = s.htab := rfl
@[simp] theorem State.postK_reqs (s : State) (r : Reg4) (i : Inflight) : (s.postK r i).reqs = s.reqs := rfl
@[simp] theorem State.postK_flights (s : State) (r : Reg4) (i : Inflight) : (s.postK r i).flights = s.flights := rfl
@[simp] theorem State.postK_seqs (s : State) (r : Reg4) (i : Inflight) : (s.postK r i).seqs = s.seqs := rfl
@[simp] theorem State.postK_buckets (s : State) (r : Reg4) (i : Inflight) : (s.postK r i).buckets = s.buckets := rfl
@[simp] theorem State.postK_ports (s : State) (r : Reg4) (i : Inflight) : (s.postK r i).ports = s.ports := rfl
@[simp] theorem State.postK_endpoints (s : State) (r : Reg4) (i : Inflight) : (s.postK r i).endpoints = s.endpoints := rfl
@[simp] theorem State.postK_secret (s : State) (r : Reg4) (i : Inflight) : (s.postK r i).secret = s.secret := rfl
@[simp] theorem State.postK_advances (s : State) (r : Reg4) (i : Inflight) : (s.postK r i).advances = s.advances := rfl
@[simp] theorem State.postK_charters (s : State) (r : Reg4) (i : Inflight) : (s.postK r i).charters = s.charters := rfl
@[simp] theorem State.postK_modules (s : State) (r : Reg4) (i : Inflight) : (s.postK r i).modules = s.modules := rfl
@[simp] theorem State.postK_deferred (s : State) (r : Reg4) (i : Inflight) : (s.postK r i).deferred = s.deferred := rfl
@[simp] theorem State.postK_inject (s : State) (r : Reg4) (i : Inflight) : (s.postK r i).inject = s.inject := rfl
@[simp] theorem State.postK_tbufs (s : State) (r : Reg4) (i : Inflight) : (s.postK r i).tbufs = s.tbufs := rfl
@[simp] theorem State.postK_tqueue (s : State) (r : Reg4) (i : Inflight) : (s.postK r i).tqueue = s.tqueue := rfl
@[simp] theorem State.postK_tcapture (s : State) (r : Reg4) (i : Inflight) : (s.postK r i).tcapture = s.tcapture := rfl
@[simp] theorem State.postK_dies (s : State) (r : Reg4) (i : Inflight) : (s.postK r i).dies = s.dies := rfl
@[simp] theorem State.postK_cores (s : State) (r : Reg4) (i : Inflight) : (s.postK r i).cores = s.cores := rfl

/-! ### Outside the agent: an `x` result put in flight -/

/-- A long-latency `x` result changes the agent alone. -/
theorem State.postX_eq (s : State) (r : Reg) (i : Inflight) : s.postX r i = { s with me := (s.postX r i).me } := by
  unfold State.postX
  split <;> rfl

@[simp] theorem State.postX_others (s : State) (r : Reg) (i : Inflight) : (s.postX r i).others = s.others := by rw [State.postX_eq]
@[simp] theorem State.postX_schedule (s : State) (r : Reg) (i : Inflight) : (s.postX r i).schedule = s.schedule := by rw [State.postX_eq]
@[simp] theorem State.postX_fresh (s : State) (r : Reg) (i : Inflight) : (s.postX r i).fresh = s.fresh := by rw [State.postX_eq]
@[simp] theorem State.postX_nextUid (s : State) (r : Reg) (i : Inflight) : (s.postX r i).nextUid = s.nextUid := by rw [State.postX_eq]
@[simp] theorem State.postX_now (s : State) (r : Reg) (i : Inflight) : (s.postX r i).now = s.now := by rw [State.postX_eq]
@[simp] theorem State.postX_clocks (s : State) (r : Reg) (i : Inflight) : (s.postX r i).clocks = s.clocks := by rw [State.postX_eq]
@[simp] theorem State.postX_mem (s : State) (r : Reg) (i : Inflight) : (s.postX r i).mem = s.mem := by rw [State.postX_eq]
@[simp] theorem State.postX_homes (s : State) (r : Reg) (i : Inflight) : (s.postX r i).homes = s.homes := by rw [State.postX_eq]
@[simp] theorem State.postX_counted (s : State) (r : Reg) (i : Inflight) : (s.postX r i).counted = s.counted := by rw [State.postX_eq]
@[simp] theorem State.postX_saved (s : State) (r : Reg) (i : Inflight) : (s.postX r i).saved = s.saved := by rw [State.postX_eq]
@[simp] theorem State.postX_rdc (s : State) (r : Reg) (i : Inflight) : (s.postX r i).rdc = s.rdc := by rw [State.postX_eq]
@[simp] theorem State.postX_l2 (s : State) (r : Reg) (i : Inflight) : (s.postX r i).l2 = s.l2 := by rw [State.postX_eq]
@[simp] theorem State.postX_l2clock (s : State) (r : Reg) (i : Inflight) : (s.postX r i).l2clock = s.l2clock := by rw [State.postX_eq]
@[simp] theorem State.postX_fills (s : State) (r : Reg) (i : Inflight) : (s.postX r i).fills = s.fills := by rw [State.postX_eq]
@[simp] theorem State.postX_outHits (s : State) (r : Reg) (i : Inflight) : (s.postX r i).outHits = s.outHits := by rw [State.postX_eq]
@[simp] theorem State.postX_accs (s : State) (r : Reg) (i : Inflight) : (s.postX r i).accs = s.accs := by rw [State.postX_eq]
@[simp] theorem State.postX_icache (s : State) (r : Reg) (i : Inflight) : (s.postX r i).icache = s.icache := by rw [State.postX_eq]
@[simp] theorem State.postX_dcache (s : State) (r : Reg) (i : Inflight) : (s.postX r i).dcache = s.dcache := by rw [State.postX_eq]
@[simp] theorem State.postX_tlb (s : State) (r : Reg) (i : Inflight) : (s.postX r i).tlb = s.tlb := by rw [State.postX_eq]
@[simp] theorem State.postX_reports (s : State) (r : Reg) (i : Inflight) : (s.postX r i).reports = s.reports := by rw [State.postX_eq]
@[simp] theorem State.postX_poison (s : State) (r : Reg) (i : Inflight) : (s.postX r i).poison = s.poison := by rw [State.postX_eq]
@[simp] theorem State.postX_crypt (s : State) (r : Reg) (i : Inflight) : (s.postX r i).crypt = s.crypt := by rw [State.postX_eq]
@[simp] theorem State.postX_allocs (s : State) (r : Reg) (i : Inflight) : (s.postX r i).allocs = s.allocs := by rw [State.postX_eq]
@[simp] theorem State.postX_slines (s : State) (r : Reg) (i : Inflight) : (s.postX r i).slines = s.slines := by rw [State.postX_eq]
@[simp] theorem State.postX_regions (s : State) (r : Reg) (i : Inflight) : (s.postX r i).regions = s.regions := by rw [State.postX_eq]
@[simp] theorem State.postX_rqueues (s : State) (r : Reg) (i : Inflight) : (s.postX r i).rqueues = s.rqueues := by rw [State.postX_eq]
@[simp] theorem State.postX_vifs (s : State) (r : Reg) (i : Inflight) : (s.postX r i).vifs = s.vifs := by rw [State.postX_eq]
@[simp] theorem State.postX_hostqs (s : State) (r : Reg) (i : Inflight) : (s.postX r i).hostqs = s.hostqs := by rw [State.postX_eq]
@[simp] theorem State.postX_launches (s : State) (r : Reg) (i : Inflight) : (s.postX r i).launches = s.launches := by rw [State.postX_eq]
@[simp] theorem State.postX_plans (s : State) (r : Reg) (i : Inflight) : (s.postX r i).plans = s.plans := by rw [State.postX_eq]
@[simp] theorem State.postX_nextSid (s : State) (r : Reg) (i : Inflight) : (s.postX r i).nextSid = s.nextSid := by rw [State.postX_eq]
@[simp] theorem State.postX_sats (s : State) (r : Reg) (i : Inflight) : (s.postX r i).sats = s.sats := by rw [State.postX_eq]
@[simp] theorem State.postX_gens (s : State) (r : Reg) (i : Inflight) : (s.postX r i).gens = s.gens := by rw [State.postX_eq]
@[simp] theorem State.postX_notices (s : State) (r : Reg) (i : Inflight) : (s.postX r i).notices = s.notices := by rw [State.postX_eq]
@[simp] theorem State.postX_slices (s : State) (r : Reg) (i : Inflight) : (s.postX r i).slices = s.slices := by rw [State.postX_eq]
@[simp] theorem State.postX_barrier (s : State) (r : Reg) (i : Inflight) : (s.postX r i).barrier = s.barrier := by rw [State.postX_eq]
@[simp] theorem State.postX_nextReq (s : State) (r : Reg) (i : Inflight) : (s.postX r i).nextReq = s.nextReq := by rw [State.postX_eq]
@[simp] theorem State.postX_waiting (s : State) (r : Reg) (i : Inflight) : (s.postX r i).waiting = s.waiting := by rw [State.postX_eq]
@[simp] theorem State.postX_sendq (s : State) (r : Reg) (i : Inflight) : (s.postX r i).sendq = s.sendq := by rw [State.postX_eq]
@[simp] theorem State.postX_rslots (s : State) (r : Reg) (i : Inflight) : (s.postX r i).rslots = s.rslots := by rw [State.postX_eq]
@[simp] theorem State.postX_htab (s : State) (r : Reg) (i : Inflight) : (s.postX r i).htab = s.htab := by rw [State.postX_eq]
@[simp] theorem State.postX_reqs (s : State) (r : Reg) (i : Inflight) : (s.postX r i).reqs = s.reqs := by rw [State.postX_eq]
@[simp] theorem State.postX_flights (s : State) (r : Reg) (i : Inflight) : (s.postX r i).flights = s.flights := by rw [State.postX_eq]
@[simp] theorem State.postX_seqs (s : State) (r : Reg) (i : Inflight) : (s.postX r i).seqs = s.seqs := by rw [State.postX_eq]
@[simp] theorem State.postX_buckets (s : State) (r : Reg) (i : Inflight) : (s.postX r i).buckets = s.buckets := by rw [State.postX_eq]
@[simp] theorem State.postX_ports (s : State) (r : Reg) (i : Inflight) : (s.postX r i).ports = s.ports := by rw [State.postX_eq]
@[simp] theorem State.postX_endpoints (s : State) (r : Reg) (i : Inflight) : (s.postX r i).endpoints = s.endpoints := by rw [State.postX_eq]
@[simp] theorem State.postX_secret (s : State) (r : Reg) (i : Inflight) : (s.postX r i).secret = s.secret := by rw [State.postX_eq]
@[simp] theorem State.postX_advances (s : State) (r : Reg) (i : Inflight) : (s.postX r i).advances = s.advances := by rw [State.postX_eq]
@[simp] theorem State.postX_charters (s : State) (r : Reg) (i : Inflight) : (s.postX r i).charters = s.charters := by rw [State.postX_eq]
@[simp] theorem State.postX_modules (s : State) (r : Reg) (i : Inflight) : (s.postX r i).modules = s.modules := by rw [State.postX_eq]
@[simp] theorem State.postX_deferred (s : State) (r : Reg) (i : Inflight) : (s.postX r i).deferred = s.deferred := by rw [State.postX_eq]
@[simp] theorem State.postX_inject (s : State) (r : Reg) (i : Inflight) : (s.postX r i).inject = s.inject := by rw [State.postX_eq]
@[simp] theorem State.postX_tbufs (s : State) (r : Reg) (i : Inflight) : (s.postX r i).tbufs = s.tbufs := by rw [State.postX_eq]
@[simp] theorem State.postX_tqueue (s : State) (r : Reg) (i : Inflight) : (s.postX r i).tqueue = s.tqueue := by rw [State.postX_eq]
@[simp] theorem State.postX_tcapture (s : State) (r : Reg) (i : Inflight) : (s.postX r i).tcapture = s.tcapture := by rw [State.postX_eq]
@[simp] theorem State.postX_dies (s : State) (r : Reg) (i : Inflight) : (s.postX r i).dies = s.dies := by rw [State.postX_eq]
@[simp] theorem State.postX_cores (s : State) (r : Reg) (i : Inflight) : (s.postX r i).cores = s.cores := by rw [State.postX_eq]

/-! ### An update of a core -/

@[simp] theorem State.updCore_me (s : State) (l : Loc) (f : CoreState → CoreState) : (s.updCore l f).me = s.me := rfl
@[simp] theorem State.updCore_others (s : State) (l : Loc) (f : CoreState → CoreState) : (s.updCore l f).others = s.others := rfl
@[simp] theorem State.updCore_schedule (s : State) (l : Loc) (f : CoreState → CoreState) : (s.updCore l f).schedule = s.schedule := rfl
@[simp] theorem State.updCore_fresh (s : State) (l : Loc) (f : CoreState → CoreState) : (s.updCore l f).fresh = s.fresh := rfl
@[simp] theorem State.updCore_nextUid (s : State) (l : Loc) (f : CoreState → CoreState) : (s.updCore l f).nextUid = s.nextUid := rfl
@[simp] theorem State.updCore_now (s : State) (l : Loc) (f : CoreState → CoreState) : (s.updCore l f).now = s.now := rfl
@[simp] theorem State.updCore_clocks (s : State) (l : Loc) (f : CoreState → CoreState) : (s.updCore l f).clocks = s.clocks := rfl
@[simp] theorem State.updCore_mem (s : State) (l : Loc) (f : CoreState → CoreState) : (s.updCore l f).mem = s.mem := rfl
@[simp] theorem State.updCore_homes (s : State) (l : Loc) (f : CoreState → CoreState) : (s.updCore l f).homes = s.homes := rfl
@[simp] theorem State.updCore_counted (s : State) (l : Loc) (f : CoreState → CoreState) : (s.updCore l f).counted = s.counted := rfl
@[simp] theorem State.updCore_saved (s : State) (l : Loc) (f : CoreState → CoreState) : (s.updCore l f).saved = s.saved := rfl
@[simp] theorem State.updCore_rdc (s : State) (l : Loc) (f : CoreState → CoreState) : (s.updCore l f).rdc = s.rdc := rfl
@[simp] theorem State.updCore_l2 (s : State) (l : Loc) (f : CoreState → CoreState) : (s.updCore l f).l2 = s.l2 := rfl
@[simp] theorem State.updCore_l2clock (s : State) (l : Loc) (f : CoreState → CoreState) : (s.updCore l f).l2clock = s.l2clock := rfl
@[simp] theorem State.updCore_fills (s : State) (l : Loc) (f : CoreState → CoreState) : (s.updCore l f).fills = s.fills := rfl
@[simp] theorem State.updCore_outHits (s : State) (l : Loc) (f : CoreState → CoreState) : (s.updCore l f).outHits = s.outHits := rfl
@[simp] theorem State.updCore_accs (s : State) (l : Loc) (f : CoreState → CoreState) : (s.updCore l f).accs = s.accs := rfl
@[simp] theorem State.updCore_icache (s : State) (l : Loc) (f : CoreState → CoreState) : (s.updCore l f).icache = s.icache := rfl
@[simp] theorem State.updCore_dcache (s : State) (l : Loc) (f : CoreState → CoreState) : (s.updCore l f).dcache = s.dcache := rfl
@[simp] theorem State.updCore_tlb (s : State) (l : Loc) (f : CoreState → CoreState) : (s.updCore l f).tlb = s.tlb := rfl
@[simp] theorem State.updCore_reports (s : State) (l : Loc) (f : CoreState → CoreState) : (s.updCore l f).reports = s.reports := rfl
@[simp] theorem State.updCore_poison (s : State) (l : Loc) (f : CoreState → CoreState) : (s.updCore l f).poison = s.poison := rfl
@[simp] theorem State.updCore_crypt (s : State) (l : Loc) (f : CoreState → CoreState) : (s.updCore l f).crypt = s.crypt := rfl
@[simp] theorem State.updCore_allocs (s : State) (l : Loc) (f : CoreState → CoreState) : (s.updCore l f).allocs = s.allocs := rfl
@[simp] theorem State.updCore_slines (s : State) (l : Loc) (f : CoreState → CoreState) : (s.updCore l f).slines = s.slines := rfl
@[simp] theorem State.updCore_regions (s : State) (l : Loc) (f : CoreState → CoreState) : (s.updCore l f).regions = s.regions := rfl
@[simp] theorem State.updCore_rqueues (s : State) (l : Loc) (f : CoreState → CoreState) : (s.updCore l f).rqueues = s.rqueues := rfl
@[simp] theorem State.updCore_vifs (s : State) (l : Loc) (f : CoreState → CoreState) : (s.updCore l f).vifs = s.vifs := rfl
@[simp] theorem State.updCore_hostqs (s : State) (l : Loc) (f : CoreState → CoreState) : (s.updCore l f).hostqs = s.hostqs := rfl
@[simp] theorem State.updCore_launches (s : State) (l : Loc) (f : CoreState → CoreState) : (s.updCore l f).launches = s.launches := rfl
@[simp] theorem State.updCore_plans (s : State) (l : Loc) (f : CoreState → CoreState) : (s.updCore l f).plans = s.plans := rfl
@[simp] theorem State.updCore_nextSid (s : State) (l : Loc) (f : CoreState → CoreState) : (s.updCore l f).nextSid = s.nextSid := rfl
@[simp] theorem State.updCore_sats (s : State) (l : Loc) (f : CoreState → CoreState) : (s.updCore l f).sats = s.sats := rfl
@[simp] theorem State.updCore_gens (s : State) (l : Loc) (f : CoreState → CoreState) : (s.updCore l f).gens = s.gens := rfl
@[simp] theorem State.updCore_notices (s : State) (l : Loc) (f : CoreState → CoreState) : (s.updCore l f).notices = s.notices := rfl
@[simp] theorem State.updCore_slices (s : State) (l : Loc) (f : CoreState → CoreState) : (s.updCore l f).slices = s.slices := rfl
@[simp] theorem State.updCore_barrier (s : State) (l : Loc) (f : CoreState → CoreState) : (s.updCore l f).barrier = s.barrier := rfl
@[simp] theorem State.updCore_nextReq (s : State) (l : Loc) (f : CoreState → CoreState) : (s.updCore l f).nextReq = s.nextReq := rfl
@[simp] theorem State.updCore_waiting (s : State) (l : Loc) (f : CoreState → CoreState) : (s.updCore l f).waiting = s.waiting := rfl
@[simp] theorem State.updCore_sendq (s : State) (l : Loc) (f : CoreState → CoreState) : (s.updCore l f).sendq = s.sendq := rfl
@[simp] theorem State.updCore_rslots (s : State) (l : Loc) (f : CoreState → CoreState) : (s.updCore l f).rslots = s.rslots := rfl
@[simp] theorem State.updCore_htab (s : State) (l : Loc) (f : CoreState → CoreState) : (s.updCore l f).htab = s.htab := rfl
@[simp] theorem State.updCore_reqs (s : State) (l : Loc) (f : CoreState → CoreState) : (s.updCore l f).reqs = s.reqs := rfl
@[simp] theorem State.updCore_flights (s : State) (l : Loc) (f : CoreState → CoreState) : (s.updCore l f).flights = s.flights := rfl
@[simp] theorem State.updCore_seqs (s : State) (l : Loc) (f : CoreState → CoreState) : (s.updCore l f).seqs = s.seqs := rfl
@[simp] theorem State.updCore_buckets (s : State) (l : Loc) (f : CoreState → CoreState) : (s.updCore l f).buckets = s.buckets := rfl
@[simp] theorem State.updCore_ports (s : State) (l : Loc) (f : CoreState → CoreState) : (s.updCore l f).ports = s.ports := rfl
@[simp] theorem State.updCore_endpoints (s : State) (l : Loc) (f : CoreState → CoreState) : (s.updCore l f).endpoints = s.endpoints := rfl
@[simp] theorem State.updCore_secret (s : State) (l : Loc) (f : CoreState → CoreState) : (s.updCore l f).secret = s.secret := rfl
@[simp] theorem State.updCore_advances (s : State) (l : Loc) (f : CoreState → CoreState) : (s.updCore l f).advances = s.advances := rfl
@[simp] theorem State.updCore_charters (s : State) (l : Loc) (f : CoreState → CoreState) : (s.updCore l f).charters = s.charters := rfl
@[simp] theorem State.updCore_modules (s : State) (l : Loc) (f : CoreState → CoreState) : (s.updCore l f).modules = s.modules := rfl
@[simp] theorem State.updCore_deferred (s : State) (l : Loc) (f : CoreState → CoreState) : (s.updCore l f).deferred = s.deferred := rfl
@[simp] theorem State.updCore_inject (s : State) (l : Loc) (f : CoreState → CoreState) : (s.updCore l f).inject = s.inject := rfl
@[simp] theorem State.updCore_tbufs (s : State) (l : Loc) (f : CoreState → CoreState) : (s.updCore l f).tbufs = s.tbufs := rfl
@[simp] theorem State.updCore_tqueue (s : State) (l : Loc) (f : CoreState → CoreState) : (s.updCore l f).tqueue = s.tqueue := rfl
@[simp] theorem State.updCore_tcapture (s : State) (l : Loc) (f : CoreState → CoreState) : (s.updCore l f).tcapture = s.tcapture := rfl
@[simp] theorem State.updCore_dies (s : State) (l : Loc) (f : CoreState → CoreState) : (s.updCore l f).dies = s.dies := rfl

/-! ### An update of a die -/

@[simp] theorem State.updDie_me (s : State) (m d : Nat) (f : DieState → DieState) : (s.updDie m d f).me = s.me := rfl
@[simp] theorem State.updDie_others (s : State) (m d : Nat) (f : DieState → DieState) : (s.updDie m d f).others = s.others := rfl
@[simp] theorem State.updDie_schedule (s : State) (m d : Nat) (f : DieState → DieState) : (s.updDie m d f).schedule = s.schedule := rfl
@[simp] theorem State.updDie_fresh (s : State) (m d : Nat) (f : DieState → DieState) : (s.updDie m d f).fresh = s.fresh := rfl
@[simp] theorem State.updDie_nextUid (s : State) (m d : Nat) (f : DieState → DieState) : (s.updDie m d f).nextUid = s.nextUid := rfl
@[simp] theorem State.updDie_now (s : State) (m d : Nat) (f : DieState → DieState) : (s.updDie m d f).now = s.now := rfl
@[simp] theorem State.updDie_clocks (s : State) (m d : Nat) (f : DieState → DieState) : (s.updDie m d f).clocks = s.clocks := rfl
@[simp] theorem State.updDie_mem (s : State) (m d : Nat) (f : DieState → DieState) : (s.updDie m d f).mem = s.mem := rfl
@[simp] theorem State.updDie_homes (s : State) (m d : Nat) (f : DieState → DieState) : (s.updDie m d f).homes = s.homes := rfl
@[simp] theorem State.updDie_counted (s : State) (m d : Nat) (f : DieState → DieState) : (s.updDie m d f).counted = s.counted := rfl
@[simp] theorem State.updDie_saved (s : State) (m d : Nat) (f : DieState → DieState) : (s.updDie m d f).saved = s.saved := rfl
@[simp] theorem State.updDie_rdc (s : State) (m d : Nat) (f : DieState → DieState) : (s.updDie m d f).rdc = s.rdc := rfl
@[simp] theorem State.updDie_l2 (s : State) (m d : Nat) (f : DieState → DieState) : (s.updDie m d f).l2 = s.l2 := rfl
@[simp] theorem State.updDie_l2clock (s : State) (m d : Nat) (f : DieState → DieState) : (s.updDie m d f).l2clock = s.l2clock := rfl
@[simp] theorem State.updDie_fills (s : State) (m d : Nat) (f : DieState → DieState) : (s.updDie m d f).fills = s.fills := rfl
@[simp] theorem State.updDie_outHits (s : State) (m d : Nat) (f : DieState → DieState) : (s.updDie m d f).outHits = s.outHits := rfl
@[simp] theorem State.updDie_accs (s : State) (m d : Nat) (f : DieState → DieState) : (s.updDie m d f).accs = s.accs := rfl
@[simp] theorem State.updDie_icache (s : State) (m d : Nat) (f : DieState → DieState) : (s.updDie m d f).icache = s.icache := rfl
@[simp] theorem State.updDie_dcache (s : State) (m d : Nat) (f : DieState → DieState) : (s.updDie m d f).dcache = s.dcache := rfl
@[simp] theorem State.updDie_tlb (s : State) (m d : Nat) (f : DieState → DieState) : (s.updDie m d f).tlb = s.tlb := rfl
@[simp] theorem State.updDie_reports (s : State) (m d : Nat) (f : DieState → DieState) : (s.updDie m d f).reports = s.reports := rfl
@[simp] theorem State.updDie_poison (s : State) (m d : Nat) (f : DieState → DieState) : (s.updDie m d f).poison = s.poison := rfl
@[simp] theorem State.updDie_crypt (s : State) (m d : Nat) (f : DieState → DieState) : (s.updDie m d f).crypt = s.crypt := rfl
@[simp] theorem State.updDie_allocs (s : State) (m d : Nat) (f : DieState → DieState) : (s.updDie m d f).allocs = s.allocs := rfl
@[simp] theorem State.updDie_slines (s : State) (m d : Nat) (f : DieState → DieState) : (s.updDie m d f).slines = s.slines := rfl
@[simp] theorem State.updDie_regions (s : State) (m d : Nat) (f : DieState → DieState) : (s.updDie m d f).regions = s.regions := rfl
@[simp] theorem State.updDie_rqueues (s : State) (m d : Nat) (f : DieState → DieState) : (s.updDie m d f).rqueues = s.rqueues := rfl
@[simp] theorem State.updDie_vifs (s : State) (m d : Nat) (f : DieState → DieState) : (s.updDie m d f).vifs = s.vifs := rfl
@[simp] theorem State.updDie_hostqs (s : State) (m d : Nat) (f : DieState → DieState) : (s.updDie m d f).hostqs = s.hostqs := rfl
@[simp] theorem State.updDie_launches (s : State) (m d : Nat) (f : DieState → DieState) : (s.updDie m d f).launches = s.launches := rfl
@[simp] theorem State.updDie_plans (s : State) (m d : Nat) (f : DieState → DieState) : (s.updDie m d f).plans = s.plans := rfl
@[simp] theorem State.updDie_nextSid (s : State) (m d : Nat) (f : DieState → DieState) : (s.updDie m d f).nextSid = s.nextSid := rfl
@[simp] theorem State.updDie_sats (s : State) (m d : Nat) (f : DieState → DieState) : (s.updDie m d f).sats = s.sats := rfl
@[simp] theorem State.updDie_gens (s : State) (m d : Nat) (f : DieState → DieState) : (s.updDie m d f).gens = s.gens := rfl
@[simp] theorem State.updDie_notices (s : State) (m d : Nat) (f : DieState → DieState) : (s.updDie m d f).notices = s.notices := rfl
@[simp] theorem State.updDie_slices (s : State) (m d : Nat) (f : DieState → DieState) : (s.updDie m d f).slices = s.slices := rfl
@[simp] theorem State.updDie_barrier (s : State) (m d : Nat) (f : DieState → DieState) : (s.updDie m d f).barrier = s.barrier := rfl
@[simp] theorem State.updDie_nextReq (s : State) (m d : Nat) (f : DieState → DieState) : (s.updDie m d f).nextReq = s.nextReq := rfl
@[simp] theorem State.updDie_waiting (s : State) (m d : Nat) (f : DieState → DieState) : (s.updDie m d f).waiting = s.waiting := rfl
@[simp] theorem State.updDie_sendq (s : State) (m d : Nat) (f : DieState → DieState) : (s.updDie m d f).sendq = s.sendq := rfl
@[simp] theorem State.updDie_rslots (s : State) (m d : Nat) (f : DieState → DieState) : (s.updDie m d f).rslots = s.rslots := rfl
@[simp] theorem State.updDie_htab (s : State) (m d : Nat) (f : DieState → DieState) : (s.updDie m d f).htab = s.htab := rfl
@[simp] theorem State.updDie_reqs (s : State) (m d : Nat) (f : DieState → DieState) : (s.updDie m d f).reqs = s.reqs := rfl
@[simp] theorem State.updDie_flights (s : State) (m d : Nat) (f : DieState → DieState) : (s.updDie m d f).flights = s.flights := rfl
@[simp] theorem State.updDie_seqs (s : State) (m d : Nat) (f : DieState → DieState) : (s.updDie m d f).seqs = s.seqs := rfl
@[simp] theorem State.updDie_buckets (s : State) (m d : Nat) (f : DieState → DieState) : (s.updDie m d f).buckets = s.buckets := rfl
@[simp] theorem State.updDie_ports (s : State) (m d : Nat) (f : DieState → DieState) : (s.updDie m d f).ports = s.ports := rfl
@[simp] theorem State.updDie_endpoints (s : State) (m d : Nat) (f : DieState → DieState) : (s.updDie m d f).endpoints = s.endpoints := rfl
@[simp] theorem State.updDie_secret (s : State) (m d : Nat) (f : DieState → DieState) : (s.updDie m d f).secret = s.secret := rfl
@[simp] theorem State.updDie_advances (s : State) (m d : Nat) (f : DieState → DieState) : (s.updDie m d f).advances = s.advances := rfl
@[simp] theorem State.updDie_charters (s : State) (m d : Nat) (f : DieState → DieState) : (s.updDie m d f).charters = s.charters := rfl
@[simp] theorem State.updDie_modules (s : State) (m d : Nat) (f : DieState → DieState) : (s.updDie m d f).modules = s.modules := rfl
@[simp] theorem State.updDie_deferred (s : State) (m d : Nat) (f : DieState → DieState) : (s.updDie m d f).deferred = s.deferred := rfl
@[simp] theorem State.updDie_inject (s : State) (m d : Nat) (f : DieState → DieState) : (s.updDie m d f).inject = s.inject := rfl
@[simp] theorem State.updDie_tbufs (s : State) (m d : Nat) (f : DieState → DieState) : (s.updDie m d f).tbufs = s.tbufs := rfl
@[simp] theorem State.updDie_tqueue (s : State) (m d : Nat) (f : DieState → DieState) : (s.updDie m d f).tqueue = s.tqueue := rfl
@[simp] theorem State.updDie_tcapture (s : State) (m d : Nat) (f : DieState → DieState) : (s.updDie m d f).tcapture = s.tcapture := rfl
@[simp] theorem State.updDie_cores (s : State) (m d : Nat) (f : DieState → DieState) : (s.updDie m d f).cores = s.cores := rfl

/-! ### An update of a module -/

@[simp] theorem State.updModule_me (s : State) (m : Nat) (f : ModuleState → ModuleState) : (s.updModule m f).me = s.me := rfl
@[simp] theorem State.updModule_others (s : State) (m : Nat) (f : ModuleState → ModuleState) : (s.updModule m f).others = s.others := rfl
@[simp] theorem State.updModule_schedule (s : State) (m : Nat) (f : ModuleState → ModuleState) : (s.updModule m f).schedule = s.schedule := rfl
@[simp] theorem State.updModule_fresh (s : State) (m : Nat) (f : ModuleState → ModuleState) : (s.updModule m f).fresh = s.fresh := rfl
@[simp] theorem State.updModule_nextUid (s : State) (m : Nat) (f : ModuleState → ModuleState) : (s.updModule m f).nextUid = s.nextUid := rfl
@[simp] theorem State.updModule_now (s : State) (m : Nat) (f : ModuleState → ModuleState) : (s.updModule m f).now = s.now := rfl
@[simp] theorem State.updModule_clocks (s : State) (m : Nat) (f : ModuleState → ModuleState) : (s.updModule m f).clocks = s.clocks := rfl
@[simp] theorem State.updModule_mem (s : State) (m : Nat) (f : ModuleState → ModuleState) : (s.updModule m f).mem = s.mem := rfl
@[simp] theorem State.updModule_homes (s : State) (m : Nat) (f : ModuleState → ModuleState) : (s.updModule m f).homes = s.homes := rfl
@[simp] theorem State.updModule_counted (s : State) (m : Nat) (f : ModuleState → ModuleState) : (s.updModule m f).counted = s.counted := rfl
@[simp] theorem State.updModule_saved (s : State) (m : Nat) (f : ModuleState → ModuleState) : (s.updModule m f).saved = s.saved := rfl
@[simp] theorem State.updModule_rdc (s : State) (m : Nat) (f : ModuleState → ModuleState) : (s.updModule m f).rdc = s.rdc := rfl
@[simp] theorem State.updModule_l2 (s : State) (m : Nat) (f : ModuleState → ModuleState) : (s.updModule m f).l2 = s.l2 := rfl
@[simp] theorem State.updModule_l2clock (s : State) (m : Nat) (f : ModuleState → ModuleState) : (s.updModule m f).l2clock = s.l2clock := rfl
@[simp] theorem State.updModule_fills (s : State) (m : Nat) (f : ModuleState → ModuleState) : (s.updModule m f).fills = s.fills := rfl
@[simp] theorem State.updModule_outHits (s : State) (m : Nat) (f : ModuleState → ModuleState) : (s.updModule m f).outHits = s.outHits := rfl
@[simp] theorem State.updModule_accs (s : State) (m : Nat) (f : ModuleState → ModuleState) : (s.updModule m f).accs = s.accs := rfl
@[simp] theorem State.updModule_icache (s : State) (m : Nat) (f : ModuleState → ModuleState) : (s.updModule m f).icache = s.icache := rfl
@[simp] theorem State.updModule_dcache (s : State) (m : Nat) (f : ModuleState → ModuleState) : (s.updModule m f).dcache = s.dcache := rfl
@[simp] theorem State.updModule_tlb (s : State) (m : Nat) (f : ModuleState → ModuleState) : (s.updModule m f).tlb = s.tlb := rfl
@[simp] theorem State.updModule_reports (s : State) (m : Nat) (f : ModuleState → ModuleState) : (s.updModule m f).reports = s.reports := rfl
@[simp] theorem State.updModule_poison (s : State) (m : Nat) (f : ModuleState → ModuleState) : (s.updModule m f).poison = s.poison := rfl
@[simp] theorem State.updModule_crypt (s : State) (m : Nat) (f : ModuleState → ModuleState) : (s.updModule m f).crypt = s.crypt := rfl
@[simp] theorem State.updModule_allocs (s : State) (m : Nat) (f : ModuleState → ModuleState) : (s.updModule m f).allocs = s.allocs := rfl
@[simp] theorem State.updModule_slines (s : State) (m : Nat) (f : ModuleState → ModuleState) : (s.updModule m f).slines = s.slines := rfl
@[simp] theorem State.updModule_regions (s : State) (m : Nat) (f : ModuleState → ModuleState) : (s.updModule m f).regions = s.regions := rfl
@[simp] theorem State.updModule_rqueues (s : State) (m : Nat) (f : ModuleState → ModuleState) : (s.updModule m f).rqueues = s.rqueues := rfl
@[simp] theorem State.updModule_vifs (s : State) (m : Nat) (f : ModuleState → ModuleState) : (s.updModule m f).vifs = s.vifs := rfl
@[simp] theorem State.updModule_hostqs (s : State) (m : Nat) (f : ModuleState → ModuleState) : (s.updModule m f).hostqs = s.hostqs := rfl
@[simp] theorem State.updModule_launches (s : State) (m : Nat) (f : ModuleState → ModuleState) : (s.updModule m f).launches = s.launches := rfl
@[simp] theorem State.updModule_plans (s : State) (m : Nat) (f : ModuleState → ModuleState) : (s.updModule m f).plans = s.plans := rfl
@[simp] theorem State.updModule_nextSid (s : State) (m : Nat) (f : ModuleState → ModuleState) : (s.updModule m f).nextSid = s.nextSid := rfl
@[simp] theorem State.updModule_sats (s : State) (m : Nat) (f : ModuleState → ModuleState) : (s.updModule m f).sats = s.sats := rfl
@[simp] theorem State.updModule_gens (s : State) (m : Nat) (f : ModuleState → ModuleState) : (s.updModule m f).gens = s.gens := rfl
@[simp] theorem State.updModule_notices (s : State) (m : Nat) (f : ModuleState → ModuleState) : (s.updModule m f).notices = s.notices := rfl
@[simp] theorem State.updModule_slices (s : State) (m : Nat) (f : ModuleState → ModuleState) : (s.updModule m f).slices = s.slices := rfl
@[simp] theorem State.updModule_barrier (s : State) (m : Nat) (f : ModuleState → ModuleState) : (s.updModule m f).barrier = s.barrier := rfl
@[simp] theorem State.updModule_nextReq (s : State) (m : Nat) (f : ModuleState → ModuleState) : (s.updModule m f).nextReq = s.nextReq := rfl
@[simp] theorem State.updModule_waiting (s : State) (m : Nat) (f : ModuleState → ModuleState) : (s.updModule m f).waiting = s.waiting := rfl
@[simp] theorem State.updModule_sendq (s : State) (m : Nat) (f : ModuleState → ModuleState) : (s.updModule m f).sendq = s.sendq := rfl
@[simp] theorem State.updModule_rslots (s : State) (m : Nat) (f : ModuleState → ModuleState) : (s.updModule m f).rslots = s.rslots := rfl
@[simp] theorem State.updModule_htab (s : State) (m : Nat) (f : ModuleState → ModuleState) : (s.updModule m f).htab = s.htab := rfl
@[simp] theorem State.updModule_reqs (s : State) (m : Nat) (f : ModuleState → ModuleState) : (s.updModule m f).reqs = s.reqs := rfl
@[simp] theorem State.updModule_flights (s : State) (m : Nat) (f : ModuleState → ModuleState) : (s.updModule m f).flights = s.flights := rfl
@[simp] theorem State.updModule_seqs (s : State) (m : Nat) (f : ModuleState → ModuleState) : (s.updModule m f).seqs = s.seqs := rfl
@[simp] theorem State.updModule_buckets (s : State) (m : Nat) (f : ModuleState → ModuleState) : (s.updModule m f).buckets = s.buckets := rfl
@[simp] theorem State.updModule_ports (s : State) (m : Nat) (f : ModuleState → ModuleState) : (s.updModule m f).ports = s.ports := rfl
@[simp] theorem State.updModule_endpoints (s : State) (m : Nat) (f : ModuleState → ModuleState) : (s.updModule m f).endpoints = s.endpoints := rfl
@[simp] theorem State.updModule_secret (s : State) (m : Nat) (f : ModuleState → ModuleState) : (s.updModule m f).secret = s.secret := rfl
@[simp] theorem State.updModule_advances (s : State) (m : Nat) (f : ModuleState → ModuleState) : (s.updModule m f).advances = s.advances := rfl
@[simp] theorem State.updModule_charters (s : State) (m : Nat) (f : ModuleState → ModuleState) : (s.updModule m f).charters = s.charters := rfl
@[simp] theorem State.updModule_deferred (s : State) (m : Nat) (f : ModuleState → ModuleState) : (s.updModule m f).deferred = s.deferred := rfl
@[simp] theorem State.updModule_inject (s : State) (m : Nat) (f : ModuleState → ModuleState) : (s.updModule m f).inject = s.inject := rfl
@[simp] theorem State.updModule_tbufs (s : State) (m : Nat) (f : ModuleState → ModuleState) : (s.updModule m f).tbufs = s.tbufs := rfl
@[simp] theorem State.updModule_tqueue (s : State) (m : Nat) (f : ModuleState → ModuleState) : (s.updModule m f).tqueue = s.tqueue := rfl
@[simp] theorem State.updModule_tcapture (s : State) (m : Nat) (f : ModuleState → ModuleState) : (s.updModule m f).tcapture = s.tcapture := rfl
@[simp] theorem State.updModule_dies (s : State) (m : Nat) (f : ModuleState → ModuleState) : (s.updModule m f).dies = s.dies := rfl
@[simp] theorem State.updModule_cores (s : State) (m : Nat) (f : ModuleState → ModuleState) : (s.updModule m f).cores = s.cores := rfl

/-! ### An update of a region -/

@[simp] theorem State.updRegion_me (s : State) (m r : Nat) (f : Region → Region) : (s.updRegion m r f).me = s.me := rfl
@[simp] theorem State.updRegion_others (s : State) (m r : Nat) (f : Region → Region) : (s.updRegion m r f).others = s.others := rfl
@[simp] theorem State.updRegion_schedule (s : State) (m r : Nat) (f : Region → Region) : (s.updRegion m r f).schedule = s.schedule := rfl
@[simp] theorem State.updRegion_fresh (s : State) (m r : Nat) (f : Region → Region) : (s.updRegion m r f).fresh = s.fresh := rfl
@[simp] theorem State.updRegion_nextUid (s : State) (m r : Nat) (f : Region → Region) : (s.updRegion m r f).nextUid = s.nextUid := rfl
@[simp] theorem State.updRegion_now (s : State) (m r : Nat) (f : Region → Region) : (s.updRegion m r f).now = s.now := rfl
@[simp] theorem State.updRegion_clocks (s : State) (m r : Nat) (f : Region → Region) : (s.updRegion m r f).clocks = s.clocks := rfl
@[simp] theorem State.updRegion_mem (s : State) (m r : Nat) (f : Region → Region) : (s.updRegion m r f).mem = s.mem := rfl
@[simp] theorem State.updRegion_homes (s : State) (m r : Nat) (f : Region → Region) : (s.updRegion m r f).homes = s.homes := rfl
@[simp] theorem State.updRegion_counted (s : State) (m r : Nat) (f : Region → Region) : (s.updRegion m r f).counted = s.counted := rfl
@[simp] theorem State.updRegion_saved (s : State) (m r : Nat) (f : Region → Region) : (s.updRegion m r f).saved = s.saved := rfl
@[simp] theorem State.updRegion_rdc (s : State) (m r : Nat) (f : Region → Region) : (s.updRegion m r f).rdc = s.rdc := rfl
@[simp] theorem State.updRegion_l2 (s : State) (m r : Nat) (f : Region → Region) : (s.updRegion m r f).l2 = s.l2 := rfl
@[simp] theorem State.updRegion_l2clock (s : State) (m r : Nat) (f : Region → Region) : (s.updRegion m r f).l2clock = s.l2clock := rfl
@[simp] theorem State.updRegion_fills (s : State) (m r : Nat) (f : Region → Region) : (s.updRegion m r f).fills = s.fills := rfl
@[simp] theorem State.updRegion_outHits (s : State) (m r : Nat) (f : Region → Region) : (s.updRegion m r f).outHits = s.outHits := rfl
@[simp] theorem State.updRegion_accs (s : State) (m r : Nat) (f : Region → Region) : (s.updRegion m r f).accs = s.accs := rfl
@[simp] theorem State.updRegion_icache (s : State) (m r : Nat) (f : Region → Region) : (s.updRegion m r f).icache = s.icache := rfl
@[simp] theorem State.updRegion_dcache (s : State) (m r : Nat) (f : Region → Region) : (s.updRegion m r f).dcache = s.dcache := rfl
@[simp] theorem State.updRegion_tlb (s : State) (m r : Nat) (f : Region → Region) : (s.updRegion m r f).tlb = s.tlb := rfl
@[simp] theorem State.updRegion_reports (s : State) (m r : Nat) (f : Region → Region) : (s.updRegion m r f).reports = s.reports := rfl
@[simp] theorem State.updRegion_poison (s : State) (m r : Nat) (f : Region → Region) : (s.updRegion m r f).poison = s.poison := rfl
@[simp] theorem State.updRegion_crypt (s : State) (m r : Nat) (f : Region → Region) : (s.updRegion m r f).crypt = s.crypt := rfl
@[simp] theorem State.updRegion_allocs (s : State) (m r : Nat) (f : Region → Region) : (s.updRegion m r f).allocs = s.allocs := rfl
@[simp] theorem State.updRegion_slines (s : State) (m r : Nat) (f : Region → Region) : (s.updRegion m r f).slines = s.slines := rfl
@[simp] theorem State.updRegion_rqueues (s : State) (m r : Nat) (f : Region → Region) : (s.updRegion m r f).rqueues = s.rqueues := rfl
@[simp] theorem State.updRegion_vifs (s : State) (m r : Nat) (f : Region → Region) : (s.updRegion m r f).vifs = s.vifs := rfl
@[simp] theorem State.updRegion_hostqs (s : State) (m r : Nat) (f : Region → Region) : (s.updRegion m r f).hostqs = s.hostqs := rfl
@[simp] theorem State.updRegion_launches (s : State) (m r : Nat) (f : Region → Region) : (s.updRegion m r f).launches = s.launches := rfl
@[simp] theorem State.updRegion_plans (s : State) (m r : Nat) (f : Region → Region) : (s.updRegion m r f).plans = s.plans := rfl
@[simp] theorem State.updRegion_nextSid (s : State) (m r : Nat) (f : Region → Region) : (s.updRegion m r f).nextSid = s.nextSid := rfl
@[simp] theorem State.updRegion_sats (s : State) (m r : Nat) (f : Region → Region) : (s.updRegion m r f).sats = s.sats := rfl
@[simp] theorem State.updRegion_gens (s : State) (m r : Nat) (f : Region → Region) : (s.updRegion m r f).gens = s.gens := rfl
@[simp] theorem State.updRegion_notices (s : State) (m r : Nat) (f : Region → Region) : (s.updRegion m r f).notices = s.notices := rfl
@[simp] theorem State.updRegion_slices (s : State) (m r : Nat) (f : Region → Region) : (s.updRegion m r f).slices = s.slices := rfl
@[simp] theorem State.updRegion_barrier (s : State) (m r : Nat) (f : Region → Region) : (s.updRegion m r f).barrier = s.barrier := rfl
@[simp] theorem State.updRegion_nextReq (s : State) (m r : Nat) (f : Region → Region) : (s.updRegion m r f).nextReq = s.nextReq := rfl
@[simp] theorem State.updRegion_waiting (s : State) (m r : Nat) (f : Region → Region) : (s.updRegion m r f).waiting = s.waiting := rfl
@[simp] theorem State.updRegion_sendq (s : State) (m r : Nat) (f : Region → Region) : (s.updRegion m r f).sendq = s.sendq := rfl
@[simp] theorem State.updRegion_rslots (s : State) (m r : Nat) (f : Region → Region) : (s.updRegion m r f).rslots = s.rslots := rfl
@[simp] theorem State.updRegion_htab (s : State) (m r : Nat) (f : Region → Region) : (s.updRegion m r f).htab = s.htab := rfl
@[simp] theorem State.updRegion_reqs (s : State) (m r : Nat) (f : Region → Region) : (s.updRegion m r f).reqs = s.reqs := rfl
@[simp] theorem State.updRegion_flights (s : State) (m r : Nat) (f : Region → Region) : (s.updRegion m r f).flights = s.flights := rfl
@[simp] theorem State.updRegion_seqs (s : State) (m r : Nat) (f : Region → Region) : (s.updRegion m r f).seqs = s.seqs := rfl
@[simp] theorem State.updRegion_buckets (s : State) (m r : Nat) (f : Region → Region) : (s.updRegion m r f).buckets = s.buckets := rfl
@[simp] theorem State.updRegion_ports (s : State) (m r : Nat) (f : Region → Region) : (s.updRegion m r f).ports = s.ports := rfl
@[simp] theorem State.updRegion_endpoints (s : State) (m r : Nat) (f : Region → Region) : (s.updRegion m r f).endpoints = s.endpoints := rfl
@[simp] theorem State.updRegion_secret (s : State) (m r : Nat) (f : Region → Region) : (s.updRegion m r f).secret = s.secret := rfl
@[simp] theorem State.updRegion_advances (s : State) (m r : Nat) (f : Region → Region) : (s.updRegion m r f).advances = s.advances := rfl
@[simp] theorem State.updRegion_charters (s : State) (m r : Nat) (f : Region → Region) : (s.updRegion m r f).charters = s.charters := rfl
@[simp] theorem State.updRegion_modules (s : State) (m r : Nat) (f : Region → Region) : (s.updRegion m r f).modules = s.modules := rfl
@[simp] theorem State.updRegion_deferred (s : State) (m r : Nat) (f : Region → Region) : (s.updRegion m r f).deferred = s.deferred := rfl
@[simp] theorem State.updRegion_inject (s : State) (m r : Nat) (f : Region → Region) : (s.updRegion m r f).inject = s.inject := rfl
@[simp] theorem State.updRegion_tbufs (s : State) (m r : Nat) (f : Region → Region) : (s.updRegion m r f).tbufs = s.tbufs := rfl
@[simp] theorem State.updRegion_tqueue (s : State) (m r : Nat) (f : Region → Region) : (s.updRegion m r f).tqueue = s.tqueue := rfl
@[simp] theorem State.updRegion_tcapture (s : State) (m r : Nat) (f : Region → Region) : (s.updRegion m r f).tcapture = s.tcapture := rfl
@[simp] theorem State.updRegion_dies (s : State) (m r : Nat) (f : Region → Region) : (s.updRegion m r f).dies = s.dies := rfl
@[simp] theorem State.updRegion_cores (s : State) (m r : Nat) (f : Region → Region) : (s.updRegion m r f).cores = s.cores := rfl

/-! ### An update of a satellite -/

@[simp] theorem State.updSat_me (s : State) (n : Nat) (f : Sat → Sat) : (s.updSat n f).me = s.me := rfl
@[simp] theorem State.updSat_others (s : State) (n : Nat) (f : Sat → Sat) : (s.updSat n f).others = s.others := rfl
@[simp] theorem State.updSat_schedule (s : State) (n : Nat) (f : Sat → Sat) : (s.updSat n f).schedule = s.schedule := rfl
@[simp] theorem State.updSat_fresh (s : State) (n : Nat) (f : Sat → Sat) : (s.updSat n f).fresh = s.fresh := rfl
@[simp] theorem State.updSat_nextUid (s : State) (n : Nat) (f : Sat → Sat) : (s.updSat n f).nextUid = s.nextUid := rfl
@[simp] theorem State.updSat_now (s : State) (n : Nat) (f : Sat → Sat) : (s.updSat n f).now = s.now := rfl
@[simp] theorem State.updSat_clocks (s : State) (n : Nat) (f : Sat → Sat) : (s.updSat n f).clocks = s.clocks := rfl
@[simp] theorem State.updSat_mem (s : State) (n : Nat) (f : Sat → Sat) : (s.updSat n f).mem = s.mem := rfl
@[simp] theorem State.updSat_homes (s : State) (n : Nat) (f : Sat → Sat) : (s.updSat n f).homes = s.homes := rfl
@[simp] theorem State.updSat_counted (s : State) (n : Nat) (f : Sat → Sat) : (s.updSat n f).counted = s.counted := rfl
@[simp] theorem State.updSat_saved (s : State) (n : Nat) (f : Sat → Sat) : (s.updSat n f).saved = s.saved := rfl
@[simp] theorem State.updSat_rdc (s : State) (n : Nat) (f : Sat → Sat) : (s.updSat n f).rdc = s.rdc := rfl
@[simp] theorem State.updSat_l2 (s : State) (n : Nat) (f : Sat → Sat) : (s.updSat n f).l2 = s.l2 := rfl
@[simp] theorem State.updSat_l2clock (s : State) (n : Nat) (f : Sat → Sat) : (s.updSat n f).l2clock = s.l2clock := rfl
@[simp] theorem State.updSat_fills (s : State) (n : Nat) (f : Sat → Sat) : (s.updSat n f).fills = s.fills := rfl
@[simp] theorem State.updSat_outHits (s : State) (n : Nat) (f : Sat → Sat) : (s.updSat n f).outHits = s.outHits := rfl
@[simp] theorem State.updSat_accs (s : State) (n : Nat) (f : Sat → Sat) : (s.updSat n f).accs = s.accs := rfl
@[simp] theorem State.updSat_icache (s : State) (n : Nat) (f : Sat → Sat) : (s.updSat n f).icache = s.icache := rfl
@[simp] theorem State.updSat_dcache (s : State) (n : Nat) (f : Sat → Sat) : (s.updSat n f).dcache = s.dcache := rfl
@[simp] theorem State.updSat_tlb (s : State) (n : Nat) (f : Sat → Sat) : (s.updSat n f).tlb = s.tlb := rfl
@[simp] theorem State.updSat_reports (s : State) (n : Nat) (f : Sat → Sat) : (s.updSat n f).reports = s.reports := rfl
@[simp] theorem State.updSat_poison (s : State) (n : Nat) (f : Sat → Sat) : (s.updSat n f).poison = s.poison := rfl
@[simp] theorem State.updSat_crypt (s : State) (n : Nat) (f : Sat → Sat) : (s.updSat n f).crypt = s.crypt := rfl
@[simp] theorem State.updSat_allocs (s : State) (n : Nat) (f : Sat → Sat) : (s.updSat n f).allocs = s.allocs := rfl
@[simp] theorem State.updSat_slines (s : State) (n : Nat) (f : Sat → Sat) : (s.updSat n f).slines = s.slines := rfl
@[simp] theorem State.updSat_regions (s : State) (n : Nat) (f : Sat → Sat) : (s.updSat n f).regions = s.regions := rfl
@[simp] theorem State.updSat_rqueues (s : State) (n : Nat) (f : Sat → Sat) : (s.updSat n f).rqueues = s.rqueues := rfl
@[simp] theorem State.updSat_vifs (s : State) (n : Nat) (f : Sat → Sat) : (s.updSat n f).vifs = s.vifs := rfl
@[simp] theorem State.updSat_hostqs (s : State) (n : Nat) (f : Sat → Sat) : (s.updSat n f).hostqs = s.hostqs := rfl
@[simp] theorem State.updSat_launches (s : State) (n : Nat) (f : Sat → Sat) : (s.updSat n f).launches = s.launches := rfl
@[simp] theorem State.updSat_plans (s : State) (n : Nat) (f : Sat → Sat) : (s.updSat n f).plans = s.plans := rfl
@[simp] theorem State.updSat_nextSid (s : State) (n : Nat) (f : Sat → Sat) : (s.updSat n f).nextSid = s.nextSid := rfl
@[simp] theorem State.updSat_gens (s : State) (n : Nat) (f : Sat → Sat) : (s.updSat n f).gens = s.gens := rfl
@[simp] theorem State.updSat_notices (s : State) (n : Nat) (f : Sat → Sat) : (s.updSat n f).notices = s.notices := rfl
@[simp] theorem State.updSat_slices (s : State) (n : Nat) (f : Sat → Sat) : (s.updSat n f).slices = s.slices := rfl
@[simp] theorem State.updSat_barrier (s : State) (n : Nat) (f : Sat → Sat) : (s.updSat n f).barrier = s.barrier := rfl
@[simp] theorem State.updSat_nextReq (s : State) (n : Nat) (f : Sat → Sat) : (s.updSat n f).nextReq = s.nextReq := rfl
@[simp] theorem State.updSat_waiting (s : State) (n : Nat) (f : Sat → Sat) : (s.updSat n f).waiting = s.waiting := rfl
@[simp] theorem State.updSat_sendq (s : State) (n : Nat) (f : Sat → Sat) : (s.updSat n f).sendq = s.sendq := rfl
@[simp] theorem State.updSat_rslots (s : State) (n : Nat) (f : Sat → Sat) : (s.updSat n f).rslots = s.rslots := rfl
@[simp] theorem State.updSat_htab (s : State) (n : Nat) (f : Sat → Sat) : (s.updSat n f).htab = s.htab := rfl
@[simp] theorem State.updSat_reqs (s : State) (n : Nat) (f : Sat → Sat) : (s.updSat n f).reqs = s.reqs := rfl
@[simp] theorem State.updSat_flights (s : State) (n : Nat) (f : Sat → Sat) : (s.updSat n f).flights = s.flights := rfl
@[simp] theorem State.updSat_seqs (s : State) (n : Nat) (f : Sat → Sat) : (s.updSat n f).seqs = s.seqs := rfl
@[simp] theorem State.updSat_buckets (s : State) (n : Nat) (f : Sat → Sat) : (s.updSat n f).buckets = s.buckets := rfl
@[simp] theorem State.updSat_ports (s : State) (n : Nat) (f : Sat → Sat) : (s.updSat n f).ports = s.ports := rfl
@[simp] theorem State.updSat_endpoints (s : State) (n : Nat) (f : Sat → Sat) : (s.updSat n f).endpoints = s.endpoints := rfl
@[simp] theorem State.updSat_secret (s : State) (n : Nat) (f : Sat → Sat) : (s.updSat n f).secret = s.secret := rfl
@[simp] theorem State.updSat_advances (s : State) (n : Nat) (f : Sat → Sat) : (s.updSat n f).advances = s.advances := rfl
@[simp] theorem State.updSat_charters (s : State) (n : Nat) (f : Sat → Sat) : (s.updSat n f).charters = s.charters := rfl
@[simp] theorem State.updSat_modules (s : State) (n : Nat) (f : Sat → Sat) : (s.updSat n f).modules = s.modules := rfl
@[simp] theorem State.updSat_deferred (s : State) (n : Nat) (f : Sat → Sat) : (s.updSat n f).deferred = s.deferred := rfl
@[simp] theorem State.updSat_inject (s : State) (n : Nat) (f : Sat → Sat) : (s.updSat n f).inject = s.inject := rfl
@[simp] theorem State.updSat_tbufs (s : State) (n : Nat) (f : Sat → Sat) : (s.updSat n f).tbufs = s.tbufs := rfl
@[simp] theorem State.updSat_tqueue (s : State) (n : Nat) (f : Sat → Sat) : (s.updSat n f).tqueue = s.tqueue := rfl
@[simp] theorem State.updSat_tcapture (s : State) (n : Nat) (f : Sat → Sat) : (s.updSat n f).tcapture = s.tcapture := rfl
@[simp] theorem State.updSat_dies (s : State) (n : Nat) (f : Sat → Sat) : (s.updSat n f).dies = s.dies := rfl
@[simp] theorem State.updSat_cores (s : State) (n : Nat) (f : Sat → Sat) : (s.updSat n f).cores = s.cores := rfl

/-! ### An update of memory -/

@[simp] theorem State.poke_me (s : State) (ep pa : Nat) (bs : List Byte) : (s.poke ep pa bs).me = s.me := rfl
@[simp] theorem State.poke_others (s : State) (ep pa : Nat) (bs : List Byte) : (s.poke ep pa bs).others = s.others := rfl
@[simp] theorem State.poke_schedule (s : State) (ep pa : Nat) (bs : List Byte) : (s.poke ep pa bs).schedule = s.schedule := rfl
@[simp] theorem State.poke_fresh (s : State) (ep pa : Nat) (bs : List Byte) : (s.poke ep pa bs).fresh = s.fresh := rfl
@[simp] theorem State.poke_nextUid (s : State) (ep pa : Nat) (bs : List Byte) : (s.poke ep pa bs).nextUid = s.nextUid := rfl
@[simp] theorem State.poke_now (s : State) (ep pa : Nat) (bs : List Byte) : (s.poke ep pa bs).now = s.now := rfl
@[simp] theorem State.poke_clocks (s : State) (ep pa : Nat) (bs : List Byte) : (s.poke ep pa bs).clocks = s.clocks := rfl
@[simp] theorem State.poke_homes (s : State) (ep pa : Nat) (bs : List Byte) : (s.poke ep pa bs).homes = s.homes := rfl
@[simp] theorem State.poke_counted (s : State) (ep pa : Nat) (bs : List Byte) : (s.poke ep pa bs).counted = s.counted := rfl
@[simp] theorem State.poke_saved (s : State) (ep pa : Nat) (bs : List Byte) : (s.poke ep pa bs).saved = s.saved := rfl
@[simp] theorem State.poke_rdc (s : State) (ep pa : Nat) (bs : List Byte) : (s.poke ep pa bs).rdc = s.rdc := rfl
@[simp] theorem State.poke_l2 (s : State) (ep pa : Nat) (bs : List Byte) : (s.poke ep pa bs).l2 = s.l2 := rfl
@[simp] theorem State.poke_l2clock (s : State) (ep pa : Nat) (bs : List Byte) : (s.poke ep pa bs).l2clock = s.l2clock := rfl
@[simp] theorem State.poke_fills (s : State) (ep pa : Nat) (bs : List Byte) : (s.poke ep pa bs).fills = s.fills := rfl
@[simp] theorem State.poke_outHits (s : State) (ep pa : Nat) (bs : List Byte) : (s.poke ep pa bs).outHits = s.outHits := rfl
@[simp] theorem State.poke_accs (s : State) (ep pa : Nat) (bs : List Byte) : (s.poke ep pa bs).accs = s.accs := rfl
@[simp] theorem State.poke_icache (s : State) (ep pa : Nat) (bs : List Byte) : (s.poke ep pa bs).icache = s.icache := rfl
@[simp] theorem State.poke_tlb (s : State) (ep pa : Nat) (bs : List Byte) : (s.poke ep pa bs).tlb = s.tlb := rfl
@[simp] theorem State.poke_reports (s : State) (ep pa : Nat) (bs : List Byte) : (s.poke ep pa bs).reports = s.reports := rfl
@[simp] theorem State.poke_poison (s : State) (ep pa : Nat) (bs : List Byte) : (s.poke ep pa bs).poison = s.poison := rfl
@[simp] theorem State.poke_crypt (s : State) (ep pa : Nat) (bs : List Byte) : (s.poke ep pa bs).crypt = s.crypt := rfl
@[simp] theorem State.poke_allocs (s : State) (ep pa : Nat) (bs : List Byte) : (s.poke ep pa bs).allocs = s.allocs := rfl
@[simp] theorem State.poke_slines (s : State) (ep pa : Nat) (bs : List Byte) : (s.poke ep pa bs).slines = s.slines := rfl
@[simp] theorem State.poke_regions (s : State) (ep pa : Nat) (bs : List Byte) : (s.poke ep pa bs).regions = s.regions := rfl
@[simp] theorem State.poke_rqueues (s : State) (ep pa : Nat) (bs : List Byte) : (s.poke ep pa bs).rqueues = s.rqueues := rfl
@[simp] theorem State.poke_vifs (s : State) (ep pa : Nat) (bs : List Byte) : (s.poke ep pa bs).vifs = s.vifs := rfl
@[simp] theorem State.poke_hostqs (s : State) (ep pa : Nat) (bs : List Byte) : (s.poke ep pa bs).hostqs = s.hostqs := rfl
@[simp] theorem State.poke_launches (s : State) (ep pa : Nat) (bs : List Byte) : (s.poke ep pa bs).launches = s.launches := rfl
@[simp] theorem State.poke_plans (s : State) (ep pa : Nat) (bs : List Byte) : (s.poke ep pa bs).plans = s.plans := rfl
@[simp] theorem State.poke_nextSid (s : State) (ep pa : Nat) (bs : List Byte) : (s.poke ep pa bs).nextSid = s.nextSid := rfl
@[simp] theorem State.poke_sats (s : State) (ep pa : Nat) (bs : List Byte) : (s.poke ep pa bs).sats = s.sats := rfl
@[simp] theorem State.poke_gens (s : State) (ep pa : Nat) (bs : List Byte) : (s.poke ep pa bs).gens = s.gens := rfl
@[simp] theorem State.poke_notices (s : State) (ep pa : Nat) (bs : List Byte) : (s.poke ep pa bs).notices = s.notices := rfl
@[simp] theorem State.poke_slices (s : State) (ep pa : Nat) (bs : List Byte) : (s.poke ep pa bs).slices = s.slices := rfl
@[simp] theorem State.poke_barrier (s : State) (ep pa : Nat) (bs : List Byte) : (s.poke ep pa bs).barrier = s.barrier := rfl
@[simp] theorem State.poke_nextReq (s : State) (ep pa : Nat) (bs : List Byte) : (s.poke ep pa bs).nextReq = s.nextReq := rfl
@[simp] theorem State.poke_waiting (s : State) (ep pa : Nat) (bs : List Byte) : (s.poke ep pa bs).waiting = s.waiting := rfl
@[simp] theorem State.poke_sendq (s : State) (ep pa : Nat) (bs : List Byte) : (s.poke ep pa bs).sendq = s.sendq := rfl
@[simp] theorem State.poke_rslots (s : State) (ep pa : Nat) (bs : List Byte) : (s.poke ep pa bs).rslots = s.rslots := rfl
@[simp] theorem State.poke_htab (s : State) (ep pa : Nat) (bs : List Byte) : (s.poke ep pa bs).htab = s.htab := rfl
@[simp] theorem State.poke_reqs (s : State) (ep pa : Nat) (bs : List Byte) : (s.poke ep pa bs).reqs = s.reqs := rfl
@[simp] theorem State.poke_flights (s : State) (ep pa : Nat) (bs : List Byte) : (s.poke ep pa bs).flights = s.flights := rfl
@[simp] theorem State.poke_seqs (s : State) (ep pa : Nat) (bs : List Byte) : (s.poke ep pa bs).seqs = s.seqs := rfl
@[simp] theorem State.poke_buckets (s : State) (ep pa : Nat) (bs : List Byte) : (s.poke ep pa bs).buckets = s.buckets := rfl
@[simp] theorem State.poke_ports (s : State) (ep pa : Nat) (bs : List Byte) : (s.poke ep pa bs).ports = s.ports := rfl
@[simp] theorem State.poke_endpoints (s : State) (ep pa : Nat) (bs : List Byte) : (s.poke ep pa bs).endpoints = s.endpoints := rfl
@[simp] theorem State.poke_secret (s : State) (ep pa : Nat) (bs : List Byte) : (s.poke ep pa bs).secret = s.secret := rfl
@[simp] theorem State.poke_advances (s : State) (ep pa : Nat) (bs : List Byte) : (s.poke ep pa bs).advances = s.advances := rfl
@[simp] theorem State.poke_charters (s : State) (ep pa : Nat) (bs : List Byte) : (s.poke ep pa bs).charters = s.charters := rfl
@[simp] theorem State.poke_modules (s : State) (ep pa : Nat) (bs : List Byte) : (s.poke ep pa bs).modules = s.modules := rfl
@[simp] theorem State.poke_deferred (s : State) (ep pa : Nat) (bs : List Byte) : (s.poke ep pa bs).deferred = s.deferred := rfl
@[simp] theorem State.poke_inject (s : State) (ep pa : Nat) (bs : List Byte) : (s.poke ep pa bs).inject = s.inject := rfl
@[simp] theorem State.poke_tbufs (s : State) (ep pa : Nat) (bs : List Byte) : (s.poke ep pa bs).tbufs = s.tbufs := rfl
@[simp] theorem State.poke_tqueue (s : State) (ep pa : Nat) (bs : List Byte) : (s.poke ep pa bs).tqueue = s.tqueue := rfl
@[simp] theorem State.poke_tcapture (s : State) (ep pa : Nat) (bs : List Byte) : (s.poke ep pa bs).tcapture = s.tcapture := rfl
@[simp] theorem State.poke_dies (s : State) (ep pa : Nat) (bs : List Byte) : (s.poke ep pa bs).dies = s.dies := rfl
@[simp] theorem State.poke_cores (s : State) (ep pa : Nat) (bs : List Byte) : (s.poke ep pa bs).cores = s.cores := rfl

/-! ### An update of the key of a line -/

@[simp] theorem State.setLineKey_me (s : State) (ep line key : Nat) : (s.setLineKey ep line key).me = s.me := rfl
@[simp] theorem State.setLineKey_others (s : State) (ep line key : Nat) : (s.setLineKey ep line key).others = s.others := rfl
@[simp] theorem State.setLineKey_schedule (s : State) (ep line key : Nat) : (s.setLineKey ep line key).schedule = s.schedule := rfl
@[simp] theorem State.setLineKey_fresh (s : State) (ep line key : Nat) : (s.setLineKey ep line key).fresh = s.fresh := rfl
@[simp] theorem State.setLineKey_nextUid (s : State) (ep line key : Nat) : (s.setLineKey ep line key).nextUid = s.nextUid := rfl
@[simp] theorem State.setLineKey_now (s : State) (ep line key : Nat) : (s.setLineKey ep line key).now = s.now := rfl
@[simp] theorem State.setLineKey_clocks (s : State) (ep line key : Nat) : (s.setLineKey ep line key).clocks = s.clocks := rfl
@[simp] theorem State.setLineKey_mem (s : State) (ep line key : Nat) : (s.setLineKey ep line key).mem = s.mem := rfl
@[simp] theorem State.setLineKey_homes (s : State) (ep line key : Nat) : (s.setLineKey ep line key).homes = s.homes := rfl
@[simp] theorem State.setLineKey_counted (s : State) (ep line key : Nat) : (s.setLineKey ep line key).counted = s.counted := rfl
@[simp] theorem State.setLineKey_saved (s : State) (ep line key : Nat) : (s.setLineKey ep line key).saved = s.saved := rfl
@[simp] theorem State.setLineKey_rdc (s : State) (ep line key : Nat) : (s.setLineKey ep line key).rdc = s.rdc := rfl
@[simp] theorem State.setLineKey_l2 (s : State) (ep line key : Nat) : (s.setLineKey ep line key).l2 = s.l2 := rfl
@[simp] theorem State.setLineKey_l2clock (s : State) (ep line key : Nat) : (s.setLineKey ep line key).l2clock = s.l2clock := rfl
@[simp] theorem State.setLineKey_fills (s : State) (ep line key : Nat) : (s.setLineKey ep line key).fills = s.fills := rfl
@[simp] theorem State.setLineKey_outHits (s : State) (ep line key : Nat) : (s.setLineKey ep line key).outHits = s.outHits := rfl
@[simp] theorem State.setLineKey_accs (s : State) (ep line key : Nat) : (s.setLineKey ep line key).accs = s.accs := rfl
@[simp] theorem State.setLineKey_icache (s : State) (ep line key : Nat) : (s.setLineKey ep line key).icache = s.icache := rfl
@[simp] theorem State.setLineKey_dcache (s : State) (ep line key : Nat) : (s.setLineKey ep line key).dcache = s.dcache := rfl
@[simp] theorem State.setLineKey_tlb (s : State) (ep line key : Nat) : (s.setLineKey ep line key).tlb = s.tlb := rfl
@[simp] theorem State.setLineKey_reports (s : State) (ep line key : Nat) : (s.setLineKey ep line key).reports = s.reports := rfl
@[simp] theorem State.setLineKey_poison (s : State) (ep line key : Nat) : (s.setLineKey ep line key).poison = s.poison := rfl
@[simp] theorem State.setLineKey_allocs (s : State) (ep line key : Nat) : (s.setLineKey ep line key).allocs = s.allocs := rfl
@[simp] theorem State.setLineKey_slines (s : State) (ep line key : Nat) : (s.setLineKey ep line key).slines = s.slines := rfl
@[simp] theorem State.setLineKey_regions (s : State) (ep line key : Nat) : (s.setLineKey ep line key).regions = s.regions := rfl
@[simp] theorem State.setLineKey_rqueues (s : State) (ep line key : Nat) : (s.setLineKey ep line key).rqueues = s.rqueues := rfl
@[simp] theorem State.setLineKey_vifs (s : State) (ep line key : Nat) : (s.setLineKey ep line key).vifs = s.vifs := rfl
@[simp] theorem State.setLineKey_hostqs (s : State) (ep line key : Nat) : (s.setLineKey ep line key).hostqs = s.hostqs := rfl
@[simp] theorem State.setLineKey_launches (s : State) (ep line key : Nat) : (s.setLineKey ep line key).launches = s.launches := rfl
@[simp] theorem State.setLineKey_plans (s : State) (ep line key : Nat) : (s.setLineKey ep line key).plans = s.plans := rfl
@[simp] theorem State.setLineKey_nextSid (s : State) (ep line key : Nat) : (s.setLineKey ep line key).nextSid = s.nextSid := rfl
@[simp] theorem State.setLineKey_sats (s : State) (ep line key : Nat) : (s.setLineKey ep line key).sats = s.sats := rfl
@[simp] theorem State.setLineKey_gens (s : State) (ep line key : Nat) : (s.setLineKey ep line key).gens = s.gens := rfl
@[simp] theorem State.setLineKey_notices (s : State) (ep line key : Nat) : (s.setLineKey ep line key).notices = s.notices := rfl
@[simp] theorem State.setLineKey_slices (s : State) (ep line key : Nat) : (s.setLineKey ep line key).slices = s.slices := rfl
@[simp] theorem State.setLineKey_barrier (s : State) (ep line key : Nat) : (s.setLineKey ep line key).barrier = s.barrier := rfl
@[simp] theorem State.setLineKey_nextReq (s : State) (ep line key : Nat) : (s.setLineKey ep line key).nextReq = s.nextReq := rfl
@[simp] theorem State.setLineKey_waiting (s : State) (ep line key : Nat) : (s.setLineKey ep line key).waiting = s.waiting := rfl
@[simp] theorem State.setLineKey_sendq (s : State) (ep line key : Nat) : (s.setLineKey ep line key).sendq = s.sendq := rfl
@[simp] theorem State.setLineKey_rslots (s : State) (ep line key : Nat) : (s.setLineKey ep line key).rslots = s.rslots := rfl
@[simp] theorem State.setLineKey_htab (s : State) (ep line key : Nat) : (s.setLineKey ep line key).htab = s.htab := rfl
@[simp] theorem State.setLineKey_reqs (s : State) (ep line key : Nat) : (s.setLineKey ep line key).reqs = s.reqs := rfl
@[simp] theorem State.setLineKey_flights (s : State) (ep line key : Nat) : (s.setLineKey ep line key).flights = s.flights := rfl
@[simp] theorem State.setLineKey_seqs (s : State) (ep line key : Nat) : (s.setLineKey ep line key).seqs = s.seqs := rfl
@[simp] theorem State.setLineKey_buckets (s : State) (ep line key : Nat) : (s.setLineKey ep line key).buckets = s.buckets := rfl
@[simp] theorem State.setLineKey_ports (s : State) (ep line key : Nat) : (s.setLineKey ep line key).ports = s.ports := rfl
@[simp] theorem State.setLineKey_endpoints (s : State) (ep line key : Nat) : (s.setLineKey ep line key).endpoints = s.endpoints := rfl
@[simp] theorem State.setLineKey_secret (s : State) (ep line key : Nat) : (s.setLineKey ep line key).secret = s.secret := rfl
@[simp] theorem State.setLineKey_advances (s : State) (ep line key : Nat) : (s.setLineKey ep line key).advances = s.advances := rfl
@[simp] theorem State.setLineKey_charters (s : State) (ep line key : Nat) : (s.setLineKey ep line key).charters = s.charters := rfl
@[simp] theorem State.setLineKey_modules (s : State) (ep line key : Nat) : (s.setLineKey ep line key).modules = s.modules := rfl
@[simp] theorem State.setLineKey_deferred (s : State) (ep line key : Nat) : (s.setLineKey ep line key).deferred = s.deferred := rfl
@[simp] theorem State.setLineKey_inject (s : State) (ep line key : Nat) : (s.setLineKey ep line key).inject = s.inject := rfl
@[simp] theorem State.setLineKey_tbufs (s : State) (ep line key : Nat) : (s.setLineKey ep line key).tbufs = s.tbufs := rfl
@[simp] theorem State.setLineKey_tqueue (s : State) (ep line key : Nat) : (s.setLineKey ep line key).tqueue = s.tqueue := rfl
@[simp] theorem State.setLineKey_tcapture (s : State) (ep line key : Nat) : (s.setLineKey ep line key).tcapture = s.tcapture := rfl
@[simp] theorem State.setLineKey_dies (s : State) (ep line key : Nat) : (s.setLineKey ep line key).dies = s.dies := rfl
@[simp] theorem State.setLineKey_cores (s : State) (ep line key : Nat) : (s.setLineKey ep line key).cores = s.cores := rfl

/-! ### Fields of an agent: registers written -/

@[simp] theorem Agent.setK_uid (a : Agent) (r : Reg4) (v : Key) : (a.setK r v).uid = a.uid := rfl
@[simp] theorem Agent.setK_kind (a : Agent) (r : Reg4) (v : Key) : (a.setK r v).kind = a.kind := rfl
@[simp] theorem Agent.setK_loc (a : Agent) (r : Reg4) (v : Key) : (a.setK r v).loc = a.loc := rfl
@[simp] theorem Agent.setK_ctx (a : Agent) (r : Reg4) (v : Key) : (a.setK r v).ctx = a.ctx := rfl
@[simp] theorem Agent.setK_rid (a : Agent) (r : Reg4) (v : Key) : (a.setK r v).rid = a.rid := rfl
@[simp] theorem Agent.setK_tid (a : Agent) (r : Reg4) (v : Key) : (a.setK r v).tid = a.tid := rfl
@[simp] theorem Agent.setK_level (a : Agent) (r : Reg4) (v : Key) : (a.setK r v).level = a.level := rfl
@[simp] theorem Agent.setK_cls (a : Agent) (r : Reg4) (v : Key) : (a.setK r v).cls = a.cls := rfl
@[simp] theorem Agent.setK_cmask (a : Agent) (r : Reg4) (v : Key) : (a.setK r v).cmask = a.cmask := rfl
@[simp] theorem Agent.setK_quarter (a : Agent) (r : Reg4) (v : Key) : (a.setK r v).quarter = a.quarter := rfl
@[simp] theorem Agent.setK_named (a : Agent) (r : Reg4) (v : Key) : (a.setK r v).named = a.named := rfl
@[simp] theorem Agent.setK_life (a : Agent) (r : Reg4) (v : Key) : (a.setK r v).life = a.life := rfl
@[simp] theorem Agent.setK_placed (a : Agent) (r : Reg4) (v : Key) : (a.setK r v).placed = a.placed := rfl
@[simp] theorem Agent.setK_saved (a : Agent) (r : Reg4) (v : Key) : (a.setK r v).saved = a.saved := rfl
@[simp] theorem Agent.setK_hold (a : Agent) (r : Reg4) (v : Key) : (a.setK r v).hold = a.hold := rfl
@[simp] theorem Agent.setK_complete (a : Agent) (r : Reg4) (v : Key) : (a.setK r v).complete = a.complete := rfl
@[simp] theorem Agent.setK_saveTime (a : Agent) (r : Reg4) (v : Key) : (a.setK r v).saveTime = a.saveTime := rfl
@[simp] theorem Agent.setK_started (a : Agent) (r : Reg4) (v : Key) : (a.setK r v).started = a.started := rfl
@[simp] theorem Agent.setK_x (a : Agent) (r : Reg4) (v : Key) : (a.setK r v).x = a.x := rfl
@[simp] theorem Agent.setK_v (a : Agent) (r : Reg4) (v : Key) : (a.setK r v).v = a.v := rfl
@[simp] theorem Agent.setK_p (a : Agent) (r : Reg4) (v : Key) : (a.setK r v).p = a.p := rfl
@[simp] theorem Agent.setK_marks (a : Agent) (r : Reg4) (v : Key) : (a.setK r v).marks = a.marks := rfl
@[simp] theorem Agent.setK_pc (a : Agent) (r : Reg4) (v : Key) : (a.setK r v).pc = a.pc := rfl
@[simp] theorem Agent.setK_ir (a : Agent) (r : Reg4) (v : Key) : (a.setK r v).ir = a.ir := rfl
@[simp] theorem Agent.setK_vl (a : Agent) (r : Reg4) (v : Key) : (a.setK r v).vl = a.vl := rfl
@[simp] theorem Agent.setK_vfmcCount (a : Agent) (r : Reg4) (v : Key) : (a.setK r v).vfmcCount = a.vfmcCount := rfl
@[simp] theorem Agent.setK_vfmcCause (a : Agent) (r : Reg4) (v : Key) : (a.setK r v).vfmcCause = a.vfmcCause := rfl
@[simp] theorem Agent.setK_vfmcLog (a : Agent) (r : Reg4) (v : Key) : (a.setK r v).vfmcLog = a.vfmcLog := rfl
@[simp] theorem Agent.setK_fmask (a : Agent) (r : Reg4) (v : Key) : (a.setK r v).fmask = a.fmask := rfl
@[simp] theorem Agent.setK_slip (a : Agent) (r : Reg4) (v : Key) : (a.setK r v).slip = a.slip := rfl
@[simp] theorem Agent.setK_efc (a : Agent) (r : Reg4) (v : Key) : (a.setK r v).efc = a.efc := rfl
@[simp] theorem Agent.setK_fprm (a : Agent) (r : Reg4) (v : Key) : (a.setK r v).fprm = a.fprm := rfl
@[simp] theorem Agent.setK_fpsp (a : Agent) (r : Reg4) (v : Key) : (a.setK r v).fpsp = a.fpsp := rfl
@[simp] theorem Agent.setK_fpen (a : Agent) (r : Reg4) (v : Key) : (a.setK r v).fpen = a.fpen := rfl
@[simp] theorem Agent.setK_fpflags (a : Agent) (r : Reg4) (v : Key) : (a.setK r v).fpflags = a.fpflags := rfl
@[simp] theorem Agent.setK_fpera (a : Agent) (r : Reg4) (v : Key) : (a.setK r v).fpera = a.fpera := rfl
@[simp] theorem Agent.setK_sattr (a : Agent) (r : Reg4) (v : Key) : (a.setK r v).sattr = a.sattr := rfl
@[simp] theorem Agent.setK_sshape (a : Agent) (r : Reg4) (v : Key) : (a.setK r v).sshape = a.sshape := rfl
@[simp] theorem Agent.setK_slaunch (a : Agent) (r : Reg4) (v : Key) : (a.setK r v).slaunch = a.slaunch := rfl
@[simp] theorem Agent.setK_safter (a : Agent) (r : Reg4) (v : Key) : (a.setK r v).safter = a.safter := rfl
@[simp] theorem Agent.setK_mcfgv (a : Agent) (r : Reg4) (v : Key) : (a.setK r v).mcfgv = a.mcfgv := rfl
@[simp] theorem Agent.setK_msbase (a : Agent) (r : Reg4) (v : Key) : (a.setK r v).msbase = a.msbase := rfl
@[simp] theorem Agent.setK_mgang (a : Agent) (r : Reg4) (v : Key) : (a.setK r v).mgang = a.mgang := rfl
@[simp] theorem Agent.setK_gangto (a : Agent) (r : Reg4) (v : Key) : (a.setK r v).gangto = a.gangto := rfl
@[simp] theorem Agent.setK_utvec (a : Agent) (r : Reg4) (v : Key) : (a.setK r v).utvec = a.utvec := rfl
@[simp] theorem Agent.setK_ucause (a : Agent) (r : Reg4) (v : Key) : (a.setK r v).ucause = a.ucause := rfl
@[simp] theorem Agent.setK_uepc (a : Agent) (r : Reg4) (v : Key) : (a.setK r v).uepc = a.uepc := rfl
@[simp] theorem Agent.setK_uaddr (a : Agent) (r : Reg4) (v : Key) : (a.setK r v).uaddr = a.uaddr := rfl
@[simp] theorem Agent.setK_uinfo (a : Agent) (r : Reg4) (v : Key) : (a.setK r v).uinfo = a.uinfo := rfl
@[simp] theorem Agent.setK_pscratch (a : Agent) (r : Reg4) (v : Key) : (a.setK r v).pscratch = a.pscratch := rfl
@[simp] theorem Agent.setK_uta (a : Agent) (r : Reg4) (v : Key) : (a.setK r v).uta = a.uta := rfl
@[simp] theorem Agent.setK_issued (a : Agent) (r : Reg4) (v : Key) : (a.setK r v).issued = a.issued := rfl
@[simp] theorem Agent.setK_retired (a : Agent) (r : Reg4) (v : Key) : (a.setK r v).retired = a.retired := rfl
@[simp] theorem Agent.setK_pendX (a : Agent) (r : Reg4) (v : Key) : (a.setK r v).pendX = a.pendX := rfl
@[simp] theorem Agent.setK_pendK (a : Agent) (r : Reg4) (v : Key) : (a.setK r v).pendK = a.pendK := rfl
@[simp] theorem Agent.setK_marked (a : Agent) (r : Reg4) (v : Key) : (a.setK r v).marked = a.marked := rfl
@[simp] theorem Agent.setK_inflight (a : Agent) (r : Reg4) (v : Key) : (a.setK r v).inflight = a.inflight := rfl
@[simp] theorem Agent.setK_order (a : Agent) (r : Reg4) (v : Key) : (a.setK r v).order = a.order := rfl
@[simp] theorem Agent.setK_queue (a : Agent) (r : Reg4) (v : Key) : (a.setK r v).queue = a.queue := rfl
@[simp] theorem Agent.setK_done (a : Agent) (r : Reg4) (v : Key) : (a.setK r v).done = a.done := rfl
@[simp] theorem Agent.setK_nextSeq (a : Agent) (r : Reg4) (v : Key) : (a.setK r v).nextSeq = a.nextSeq := rfl
@[simp] theorem Agent.setK_aside (a : Agent) (r : Reg4) (v : Key) : (a.setK r v).aside = a.aside := rfl
@[simp] theorem Agent.setK_vstop (a : Agent) (r : Reg4) (v : Key) : (a.setK r v).vstop = a.vstop := rfl
@[simp] theorem Agent.setK_failures (a : Agent) (r : Reg4) (v : Key) : (a.setK r v).failures = a.failures := rfl
@[simp] theorem Agent.setK_late (a : Agent) (r : Reg4) (v : Key) : (a.setK r v).late = a.late := rfl
@[simp] theorem Agent.setK_preempt (a : Agent) (r : Reg4) (v : Key) : (a.setK r v).preempt = a.preempt := rfl
@[simp] theorem Agent.setK_debugStop (a : Agent) (r : Reg4) (v : Key) : (a.setK r v).debugStop = a.debugStop := rfl
@[simp] theorem Agent.setK_debugSkip (a : Agent) (r : Reg4) (v : Key) : (a.setK r v).debugSkip = a.debugSkip := rfl
@[simp] theorem Agent.setK_cycleLimit (a : Agent) (r : Reg4) (v : Key) : (a.setK r v).cycleLimit = a.cycleLimit := rfl
@[simp] theorem Agent.setK_carried (a : Agent) (r : Reg4) (v : Key) : (a.setK r v).carried = a.carried := rfl
@[simp] theorem Agent.setK_wfiSeen (a : Agent) (r : Reg4) (v : Key) : (a.setK r v).wfiSeen = a.wfiSeen := rfl
@[simp] theorem Agent.setK_turn (a : Agent) (r : Reg4) (v : Key) : (a.setK r v).turn = a.turn := rfl
@[simp] theorem Agent.setK_acq (a : Agent) (r : Reg4) (v : Key) : (a.setK r v).acq = a.acq := rfl
@[simp] theorem Agent.setK_launched (a : Agent) (r : Reg4) (v : Key) : (a.setK r v).launched = a.launched := rfl
@[simp] theorem Agent.setK_pended (a : Agent) (r : Reg4) (v : Key) : (a.setK r v).pended = a.pended := rfl
@[simp] theorem Agent.setK_wfiFrom (a : Agent) (r : Reg4) (v : Key) : (a.setK r v).wfiFrom = a.wfiFrom := rfl
@[simp] theorem Agent.setK_fenceAt (a : Agent) (r : Reg4) (v : Key) : (a.setK r v).fenceAt = a.fenceAt := rfl
@[simp] theorem Agent.setK_pipeEnd (a : Agent) (r : Reg4) (v : Key) : (a.setK r v).pipeEnd = a.pipeEnd := rfl
@[simp] theorem Agent.setK_holds (a : Agent) (r : Reg4) (v : Key) : (a.setK r v).holds = a.holds := rfl
@[simp] theorem Agent.setK_userSeq (a : Agent) (r : Reg4) (v : Key) : (a.setK r v).userSeq = a.userSeq := rfl

@[simp] theorem Agent.setP_uid (a : Agent) (r : Reg4) (v : BitVec 1024) : (a.setP r v).uid = a.uid := rfl
@[simp] theorem Agent.setP_kind (a : Agent) (r : Reg4) (v : BitVec 1024) : (a.setP r v).kind = a.kind := rfl
@[simp] theorem Agent.setP_loc (a : Agent) (r : Reg4) (v : BitVec 1024) : (a.setP r v).loc = a.loc := rfl
@[simp] theorem Agent.setP_ctx (a : Agent) (r : Reg4) (v : BitVec 1024) : (a.setP r v).ctx = a.ctx := rfl
@[simp] theorem Agent.setP_rid (a : Agent) (r : Reg4) (v : BitVec 1024) : (a.setP r v).rid = a.rid := rfl
@[simp] theorem Agent.setP_tid (a : Agent) (r : Reg4) (v : BitVec 1024) : (a.setP r v).tid = a.tid := rfl
@[simp] theorem Agent.setP_level (a : Agent) (r : Reg4) (v : BitVec 1024) : (a.setP r v).level = a.level := rfl
@[simp] theorem Agent.setP_cls (a : Agent) (r : Reg4) (v : BitVec 1024) : (a.setP r v).cls = a.cls := rfl
@[simp] theorem Agent.setP_cmask (a : Agent) (r : Reg4) (v : BitVec 1024) : (a.setP r v).cmask = a.cmask := rfl
@[simp] theorem Agent.setP_quarter (a : Agent) (r : Reg4) (v : BitVec 1024) : (a.setP r v).quarter = a.quarter := rfl
@[simp] theorem Agent.setP_named (a : Agent) (r : Reg4) (v : BitVec 1024) : (a.setP r v).named = a.named := rfl
@[simp] theorem Agent.setP_life (a : Agent) (r : Reg4) (v : BitVec 1024) : (a.setP r v).life = a.life := rfl
@[simp] theorem Agent.setP_placed (a : Agent) (r : Reg4) (v : BitVec 1024) : (a.setP r v).placed = a.placed := rfl
@[simp] theorem Agent.setP_saved (a : Agent) (r : Reg4) (v : BitVec 1024) : (a.setP r v).saved = a.saved := rfl
@[simp] theorem Agent.setP_hold (a : Agent) (r : Reg4) (v : BitVec 1024) : (a.setP r v).hold = a.hold := rfl
@[simp] theorem Agent.setP_complete (a : Agent) (r : Reg4) (v : BitVec 1024) : (a.setP r v).complete = a.complete := rfl
@[simp] theorem Agent.setP_saveTime (a : Agent) (r : Reg4) (v : BitVec 1024) : (a.setP r v).saveTime = a.saveTime := rfl
@[simp] theorem Agent.setP_started (a : Agent) (r : Reg4) (v : BitVec 1024) : (a.setP r v).started = a.started := rfl
@[simp] theorem Agent.setP_x (a : Agent) (r : Reg4) (v : BitVec 1024) : (a.setP r v).x = a.x := rfl
@[simp] theorem Agent.setP_v (a : Agent) (r : Reg4) (v : BitVec 1024) : (a.setP r v).v = a.v := rfl
@[simp] theorem Agent.setP_k (a : Agent) (r : Reg4) (v : BitVec 1024) : (a.setP r v).k = a.k := rfl
@[simp] theorem Agent.setP_marks (a : Agent) (r : Reg4) (v : BitVec 1024) : (a.setP r v).marks = a.marks := rfl
@[simp] theorem Agent.setP_pc (a : Agent) (r : Reg4) (v : BitVec 1024) : (a.setP r v).pc = a.pc := rfl
@[simp] theorem Agent.setP_ir (a : Agent) (r : Reg4) (v : BitVec 1024) : (a.setP r v).ir = a.ir := rfl
@[simp] theorem Agent.setP_vl (a : Agent) (r : Reg4) (v : BitVec 1024) : (a.setP r v).vl = a.vl := rfl
@[simp] theorem Agent.setP_vfmcCount (a : Agent) (r : Reg4) (v : BitVec 1024) : (a.setP r v).vfmcCount = a.vfmcCount := rfl
@[simp] theorem Agent.setP_vfmcCause (a : Agent) (r : Reg4) (v : BitVec 1024) : (a.setP r v).vfmcCause = a.vfmcCause := rfl
@[simp] theorem Agent.setP_vfmcLog (a : Agent) (r : Reg4) (v : BitVec 1024) : (a.setP r v).vfmcLog = a.vfmcLog := rfl
@[simp] theorem Agent.setP_fmask (a : Agent) (r : Reg4) (v : BitVec 1024) : (a.setP r v).fmask = a.fmask := rfl
@[simp] theorem Agent.setP_slip (a : Agent) (r : Reg4) (v : BitVec 1024) : (a.setP r v).slip = a.slip := rfl
@[simp] theorem Agent.setP_efc (a : Agent) (r : Reg4) (v : BitVec 1024) : (a.setP r v).efc = a.efc := rfl
@[simp] theorem Agent.setP_fprm (a : Agent) (r : Reg4) (v : BitVec 1024) : (a.setP r v).fprm = a.fprm := rfl
@[simp] theorem Agent.setP_fpsp (a : Agent) (r : Reg4) (v : BitVec 1024) : (a.setP r v).fpsp = a.fpsp := rfl
@[simp] theorem Agent.setP_fpen (a : Agent) (r : Reg4) (v : BitVec 1024) : (a.setP r v).fpen = a.fpen := rfl
@[simp] theorem Agent.setP_fpflags (a : Agent) (r : Reg4) (v : BitVec 1024) : (a.setP r v).fpflags = a.fpflags := rfl
@[simp] theorem Agent.setP_fpera (a : Agent) (r : Reg4) (v : BitVec 1024) : (a.setP r v).fpera = a.fpera := rfl
@[simp] theorem Agent.setP_sattr (a : Agent) (r : Reg4) (v : BitVec 1024) : (a.setP r v).sattr = a.sattr := rfl
@[simp] theorem Agent.setP_sshape (a : Agent) (r : Reg4) (v : BitVec 1024) : (a.setP r v).sshape = a.sshape := rfl
@[simp] theorem Agent.setP_slaunch (a : Agent) (r : Reg4) (v : BitVec 1024) : (a.setP r v).slaunch = a.slaunch := rfl
@[simp] theorem Agent.setP_safter (a : Agent) (r : Reg4) (v : BitVec 1024) : (a.setP r v).safter = a.safter := rfl
@[simp] theorem Agent.setP_mcfgv (a : Agent) (r : Reg4) (v : BitVec 1024) : (a.setP r v).mcfgv = a.mcfgv := rfl
@[simp] theorem Agent.setP_msbase (a : Agent) (r : Reg4) (v : BitVec 1024) : (a.setP r v).msbase = a.msbase := rfl
@[simp] theorem Agent.setP_mgang (a : Agent) (r : Reg4) (v : BitVec 1024) : (a.setP r v).mgang = a.mgang := rfl
@[simp] theorem Agent.setP_gangto (a : Agent) (r : Reg4) (v : BitVec 1024) : (a.setP r v).gangto = a.gangto := rfl
@[simp] theorem Agent.setP_utvec (a : Agent) (r : Reg4) (v : BitVec 1024) : (a.setP r v).utvec = a.utvec := rfl
@[simp] theorem Agent.setP_ucause (a : Agent) (r : Reg4) (v : BitVec 1024) : (a.setP r v).ucause = a.ucause := rfl
@[simp] theorem Agent.setP_uepc (a : Agent) (r : Reg4) (v : BitVec 1024) : (a.setP r v).uepc = a.uepc := rfl
@[simp] theorem Agent.setP_uaddr (a : Agent) (r : Reg4) (v : BitVec 1024) : (a.setP r v).uaddr = a.uaddr := rfl
@[simp] theorem Agent.setP_uinfo (a : Agent) (r : Reg4) (v : BitVec 1024) : (a.setP r v).uinfo = a.uinfo := rfl
@[simp] theorem Agent.setP_pscratch (a : Agent) (r : Reg4) (v : BitVec 1024) : (a.setP r v).pscratch = a.pscratch := rfl
@[simp] theorem Agent.setP_uta (a : Agent) (r : Reg4) (v : BitVec 1024) : (a.setP r v).uta = a.uta := rfl
@[simp] theorem Agent.setP_issued (a : Agent) (r : Reg4) (v : BitVec 1024) : (a.setP r v).issued = a.issued := rfl
@[simp] theorem Agent.setP_retired (a : Agent) (r : Reg4) (v : BitVec 1024) : (a.setP r v).retired = a.retired := rfl
@[simp] theorem Agent.setP_pendX (a : Agent) (r : Reg4) (v : BitVec 1024) : (a.setP r v).pendX = a.pendX := rfl
@[simp] theorem Agent.setP_pendK (a : Agent) (r : Reg4) (v : BitVec 1024) : (a.setP r v).pendK = a.pendK := rfl
@[simp] theorem Agent.setP_marked (a : Agent) (r : Reg4) (v : BitVec 1024) : (a.setP r v).marked = a.marked := rfl
@[simp] theorem Agent.setP_inflight (a : Agent) (r : Reg4) (v : BitVec 1024) : (a.setP r v).inflight = a.inflight := rfl
@[simp] theorem Agent.setP_order (a : Agent) (r : Reg4) (v : BitVec 1024) : (a.setP r v).order = a.order := rfl
@[simp] theorem Agent.setP_queue (a : Agent) (r : Reg4) (v : BitVec 1024) : (a.setP r v).queue = a.queue := rfl
@[simp] theorem Agent.setP_done (a : Agent) (r : Reg4) (v : BitVec 1024) : (a.setP r v).done = a.done := rfl
@[simp] theorem Agent.setP_nextSeq (a : Agent) (r : Reg4) (v : BitVec 1024) : (a.setP r v).nextSeq = a.nextSeq := rfl
@[simp] theorem Agent.setP_aside (a : Agent) (r : Reg4) (v : BitVec 1024) : (a.setP r v).aside = a.aside := rfl
@[simp] theorem Agent.setP_vstop (a : Agent) (r : Reg4) (v : BitVec 1024) : (a.setP r v).vstop = a.vstop := rfl
@[simp] theorem Agent.setP_failures (a : Agent) (r : Reg4) (v : BitVec 1024) : (a.setP r v).failures = a.failures := rfl
@[simp] theorem Agent.setP_late (a : Agent) (r : Reg4) (v : BitVec 1024) : (a.setP r v).late = a.late := rfl
@[simp] theorem Agent.setP_preempt (a : Agent) (r : Reg4) (v : BitVec 1024) : (a.setP r v).preempt = a.preempt := rfl
@[simp] theorem Agent.setP_debugStop (a : Agent) (r : Reg4) (v : BitVec 1024) : (a.setP r v).debugStop = a.debugStop := rfl
@[simp] theorem Agent.setP_debugSkip (a : Agent) (r : Reg4) (v : BitVec 1024) : (a.setP r v).debugSkip = a.debugSkip := rfl
@[simp] theorem Agent.setP_cycleLimit (a : Agent) (r : Reg4) (v : BitVec 1024) : (a.setP r v).cycleLimit = a.cycleLimit := rfl
@[simp] theorem Agent.setP_carried (a : Agent) (r : Reg4) (v : BitVec 1024) : (a.setP r v).carried = a.carried := rfl
@[simp] theorem Agent.setP_wfiSeen (a : Agent) (r : Reg4) (v : BitVec 1024) : (a.setP r v).wfiSeen = a.wfiSeen := rfl
@[simp] theorem Agent.setP_turn (a : Agent) (r : Reg4) (v : BitVec 1024) : (a.setP r v).turn = a.turn := rfl
@[simp] theorem Agent.setP_acq (a : Agent) (r : Reg4) (v : BitVec 1024) : (a.setP r v).acq = a.acq := rfl
@[simp] theorem Agent.setP_launched (a : Agent) (r : Reg4) (v : BitVec 1024) : (a.setP r v).launched = a.launched := rfl
@[simp] theorem Agent.setP_pended (a : Agent) (r : Reg4) (v : BitVec 1024) : (a.setP r v).pended = a.pended := rfl
@[simp] theorem Agent.setP_wfiFrom (a : Agent) (r : Reg4) (v : BitVec 1024) : (a.setP r v).wfiFrom = a.wfiFrom := rfl
@[simp] theorem Agent.setP_fenceAt (a : Agent) (r : Reg4) (v : BitVec 1024) : (a.setP r v).fenceAt = a.fenceAt := rfl
@[simp] theorem Agent.setP_pipeEnd (a : Agent) (r : Reg4) (v : BitVec 1024) : (a.setP r v).pipeEnd = a.pipeEnd := rfl
@[simp] theorem Agent.setP_holds (a : Agent) (r : Reg4) (v : BitVec 1024) : (a.setP r v).holds = a.holds := rfl
@[simp] theorem Agent.setP_userSeq (a : Agent) (r : Reg4) (v : BitVec 1024) : (a.setP r v).userSeq = a.userSeq := rfl

/-- A write of an `x` register changes the `x` registers alone. -/
theorem Agent.setX_eq (a : Agent) (r : Reg) (v : Word) : a.setX r v = { a with x := (a.setX r v).x } := by
  unfold Agent.setX
  split <;> rfl

@[simp] theorem Agent.setX_uid (a : Agent) (r : Reg) (v : Word) : (a.setX r v).uid = a.uid := by rw [Agent.setX_eq]
@[simp] theorem Agent.setX_kind (a : Agent) (r : Reg) (v : Word) : (a.setX r v).kind = a.kind := by rw [Agent.setX_eq]
@[simp] theorem Agent.setX_loc (a : Agent) (r : Reg) (v : Word) : (a.setX r v).loc = a.loc := by rw [Agent.setX_eq]
@[simp] theorem Agent.setX_ctx (a : Agent) (r : Reg) (v : Word) : (a.setX r v).ctx = a.ctx := by rw [Agent.setX_eq]
@[simp] theorem Agent.setX_rid (a : Agent) (r : Reg) (v : Word) : (a.setX r v).rid = a.rid := by rw [Agent.setX_eq]
@[simp] theorem Agent.setX_tid (a : Agent) (r : Reg) (v : Word) : (a.setX r v).tid = a.tid := by rw [Agent.setX_eq]
@[simp] theorem Agent.setX_level (a : Agent) (r : Reg) (v : Word) : (a.setX r v).level = a.level := by rw [Agent.setX_eq]
@[simp] theorem Agent.setX_cls (a : Agent) (r : Reg) (v : Word) : (a.setX r v).cls = a.cls := by rw [Agent.setX_eq]
@[simp] theorem Agent.setX_cmask (a : Agent) (r : Reg) (v : Word) : (a.setX r v).cmask = a.cmask := by rw [Agent.setX_eq]
@[simp] theorem Agent.setX_quarter (a : Agent) (r : Reg) (v : Word) : (a.setX r v).quarter = a.quarter := by rw [Agent.setX_eq]
@[simp] theorem Agent.setX_named (a : Agent) (r : Reg) (v : Word) : (a.setX r v).named = a.named := by rw [Agent.setX_eq]
@[simp] theorem Agent.setX_life (a : Agent) (r : Reg) (v : Word) : (a.setX r v).life = a.life := by rw [Agent.setX_eq]
@[simp] theorem Agent.setX_placed (a : Agent) (r : Reg) (v : Word) : (a.setX r v).placed = a.placed := by rw [Agent.setX_eq]
@[simp] theorem Agent.setX_saved (a : Agent) (r : Reg) (v : Word) : (a.setX r v).saved = a.saved := by rw [Agent.setX_eq]
@[simp] theorem Agent.setX_hold (a : Agent) (r : Reg) (v : Word) : (a.setX r v).hold = a.hold := by rw [Agent.setX_eq]
@[simp] theorem Agent.setX_complete (a : Agent) (r : Reg) (v : Word) : (a.setX r v).complete = a.complete := by rw [Agent.setX_eq]
@[simp] theorem Agent.setX_saveTime (a : Agent) (r : Reg) (v : Word) : (a.setX r v).saveTime = a.saveTime := by rw [Agent.setX_eq]
@[simp] theorem Agent.setX_started (a : Agent) (r : Reg) (v : Word) : (a.setX r v).started = a.started := by rw [Agent.setX_eq]
@[simp] theorem Agent.setX_v (a : Agent) (r : Reg) (v : Word) : (a.setX r v).v = a.v := by rw [Agent.setX_eq]
@[simp] theorem Agent.setX_p (a : Agent) (r : Reg) (v : Word) : (a.setX r v).p = a.p := by rw [Agent.setX_eq]
@[simp] theorem Agent.setX_k (a : Agent) (r : Reg) (v : Word) : (a.setX r v).k = a.k := by rw [Agent.setX_eq]
@[simp] theorem Agent.setX_marks (a : Agent) (r : Reg) (v : Word) : (a.setX r v).marks = a.marks := by rw [Agent.setX_eq]
@[simp] theorem Agent.setX_pc (a : Agent) (r : Reg) (v : Word) : (a.setX r v).pc = a.pc := by rw [Agent.setX_eq]
@[simp] theorem Agent.setX_ir (a : Agent) (r : Reg) (v : Word) : (a.setX r v).ir = a.ir := by rw [Agent.setX_eq]
@[simp] theorem Agent.setX_vl (a : Agent) (r : Reg) (v : Word) : (a.setX r v).vl = a.vl := by rw [Agent.setX_eq]
@[simp] theorem Agent.setX_vfmcCount (a : Agent) (r : Reg) (v : Word) : (a.setX r v).vfmcCount = a.vfmcCount := by rw [Agent.setX_eq]
@[simp] theorem Agent.setX_vfmcCause (a : Agent) (r : Reg) (v : Word) : (a.setX r v).vfmcCause = a.vfmcCause := by rw [Agent.setX_eq]
@[simp] theorem Agent.setX_vfmcLog (a : Agent) (r : Reg) (v : Word) : (a.setX r v).vfmcLog = a.vfmcLog := by rw [Agent.setX_eq]
@[simp] theorem Agent.setX_fmask (a : Agent) (r : Reg) (v : Word) : (a.setX r v).fmask = a.fmask := by rw [Agent.setX_eq]
@[simp] theorem Agent.setX_slip (a : Agent) (r : Reg) (v : Word) : (a.setX r v).slip = a.slip := by rw [Agent.setX_eq]
@[simp] theorem Agent.setX_efc (a : Agent) (r : Reg) (v : Word) : (a.setX r v).efc = a.efc := by rw [Agent.setX_eq]
@[simp] theorem Agent.setX_fprm (a : Agent) (r : Reg) (v : Word) : (a.setX r v).fprm = a.fprm := by rw [Agent.setX_eq]
@[simp] theorem Agent.setX_fpsp (a : Agent) (r : Reg) (v : Word) : (a.setX r v).fpsp = a.fpsp := by rw [Agent.setX_eq]
@[simp] theorem Agent.setX_fpen (a : Agent) (r : Reg) (v : Word) : (a.setX r v).fpen = a.fpen := by rw [Agent.setX_eq]
@[simp] theorem Agent.setX_fpflags (a : Agent) (r : Reg) (v : Word) : (a.setX r v).fpflags = a.fpflags := by rw [Agent.setX_eq]
@[simp] theorem Agent.setX_fpera (a : Agent) (r : Reg) (v : Word) : (a.setX r v).fpera = a.fpera := by rw [Agent.setX_eq]
@[simp] theorem Agent.setX_sattr (a : Agent) (r : Reg) (v : Word) : (a.setX r v).sattr = a.sattr := by rw [Agent.setX_eq]
@[simp] theorem Agent.setX_sshape (a : Agent) (r : Reg) (v : Word) : (a.setX r v).sshape = a.sshape := by rw [Agent.setX_eq]
@[simp] theorem Agent.setX_slaunch (a : Agent) (r : Reg) (v : Word) : (a.setX r v).slaunch = a.slaunch := by rw [Agent.setX_eq]
@[simp] theorem Agent.setX_safter (a : Agent) (r : Reg) (v : Word) : (a.setX r v).safter = a.safter := by rw [Agent.setX_eq]
@[simp] theorem Agent.setX_mcfgv (a : Agent) (r : Reg) (v : Word) : (a.setX r v).mcfgv = a.mcfgv := by rw [Agent.setX_eq]
@[simp] theorem Agent.setX_msbase (a : Agent) (r : Reg) (v : Word) : (a.setX r v).msbase = a.msbase := by rw [Agent.setX_eq]
@[simp] theorem Agent.setX_mgang (a : Agent) (r : Reg) (v : Word) : (a.setX r v).mgang = a.mgang := by rw [Agent.setX_eq]
@[simp] theorem Agent.setX_gangto (a : Agent) (r : Reg) (v : Word) : (a.setX r v).gangto = a.gangto := by rw [Agent.setX_eq]
@[simp] theorem Agent.setX_utvec (a : Agent) (r : Reg) (v : Word) : (a.setX r v).utvec = a.utvec := by rw [Agent.setX_eq]
@[simp] theorem Agent.setX_ucause (a : Agent) (r : Reg) (v : Word) : (a.setX r v).ucause = a.ucause := by rw [Agent.setX_eq]
@[simp] theorem Agent.setX_uepc (a : Agent) (r : Reg) (v : Word) : (a.setX r v).uepc = a.uepc := by rw [Agent.setX_eq]
@[simp] theorem Agent.setX_uaddr (a : Agent) (r : Reg) (v : Word) : (a.setX r v).uaddr = a.uaddr := by rw [Agent.setX_eq]
@[simp] theorem Agent.setX_uinfo (a : Agent) (r : Reg) (v : Word) : (a.setX r v).uinfo = a.uinfo := by rw [Agent.setX_eq]
@[simp] theorem Agent.setX_pscratch (a : Agent) (r : Reg) (v : Word) : (a.setX r v).pscratch = a.pscratch := by rw [Agent.setX_eq]
@[simp] theorem Agent.setX_uta (a : Agent) (r : Reg) (v : Word) : (a.setX r v).uta = a.uta := by rw [Agent.setX_eq]
@[simp] theorem Agent.setX_issued (a : Agent) (r : Reg) (v : Word) : (a.setX r v).issued = a.issued := by rw [Agent.setX_eq]
@[simp] theorem Agent.setX_retired (a : Agent) (r : Reg) (v : Word) : (a.setX r v).retired = a.retired := by rw [Agent.setX_eq]
@[simp] theorem Agent.setX_pendX (a : Agent) (r : Reg) (v : Word) : (a.setX r v).pendX = a.pendX := by rw [Agent.setX_eq]
@[simp] theorem Agent.setX_pendK (a : Agent) (r : Reg) (v : Word) : (a.setX r v).pendK = a.pendK := by rw [Agent.setX_eq]
@[simp] theorem Agent.setX_marked (a : Agent) (r : Reg) (v : Word) : (a.setX r v).marked = a.marked := by rw [Agent.setX_eq]
@[simp] theorem Agent.setX_inflight (a : Agent) (r : Reg) (v : Word) : (a.setX r v).inflight = a.inflight := by rw [Agent.setX_eq]
@[simp] theorem Agent.setX_order (a : Agent) (r : Reg) (v : Word) : (a.setX r v).order = a.order := by rw [Agent.setX_eq]
@[simp] theorem Agent.setX_queue (a : Agent) (r : Reg) (v : Word) : (a.setX r v).queue = a.queue := by rw [Agent.setX_eq]
@[simp] theorem Agent.setX_done (a : Agent) (r : Reg) (v : Word) : (a.setX r v).done = a.done := by rw [Agent.setX_eq]
@[simp] theorem Agent.setX_nextSeq (a : Agent) (r : Reg) (v : Word) : (a.setX r v).nextSeq = a.nextSeq := by rw [Agent.setX_eq]
@[simp] theorem Agent.setX_aside (a : Agent) (r : Reg) (v : Word) : (a.setX r v).aside = a.aside := by rw [Agent.setX_eq]
@[simp] theorem Agent.setX_vstop (a : Agent) (r : Reg) (v : Word) : (a.setX r v).vstop = a.vstop := by rw [Agent.setX_eq]
@[simp] theorem Agent.setX_failures (a : Agent) (r : Reg) (v : Word) : (a.setX r v).failures = a.failures := by rw [Agent.setX_eq]
@[simp] theorem Agent.setX_late (a : Agent) (r : Reg) (v : Word) : (a.setX r v).late = a.late := by rw [Agent.setX_eq]
@[simp] theorem Agent.setX_preempt (a : Agent) (r : Reg) (v : Word) : (a.setX r v).preempt = a.preempt := by rw [Agent.setX_eq]
@[simp] theorem Agent.setX_debugStop (a : Agent) (r : Reg) (v : Word) : (a.setX r v).debugStop = a.debugStop := by rw [Agent.setX_eq]
@[simp] theorem Agent.setX_debugSkip (a : Agent) (r : Reg) (v : Word) : (a.setX r v).debugSkip = a.debugSkip := by rw [Agent.setX_eq]
@[simp] theorem Agent.setX_cycleLimit (a : Agent) (r : Reg) (v : Word) : (a.setX r v).cycleLimit = a.cycleLimit := by rw [Agent.setX_eq]
@[simp] theorem Agent.setX_carried (a : Agent) (r : Reg) (v : Word) : (a.setX r v).carried = a.carried := by rw [Agent.setX_eq]
@[simp] theorem Agent.setX_wfiSeen (a : Agent) (r : Reg) (v : Word) : (a.setX r v).wfiSeen = a.wfiSeen := by rw [Agent.setX_eq]
@[simp] theorem Agent.setX_turn (a : Agent) (r : Reg) (v : Word) : (a.setX r v).turn = a.turn := by rw [Agent.setX_eq]
@[simp] theorem Agent.setX_acq (a : Agent) (r : Reg) (v : Word) : (a.setX r v).acq = a.acq := by rw [Agent.setX_eq]
@[simp] theorem Agent.setX_launched (a : Agent) (r : Reg) (v : Word) : (a.setX r v).launched = a.launched := by rw [Agent.setX_eq]
@[simp] theorem Agent.setX_pended (a : Agent) (r : Reg) (v : Word) : (a.setX r v).pended = a.pended := by rw [Agent.setX_eq]
@[simp] theorem Agent.setX_wfiFrom (a : Agent) (r : Reg) (v : Word) : (a.setX r v).wfiFrom = a.wfiFrom := by rw [Agent.setX_eq]
@[simp] theorem Agent.setX_fenceAt (a : Agent) (r : Reg) (v : Word) : (a.setX r v).fenceAt = a.fenceAt := by rw [Agent.setX_eq]
@[simp] theorem Agent.setX_pipeEnd (a : Agent) (r : Reg) (v : Word) : (a.setX r v).pipeEnd = a.pipeEnd := by rw [Agent.setX_eq]
@[simp] theorem Agent.setX_holds (a : Agent) (r : Reg) (v : Word) : (a.setX r v).holds = a.holds := by rw [Agent.setX_eq]
@[simp] theorem Agent.setX_userSeq (a : Agent) (r : Reg) (v : Word) : (a.setX r v).userSeq = a.userSeq := by rw [Agent.setX_eq]

end Sys2Proof.Machine
end

