-- ==== Sys2Proof/Laws/Issue.lean ====
section
/-! SUPPORT. Sys2Proof/Laws/Issue.lean: what an instruction does when it issues, from what its body gives, so that no proof about an instruction
unfolds the hazard check or the end of a chain. -/

namespace Sys2Proof.Machine

/-- Among registers of which none is pending, none is found. -/
theorem find_none {α : Type} {p : α → Bool} : ∀ {l : List α}, (∀ r ∈ l, p r = false) → l.find? p = none := by
  intro l h
  exact List.find?_eq_none.mpr fun r hr => by simp [h r hr]

/-- Registers that are not pending make no hazard (spec/03 R87). -/
theorem State.notPending.hazard {s : State} {xs : List Reg} {ks : List Reg4} (h : s.notPending xs ks) {n : Needs} (hx : n.xr ++ n.xw = xs)
    (hk : n.kr ++ n.kw = ks) : s.me.hazard n = none := by
  unfold Agent.hazard
  rw [hx, hk, find_none h.1, find_none h.2]
  rfl

/-- The body completes. -/
theorem State.issue_ok {s t : State} {h : Hdr} {n : Needs} {body : State → Res} (hz : s.me.hazard n = none) (hb : body s = .ok t) :
    s.issue h n body = .next (s.ended h t) := by
  unfold State.issue
  rw [hz]
  dsimp only
  rw [hb]
  rfl

/-- The body completes and goes elsewhere. -/
theorem State.issue_goto {s t : State} {h : Hdr} {n : Needs} {body : State → Res} {pc : Word} (hz : s.me.hazard n = none)
    (hb : body s = .goto t pc) : s.issue h n body = .next ((t.setPc pc).upd fun a => a.retireChain h.wait) := by
  unfold State.issue
  rw [hz]
  dsimp only
  rw [hb]
  rfl

/-- The body traps. -/
theorem State.issue_trap {s : State} {h : Hdr} {n : Needs} {body : State → Res} {t : Trap} (hz : s.me.hazard n = none) (hb : body s = .trap t) :
    s.issue h n body = .next (s.takeTrap t) := by
  unfold State.issue
  rw [hz]
  dsimp only
  rw [hb]
  rfl

/-- The body does not issue yet. -/
theorem State.issue_hold {s t : State} {h : Hdr} {n : Needs} {body : State → Res} (hz : s.me.hazard n = none) (hb : body s = .hold t) :
    s.issue h n body = .next t := by
  unfold State.issue
  rw [hz]
  dsimp only
  rw [hb]
  rfl

/-- The body parks the thread at its chain. -/
theorem State.issue_park {s t : State} {h : Hdr} {n : Needs} {body : State → Res} {why : Park} (hz : s.me.hazard n = none)
    (hb : body s = .parkHere t why) : s.issue h n body = .next (t.upd fun a => { a with life := .parked why }) := by
  unfold State.issue
  rw [hz]
  dsimp only
  rw [hb]
  rfl

/-- The body ends the agent or moves it itself. -/
theorem State.issue_gone {s t : State} {h : Hdr} {n : Needs} {body : State → Res} (hz : s.me.hazard n = none) (hb : body s = .gone t) :
    s.issue h n body = .next t := by
  unfold State.issue
  rw [hz]
  dsimp only
  rw [hb]
  rfl

/-- A pending register traps with cause 0x03 and nothing else happens (spec/03 R87). -/
theorem State.issue_hazard {s : State} {h : Hdr} {n : Needs} {body : State → Res} {r : Nat} (hz : s.me.hazard n = some r) :
    s.issue h n body = .next (s.takeTrap (issueTrap 0x03 s.me.pc 0 (BitVec.ofNat 64 r))) := by
  unfold State.issue
  rw [hz]

/-- What the end of a chain changes of an agent: the chain count and order, the pending sets, the failures, the park and the mark of a wait (spec/03 R88). -/
theorem Agent.retireChain_eq (a : Agent) (w : Bool) :
    ∃ px pk mk fs lf, a.retireChain w = { a with issued := (a.issued + 1) % 2 ^ 64, order := a.order + 1, pendX := px, pendK := pk, marked := mk,
                                                  failures := fs, life := lf } := by
  unfold Agent.retireChain
  cases w
  · exact ⟨_, _, _, _, _, rfl⟩
  · dsimp only
    rw [if_neg (by decide)]
    split
    · exact ⟨_, _, _, _, _, rfl⟩
    · exact ⟨_, _, _, _, _, rfl⟩

/-- Nothing outside the `x` registers differs after an `x` register is written and the chain ends. -/
theorem Agent.sameButX_of_x (a : Agent) (x : Vector Word 32) (pc : Word) (w : Bool) :
    a.sameButX (({ a with x := x, pc := pc } : Agent).retireChain w) := by
  obtain ⟨_, _, _, _, _, e⟩ := Agent.retireChain_eq { a with x := x, pc := pc } w
  rw [e]
  rfl

/-- The registers after the end of a chain are those before it. -/
theorem Agent.getX_retireChain (a : Agent) (w : Bool) (r : Reg) : (a.retireChain w).getX r = a.getX r := by
  obtain ⟨_, _, _, _, _, e⟩ := Agent.retireChain_eq a w
  rw [e]
  rfl

/-- The program counter after the end of a chain is the one before it. -/
theorem Agent.pc_retireChain (a : Agent) (w : Bool) : (a.retireChain w).pc = a.pc := by
  obtain ⟨_, _, _, _, _, e⟩ := Agent.retireChain_eq a w
  rw [e]

/-- An instruction whose body writes one `x` register and goes on at `pc`. -/
theorem State.writesX_of {s : State} {i : Instr} {r : Reg} {v pc : Word} {w : Bool}
    (h : exec i s = .next (((s.setX r v).setPc pc).upd fun a => a.retireChain w)) : s.writesX i r v (pc &&& ~~~1) := by
  refine ⟨_, h, ?_, ?_, ?_, ?_, rfl⟩
  · exact (Agent.getX_retireChain _ w r).trans ((Agent.getX_setX s.me r r v).trans (by rw [if_pos rfl]; rfl))
  · intro q hq
    exact (Agent.getX_retireChain _ w q).trans ((Agent.getX_setX s.me r q v).trans (by rw [if_neg hq]; rfl))
  · exact Agent.pc_retireChain _ w
  · have e : ({ s.me.setX r v with pc := pc &&& ~~~1 } : Agent) = { s.me with x := (s.me.setX r v).x, pc := pc &&& ~~~1 } := by
      rw [Agent.setX_eq]
    show s.me.sameButX (({ s.me.setX r v with pc := pc &&& ~~~1 } : Agent).retireChain w)
    rw [e]
    exact Agent.sameButX_of_x ..

end Sys2Proof.Machine
end

