-- ==== Sys2Proof/Laws/Memory.lean ====
section
/-! SUPPORT. Sys2Proof/Laws/Memory.lean: every operation on memory keeps its canonical form. -/

namespace Sys2Proof.Machine

/-- A list that starts above a higher bound starts above a lower one. -/
theorem Memory.wfAbove_mono {lo hi : Nat} (h : lo ≤ hi) : ∀ {m : List Host.Cell}, Memory.wfAbove (some hi) m = true → Memory.wfAbove (some lo) m = true
  | [], _ => rfl
  | (a, b) :: t, w => by
    simp only [Memory.wfAbove, Bool.and_eq_true, decide_eq_true_eq] at w ⊢
    exact ⟨⟨by omega, w.1.2⟩, w.2⟩

/-- A list above a bound is canonical. -/
theorem Memory.wf_of_above {lo : Nat} : ∀ {m : List Host.Cell}, Memory.wfAbove (some lo) m = true → Memory.wfAbove none m = true
  | [], _ => rfl
  | (a, b) :: t, w => by
    simp only [Memory.wfAbove, Bool.and_eq_true] at w ⊢
    exact ⟨⟨trivial, w.1.2⟩, w.2⟩

/-- A cell in front of a list above it, unless it holds zero. -/
theorem Memory.wf_put {lo : Option Nat} {k : Nat} (b : Byte) {t : List Host.Cell} (hk : ∀ l, lo = some l → l < k)
    (h : Memory.wfAbove (some k) t = true) : Memory.wfAbove lo (Memory.put k b t) = true := by
  unfold Memory.put
  split
  · cases lo with
    | none => exact Memory.wf_of_above h
    | some l => exact Memory.wfAbove_mono (Nat.le_of_lt (hk l rfl)) h
  · next hb =>
    cases lo with
    | none => simp [Memory.wfAbove, h, hb]
    | some l => simp [Memory.wfAbove, h, hb, hk l rfl]

/-- A byte written keeps the form. -/
theorem Memory.wf_set {k : Nat} (b : Byte) : ∀ {lo : Option Nat} {m : List Host.Cell}, (∀ l, lo = some l → l < k) → Memory.wfAbove lo m = true →
    Memory.wfAbove lo (Memory.set m k b) = true
  | lo, [], hk, _ => Memory.wf_put b hk rfl
  | lo, (a, c) :: t, hk, w => by
    have w' := w
    simp only [Memory.wfAbove, Bool.and_eq_true] at w
    unfold Memory.set
    split
    · next e => exact Memory.wf_put b hk (e ▸ w.2)
    · next ne =>
      split
      · next lt =>
        refine Memory.wf_put b hk ?_
        simp only [Memory.wfAbove, Bool.and_eq_true, decide_eq_true_eq]
        exact ⟨⟨lt, w.1.2⟩, w.2⟩
      · next ge =>
        have := Memory.wf_set b (lo := some a) (m := t) (fun l e => Option.some.inj e ▸ Nat.lt_of_le_of_ne (Nat.le_of_not_lt ge) ‹_›) w.2
        simp only [Memory.wfAbove, Bool.and_eq_true]
        exact ⟨w.1, this⟩

/-- Bytes written keep the form. -/
theorem Memory.wf_write : ∀ (bs : List Byte) {m : List Host.Cell} (k : Nat), Memory.wf m = true → Memory.wf (Memory.write m k bs) = true
  | [], _, _, h => h
  | b :: t, _, k, h => Memory.wf_write t (k + 1) (Memory.wf_set b (lo := none) nofun h)

/-- Cells taken away keep the form. -/
theorem Memory.wf_filter (p : Host.Cell → Bool) : ∀ {lo : Option Nat} {m : List Host.Cell}, Memory.wfAbove lo m = true →
    Memory.wfAbove lo (m.filter p) = true
  | _, [], _ => rfl
  | lo, (a, b) :: t, w => by
    simp only [Memory.wfAbove, Bool.and_eq_true] at w
    rw [List.filter_cons]
    split
    · simp only [Memory.wfAbove, Bool.and_eq_true]
      exact ⟨w.1, Memory.wf_filter p w.2⟩
    · have h := Memory.wf_filter p w.2
      cases lo with
      | none => exact Memory.wf_of_above h
      | some l => exact Memory.wfAbove_mono (Nat.le_of_lt (of_decide_eq_true w.1.1)) h

/-- Bytes put at a home keep the form. -/
theorem State.poke_wf (s : State) (ep pa : Nat) (bs : List Byte) (h : Memory.wf s.mem = true) : Memory.wf (s.poke ep pa bs).mem = true :=
  Memory.wf_write bs _ h

/-- A line put under another memory key keeps the form. -/
theorem State.rekey_wf (s : State) (ep line key : Nat) (h : Memory.wf s.mem = true) : Memory.wf (s.rekey ep line key).mem = true := by
  unfold State.rekey
  split
  · exact h
  · rw [State.setLineKey_mem]
    exact s.poke_wf _ _ _ h

/-- Bytes put at a home under a memory key keep the form. -/
theorem State.pokeAs_wf (s : State) (ep key pa : Nat) (bs : List Byte) (h : Memory.wf s.mem = true) : Memory.wf (s.pokeAs ep key pa bs).mem = true :=
  State.poke_wf _ _ _ _ (s.rekey_wf _ _ _ h)

/-- Noting an error that a store met changes no memory. -/
theorem State.storeError_mem (s : State) (tag : StoreTag) (unit pa : Nat) : (s.storeError tag unit pa).mem = s.mem := by
  unfold State.storeError
  split <;> rfl

/-- A plain write at its home keeps the form. -/
theorem State.homeStore_wf (s : State) (tag : StoreTag) (ep key pa : Nat) (bs : List Byte) (h : Memory.wf s.mem = true) :
    Memory.wf (s.homeStore tag ep key pa bs).mem = true := by
  unfold State.homeStore
  split
  · exact h
  · split
    · split
      · exact s.pokeAs_wf _ _ _ _ h
      · exact State.pokeAs_wf _ _ _ _ _ ((s.storeError_mem tag _ pa).symm ▸ h)
    · exact s.pokeAs_wf _ _ _ _ h

/-- Reaching a line in the L2 changes no memory. -/
theorem State.touchL2_mem (s : State) (v : Via) (ep line : Nat) : (s.touchL2 v ep line).mem = s.mem := by
  unfold State.touchL2
  dsimp only
  split
  · split <;> rfl
  · split
    · rfl
    · split <;> rfl

/-- Steps that keep the form keep it one after another. -/
theorem State.foldl_wf {α : Type} {g : State → α → State} (hg : ∀ s r, Memory.wf s.mem = true → Memory.wf (g s r).mem = true) :
    ∀ (l : List α) (s : State), Memory.wf s.mem = true → Memory.wf (l.foldl g s).mem = true
  | [], _, h => h
  | r :: t, s, h => State.foldl_wf hg t _ (hg s r h)

/-- The dirty bytes of an RDC line that go home keep the form. -/
theorem State.writeBack_wf (s : State) (l : RdcLine) (m : BitVec 128) (h : Memory.wf s.mem = true) : Memory.wf (s.writeBack l m).mem = true := by
  unfold State.writeBack
  dsimp only
  split
  · exact h
  · split
    · exact h
    · split
      · exact State.foldl_wf (fun s r h => s.pokeAs_wf _ _ _ _ h) _ _
          (State.foldl_wf (fun s t h => (s.storeError_mem t _ _).symm ▸ h) _ _ h)
      · exact State.foldl_wf (fun s r h => s.pokeAs_wf _ _ _ _ h) _ _ h

/-- One line sent home from an RDC keeps the form. -/
theorem State.evictRdc_wf (s : State) (mod die ep line : Nat) (h : Memory.wf s.mem = true) : Memory.wf (s.evictRdc mod die ep line).mem = true := by
  unfold State.evictRdc
  split
  · exact h
  · exact s.writeBack_wf _ _ h

/-- Room made in an RDC keeps the form: a line may go home for it. -/
theorem State.rdcRoom_wf (s : State) (mod die line : Nat) (h : Memory.wf s.mem = true) : Memory.wf (s.rdcRoom mod die line).mem = true := by
  unfold State.rdcRoom
  split
  · split
    · exact h
    · exact s.evictRdc_wf _ _ _ _ h
  · exact h

/-- A line that joins an RDC keeps the form. -/
theorem State.rdcAdd_wf (s : State) (l : RdcLine) (h : Memory.wf s.mem = true) : Memory.wf (s.rdcAdd l).mem = true :=
  s.rdcRoom_wf _ _ _ h

/-- A line of an RDC that leaves it because it is seen under another memory key keeps the form. -/
theorem State.underRdc_wf (s : State) (mod die ep line key : Nat) (h : Memory.wf s.mem = true) :
    Memory.wf (s.underRdc mod die ep line key).mem = true := by
  unfold State.underRdc
  split
  · split
    · exact h
    · exact s.evictRdc_wf _ _ _ _ h
  · exact h

/-- Filling an RDC line keeps the form. -/
theorem State.rdcFill_wf (s : State) (mod die ep line key : Nat) (h : Memory.wf s.mem = true) :
    Memory.wf (s.rdcFill mod die ep line key).2.mem = true := by
  have hu := s.underRdc_wf mod die ep line key h
  unfold State.rdcFill
  dsimp only
  split
  · split <;> exact hu
  · exact State.rdcAdd_wf _ _ hu

/-- A line sent home before its bytes are overwritten keeps the form. -/
theorem State.beforeStore_wf (s : State) (mod die ep line rel : Nat) (m : BitVec 128) (h : Memory.wf s.mem = true) :
    Memory.wf (s.beforeStore mod die ep line rel m).mem = true := by
  unfold State.beforeStore
  split
  · split
    · exact s.evictRdc_wf _ _ _ _ h
    · exact h
  · exact h

/-- Bytes written into an RDC line keep the form. -/
theorem State.rdcStore_wf (s : State) (mod die ep line key : Nat) (tag : StoreTag) (o : Nat) (bs : List Byte) (h : Memory.wf s.mem = true) :
    Memory.wf (s.rdcStore mod die ep line key tag o bs).mem = true := by
  have hu : Memory.wf (((s.underRdc mod die ep line key).beforeStore mod die ep line tag.rel (maskSpan o bs.length)).dropData mod die ep line).mem =
      true := State.beforeStore_wf _ _ _ _ _ _ _ (s.underRdc_wf mod die ep line key h)
  unfold State.rdcStore
  dsimp only
  split
  · exact hu
  · exact State.rdcAdd_wf _ _ hu

/-- A read keeps the form. -/
theorem State.readLine_wf (s : State) (v : Via) (pa n : Nat) (h : Memory.wf s.mem = true) : Memory.wf (s.readLine v pa n).2.mem = true := by
  unfold State.readLine
  dsimp only
  split
  · rw [State.touchL2_mem]
    exact h
  · refine State.rdcFill_wf _ _ _ _ _ _ ?_
    split
    · exact h
    · rw [State.touchL2_mem]
      exact h

/-- A plain write of one line keeps the form. -/
theorem State.writeLine_wf (s : State) (v : Via) (tag : StoreTag) (pa : Nat) (bs : List Byte) (h : Memory.wf s.mem = true) :
    Memory.wf (s.writeLine v tag pa bs).mem = true := by
  unfold State.writeLine
  dsimp only
  split
  · rw [State.touchL2_mem]
    exact State.homeStore_wf _ _ _ _ _ _ h
  · exact State.rdcStore_wf _ _ _ _ _ _ _ _ _ h

/-- A write of several lines keeps the form. -/
theorem State.writeSpans_wf (v : Via) (tag : StoreTag) : ∀ (l : List (Nat × Nat)) (s : State) (bs : List Byte), Memory.wf s.mem = true →
    Memory.wf (s.writeSpans v tag l bs).mem = true
  | [], _, _, h => h
  | (pa, n) :: t, s, bs, h => State.writeSpans_wf v tag t _ _ (s.writeLine_wf v tag pa (bs.take n) h)

/-- A write of any length keeps the form. -/
theorem State.writePhys_wf (s : State) (v : Via) (tag : StoreTag) (pa : Nat) (bs : List Byte) (h : Memory.wf s.mem = true) :
    Memory.wf (s.writePhys v tag pa bs).mem = true := State.writeSpans_wf v tag _ s bs h

/-- A read of any length keeps the form. -/
theorem State.readSpans_wf (v : Via) : ∀ (l : List (Nat × Nat)) (s : State), Memory.wf s.mem = true → Memory.wf (s.readSpans v l).2.mem = true
  | [], _, h => h
  | (pa, n) :: t, s, h => State.readSpans_wf v t _ (s.readLine_wf v pa n h)

/-- An RDC emptied of its dirty bytes keeps the form. -/
theorem State.flushRdc_wf (s : State) (mod die sc : Nat) (h : Memory.wf s.mem = true) : Memory.wf (s.flushRdc mod die sc).mem = true :=
  State.foldl_wf (fun s l h => s.writeBack_wf l _ h) _ s h

/-- Reaching a home from another die keeps the form. -/
theorem State.reachHome_wf (s : State) (v : Via) (line : Nat) (h : Memory.wf s.mem = true) : Memory.wf (s.reachHome v line).mem = true := by
  unfold State.reachHome
  dsimp only
  rw [State.touchL2_mem]
  split
  · exact h
  · exact State.evictRdc_wf _ _ _ _ _ h

/-- A release keeps the form. -/
theorem State.release_wf (s : State) (loc : Loc) (sc : Nat) (h : Memory.wf s.mem = true) : Memory.wf (s.release loc sc).mem = true := by
  unfold State.release
  split
  · exact s.flushRdc_wf _ _ _ h
  · exact h

/-- An acquire keeps the form. -/
theorem State.acquire_wf (s : State) (loc : Loc) (sc : Nat) (h : Memory.wf s.mem = true) : Memory.wf (s.acquire loc sc).mem = true := by
  unfold State.acquire
  split
  · exact s.flushRdc_wf _ _ _ h
  · exact h

end Sys2Proof.Machine
end

