-- ==== Sys2Proof/Laws/PerInstr.lean ====
section
/-! SUPPORT. Sys2Proof/Laws/PerInstr.lean: the family Encoding, one lemma for each instruction: its chain, made from its operands, finds the entry of its
opcode, which accepts it and reads its operands back. -/

/-- A well-formed instruction has a chain, and the chain decodes to the instruction's row. -/
def Sys2Proof.Laws.Encoding.Statement (i : Sys2Proof.Instr) : Prop :=
  i.wf = true → ∃ c, i.chain = some c ∧ Sys2Proof.chainDecode c = .ok i.decodedRow

namespace Sys2Proof.Laws

open Encoding (Statement)

theorem Encoding.add (h : Hdr) (o : RRI) : Statement (.add h o) := by
  intro hw
  have w : (lenOk 0 (o.t.words + present o.ext) h && o.t.ok 3 && extPlain o.ext) = true := hw
  simp only [Bool.and_eq_true] at w
  exact ⟨_, rfl, row_decodes rfl (accepts_of (Nat.zero_le _) (regImm_len w.1.2) (nofun) (nofun) (fun _ => rfl))
    (show _ = some (Instr.add h o) by simp [RRI.back _ _ _ _ w.1.2]) hw⟩

theorem Encoding.sub (h : Hdr) (o : RRI) : Statement (.sub h o) := by
  intro hw
  have w : (lenOk 0 (o.t.words + present o.ext) h && o.t.ok 3 && extPlain o.ext) = true := hw
  simp only [Bool.and_eq_true] at w
  exact ⟨_, rfl, row_decodes rfl (accepts_of (Nat.zero_le _) (regImm_len w.1.2) (nofun) (nofun) (fun _ => rfl))
    (show _ = some (Instr.sub h o) by simp [RRI.back _ _ _ _ w.1.2]) hw⟩

theorem Encoding.and (h : Hdr) (o : RRI) : Statement (.and h o) := by
  intro hw
  have w : (lenOk 0 (o.t.words + present o.ext) h && o.t.ok 3 && extPlain o.ext) = true := hw
  simp only [Bool.and_eq_true] at w
  exact ⟨_, rfl, row_decodes rfl (accepts_of (Nat.zero_le _) (regImm_len w.1.2) (nofun) (nofun) (fun _ => rfl))
    (show _ = some (Instr.and h o) by simp [RRI.back _ _ _ _ w.1.2]) hw⟩

theorem Encoding.or (h : Hdr) (o : RRI) : Statement (.or h o) := by
  intro hw
  have w : (lenOk 0 (o.t.words + present o.ext) h && o.t.ok 3 && extPlain o.ext) = true := hw
  simp only [Bool.and_eq_true] at w
  exact ⟨_, rfl, row_decodes rfl (accepts_of (Nat.zero_le _) (regImm_len w.1.2) (nofun) (nofun) (fun _ => rfl))
    (show _ = some (Instr.or h o) by simp [RRI.back _ _ _ _ w.1.2]) hw⟩

theorem Encoding.xor (h : Hdr) (o : RRI) : Statement (.xor h o) := by
  intro hw
  have w : (lenOk 0 (o.t.words + present o.ext) h && o.t.ok 3 && extPlain o.ext) = true := hw
  simp only [Bool.and_eq_true] at w
  exact ⟨_, rfl, row_decodes rfl (accepts_of (Nat.zero_le _) (regImm_len w.1.2) (nofun) (nofun) (fun _ => rfl))
    (show _ = some (Instr.xor h o) by simp [RRI.back _ _ _ _ w.1.2]) hw⟩

theorem Encoding.sll (h : Hdr) (o : RRI) : Statement (.sll h o) := by
  intro hw
  have w : (lenOk 0 (o.t.words + present o.ext) h && o.t.ok 3 && extPlain o.ext && o.t.within 0 63) = true := hw
  simp only [Bool.and_eq_true] at w
  exact ⟨_, rfl, row_decodes rfl (accepts_of (Nat.zero_le _) (regImm_len w.1.1.2) (nofun) (nofun) (fun _ => rfl))
    (show _ = some (Instr.sll h o) by simp [RRI.back _ _ _ _ w.1.1.2]) hw⟩

theorem Encoding.srl (h : Hdr) (o : RRI) : Statement (.srl h o) := by
  intro hw
  have w : (lenOk 0 (o.t.words + present o.ext) h && o.t.ok 3 && extPlain o.ext && o.t.within 0 63) = true := hw
  simp only [Bool.and_eq_true] at w
  exact ⟨_, rfl, row_decodes rfl (accepts_of (Nat.zero_le _) (regImm_len w.1.1.2) (nofun) (nofun) (fun _ => rfl))
    (show _ = some (Instr.srl h o) by simp [RRI.back _ _ _ _ w.1.1.2]) hw⟩

theorem Encoding.sra (h : Hdr) (o : RRI) : Statement (.sra h o) := by
  intro hw
  have w : (lenOk 0 (o.t.words + present o.ext) h && o.t.ok 3 && extPlain o.ext && o.t.within 0 63) = true := hw
  simp only [Bool.and_eq_true] at w
  exact ⟨_, rfl, row_decodes rfl (accepts_of (Nat.zero_le _) (regImm_len w.1.1.2) (nofun) (nofun) (fun _ => rfl))
    (show _ = some (Instr.sra h o) by simp [RRI.back _ _ _ _ w.1.1.2]) hw⟩

theorem Encoding.slt (h : Hdr) (o : RRI) : Statement (.slt h o) := by
  intro hw
  have w : (lenOk 0 (o.t.words + present o.ext) h && o.t.ok 3 && extPlain o.ext) = true := hw
  simp only [Bool.and_eq_true] at w
  exact ⟨_, rfl, row_decodes rfl (accepts_of (Nat.zero_le _) (regImm_len w.1.2) (nofun) (nofun) (fun _ => rfl))
    (show _ = some (Instr.slt h o) by simp [RRI.back _ _ _ _ w.1.2]) hw⟩

theorem Encoding.sltu (h : Hdr) (o : RRI) : Statement (.sltu h o) := by
  intro hw
  have w : (lenOk 0 (o.t.words + present o.ext) h && o.t.ok 3 && extPlain o.ext) = true := hw
  simp only [Bool.and_eq_true] at w
  exact ⟨_, rfl, row_decodes rfl (accepts_of (Nat.zero_le _) (regImm_len w.1.2) (nofun) (nofun) (fun _ => rfl))
    (show _ = some (Instr.sltu h o) by simp [RRI.back _ _ _ _ w.1.2]) hw⟩

theorem Encoding.li (h : Hdr) (o : LI) : Statement (.li h o) := by
  intro hw
  have w : (lenOk 0 (o.i.ws.length) h && decide (o.i.ws.length ≤ 4)) = true := hw
  simp only [Bool.and_eq_true] at w
  exact ⟨_, rfl, row_decodes rfl (accepts_of (Nat.zero_le _) (of_decide_eq_true w.2) (fun _ => rfl) (nofun) (fun _ => rfl))
    (show _ = some (Instr.li h o) by simp [LI.back]) hw⟩

theorem Encoding.lhi (h : Hdr) (o : LI) : Statement (.lhi h o) := by
  intro hw
  have w : (lenOk 0 (o.i.ws.length) h && decide (o.i.ws.length ≤ 4) && decide (-(2 : Int) ^ 31 ≤ o.i.int) && decide (o.i.int < (2 : Int) ^ 31)) = true := hw
  simp only [Bool.and_eq_true] at w
  exact ⟨_, rfl, row_decodes rfl (accepts_of (Nat.zero_le _) (of_decide_eq_true w.1.1.2) (fun _ => rfl) (nofun) (fun _ => rfl))
    (show _ = some (Instr.lhi h o) by simp [LI.back]) hw⟩

theorem Encoding.ld (h : Hdr) (o : ADR) : Statement (.ld h o) := by
  intro hw
  have w : (lenOk 0 (o.t.words + present o.ext + present o.mask) h && o.t.ok 3 && noMask o.mask && decide ((extSel o.ext).toNat ≤ 6)) = true := hw
  simp only [Bool.and_eq_true] at w
  exact ⟨_, rfl, row_decodes rfl (accepts_of (Nat.zero_le _) (regImm_len w.1.1.2) (nofun) (nofun) (fun _ => by simp [ADR.chain, chainOf, Option.isNone_iff_eq_none.mp w.1.2]))
    (show _ = some (Instr.ld h o) by simp [ADR.back _ _ _ _ w.1.1.2]) hw⟩

theorem Encoding.st (h : Hdr) (o : ADR) : Statement (.st h o) := by
  intro hw
  have w : (lenOk 0 (o.t.words + present o.ext + present o.mask) h && o.t.ok 3 && noMask o.mask && decide ((extSel o.ext).toNat ≤ 3)) = true := hw
  simp only [Bool.and_eq_true] at w
  exact ⟨_, rfl, row_decodes rfl (accepts_of (Nat.zero_le _) (regImm_len w.1.1.2) (nofun) (nofun) (fun _ => by simp [ADR.chain, chainOf, Option.isNone_iff_eq_none.mp w.1.2]))
    (show _ = some (Instr.st h o) by simp [ADR.back _ _ _ _ w.1.1.2]) hw⟩

theorem Encoding.beq (h : Hdr) (o : BR) : Statement (.beq h o) := by
  intro hw
  have w : (lenOk 0 (o.off.length) h && decide (1 ≤ o.off.length) && decide (o.off.length ≤ 4)) = true := hw
  simp only [Bool.and_eq_true] at w
  exact ⟨_, rfl, row_decodes rfl (accepts_of (of_decide_eq_true w.1.2) (of_decide_eq_true w.2) (fun _ => rfl) (nofun) (fun _ => rfl))
    (show _ = some (Instr.beq h o) by simp [BR.back]) hw⟩

theorem Encoding.bne (h : Hdr) (o : BR) : Statement (.bne h o) := by
  intro hw
  have w : (lenOk 0 (o.off.length) h && decide (1 ≤ o.off.length) && decide (o.off.length ≤ 4)) = true := hw
  simp only [Bool.and_eq_true] at w
  exact ⟨_, rfl, row_decodes rfl (accepts_of (of_decide_eq_true w.1.2) (of_decide_eq_true w.2) (fun _ => rfl) (nofun) (fun _ => rfl))
    (show _ = some (Instr.bne h o) by simp [BR.back]) hw⟩

theorem Encoding.blt (h : Hdr) (o : BR) : Statement (.blt h o) := by
  intro hw
  have w : (lenOk 0 (o.off.length) h && decide (1 ≤ o.off.length) && decide (o.off.length ≤ 4)) = true := hw
  simp only [Bool.and_eq_true] at w
  exact ⟨_, rfl, row_decodes rfl (accepts_of (of_decide_eq_true w.1.2) (of_decide_eq_true w.2) (fun _ => rfl) (nofun) (fun _ => rfl))
    (show _ = some (Instr.blt h o) by simp [BR.back]) hw⟩

theorem Encoding.bge (h : Hdr) (o : BR) : Statement (.bge h o) := by
  intro hw
  have w : (lenOk 0 (o.off.length) h && decide (1 ≤ o.off.length) && decide (o.off.length ≤ 4)) = true := hw
  simp only [Bool.and_eq_true] at w
  exact ⟨_, rfl, row_decodes rfl (accepts_of (of_decide_eq_true w.1.2) (of_decide_eq_true w.2) (fun _ => rfl) (nofun) (fun _ => rfl))
    (show _ = some (Instr.bge h o) by simp [BR.back]) hw⟩

theorem Encoding.bltu (h : Hdr) (o : BR) : Statement (.bltu h o) := by
  intro hw
  have w : (lenOk 0 (o.off.length) h && decide (1 ≤ o.off.length) && decide (o.off.length ≤ 4)) = true := hw
  simp only [Bool.and_eq_true] at w
  exact ⟨_, rfl, row_decodes rfl (accepts_of (of_decide_eq_true w.1.2) (of_decide_eq_true w.2) (fun _ => rfl) (nofun) (fun _ => rfl))
    (show _ = some (Instr.bltu h o) by simp [BR.back]) hw⟩

theorem Encoding.bgeu (h : Hdr) (o : BR) : Statement (.bgeu h o) := by
  intro hw
  have w : (lenOk 0 (o.off.length) h && decide (1 ≤ o.off.length) && decide (o.off.length ≤ 4)) = true := hw
  simp only [Bool.and_eq_true] at w
  exact ⟨_, rfl, row_decodes rfl (accepts_of (of_decide_eq_true w.1.2) (of_decide_eq_true w.2) (fun _ => rfl) (nofun) (fun _ => rfl))
    (show _ = some (Instr.bgeu h o) by simp [BR.back]) hw⟩

theorem Encoding.jal (h : Hdr) (o : JL) : Statement (.jal h o) := by
  intro hw
  have w : (lenOk 0 (o.off.length) h && decide (1 ≤ o.off.length) && decide (o.off.length ≤ 4)) = true := hw
  simp only [Bool.and_eq_true] at w
  exact ⟨_, rfl, row_decodes rfl (accepts_of (of_decide_eq_true w.1.2) (of_decide_eq_true w.2) (fun _ => rfl) (nofun) (fun _ => rfl))
    (show _ = some (Instr.jal h o) by simp [JL.back]) hw⟩

theorem Encoding.jalr (h : Hdr) (o : ADR) : Statement (.jalr h o) := by
  intro hw
  have w : (lenOk 0 (o.t.words + present o.ext + present o.mask) h && o.t.ok 3 && noMask o.mask && extPlain o.ext) = true := hw
  simp only [Bool.and_eq_true] at w
  exact ⟨_, rfl, row_decodes rfl (accepts_of (Nat.zero_le _) (regImm_len w.1.1.2) (nofun) (nofun) (fun _ => by simp [ADR.chain, chainOf, Option.isNone_iff_eq_none.mp w.1.2]))
    (show _ = some (Instr.jalr h o) by simp [ADR.back _ _ _ _ w.1.1.2]) hw⟩

theorem Encoding.fence (h : Hdr) (o : FEN) : Statement (.fence h o) := by
  intro hw
  exact ⟨_, rfl, row_decodes rfl (accepts_of (Nat.zero_le _) (Nat.le_refl _) (nofun) (nofun) (fun _ => rfl))
    (show _ = some (Instr.fence h o) by simp [FEN.back]) hw⟩

theorem Encoding.fenceComplete (n : Nat) : Statement (.fenceComplete n) := fun h => nomatch h

theorem Encoding.mul (h : Hdr) (o : RRI) : Statement (.mul h o) := by
  intro hw
  have w : (lenOk 0 (o.t.words + present o.ext) h && o.t.ok 3 && extPlain o.ext) = true := hw
  simp only [Bool.and_eq_true] at w
  exact ⟨_, rfl, row_decodes rfl (accepts_of (Nat.zero_le _) (regImm_len w.1.2) (nofun) (nofun) (fun _ => rfl))
    (show _ = some (Instr.mul h o) by simp [RRI.back _ _ _ _ w.1.2]) hw⟩

theorem Encoding.addq (h : Hdr) (o : LI) : Statement (.addq h o) := by
  intro hw
  have w : (lenOk 0 (o.i.ws.length) h && decide (o.i.ws.length ≤ 4)) = true := hw
  simp only [Bool.and_eq_true] at w
  exact ⟨_, rfl, row_decodes rfl (accepts_of (Nat.zero_le _) (of_decide_eq_true w.2) (fun _ => rfl) (nofun) (fun _ => rfl))
    (show _ = some (Instr.addq h o) by simp [LI.back]) hw⟩

theorem Encoding.la (h : Hdr) (o : LI) : Statement (.la h o) := by
  intro hw
  have w : (lenOk 0 (o.i.ws.length) h && decide (o.i.ws.length ≤ 4) && decide (1 ≤ o.i.ws.length)) = true := hw
  simp only [Bool.and_eq_true] at w
  exact ⟨_, rfl, row_decodes rfl (accepts_of (Nat.zero_le _) (of_decide_eq_true w.1.2) (fun _ => rfl) (nofun) (fun _ => rfl))
    (show _ = some (Instr.la h o) by simp [LI.back]) hw⟩

theorem Encoding.mfcr (h : Hdr) (o : CRN) : Statement (.mfcr h o) := by
  intro hw
  have w : (lenOk 0 (o.i.ws.length) h && decide (o.i.ws.length ≤ 4) && decide (o.i.nat ≤ 4095) && crListed o.i.nat && !crStream o.i.nat) = true := hw
  simp only [Bool.and_eq_true] at w
  exact ⟨_, rfl, row_decodes rfl (accepts_of (Nat.zero_le _) (of_decide_eq_true w.1.1.1.2) (fun _ => rfl) (nofun) (fun _ => rfl))
    (show _ = some (Instr.mfcr h o) by simp [CRN.back, mfcrRow, show crStream o.i.nat = false by simpa using w.2]) hw⟩

theorem Encoding.mfcrStream (h : Hdr) (o : CRN) : Statement (.mfcrStream h o) := by
  intro hw
  have w : (lenOk 0 (o.i.ws.length) h && decide (o.i.ws.length ≤ 4) && decide (o.i.nat ≤ 4095) && crStream o.i.nat) = true := hw
  simp only [Bool.and_eq_true] at w
  exact ⟨_, rfl, row_decodes rfl (accepts_of (Nat.zero_le _) (of_decide_eq_true w.1.1.2) (fun _ => rfl) (nofun) (fun _ => rfl))
    (show _ = some (Instr.mfcrStream h o) by simp [CRN.back, mfcrRow, w.2]) hw⟩

theorem Encoding.mtcr (h : Hdr) (o : CRN) : Statement (.mtcr h o) := by
  intro hw
  have w : (lenOk 0 (o.i.ws.length) h && decide (o.i.ws.length ≤ 4) && decide (o.i.nat ≤ 4095) && crListed o.i.nat && !crOwnRow o.i.nat) = true := hw
  simp only [Bool.and_eq_true] at w
  exact ⟨_, rfl, row_decodes rfl (accepts_of (Nat.zero_le _) (of_decide_eq_true w.1.1.1.2) (fun _ => rfl) (nofun) (fun _ => rfl))
    (show _ = some (Instr.mtcr h o) by simp [CRN.back, mtcrRow_plain w.2]) hw⟩

theorem Encoding.mtcrVl (h : Hdr) (o : CRN) : Statement (.mtcrVl h o) := by
  intro hw
  have w : (lenOk 0 (o.i.ws.length) h && decide (o.i.ws.length ≤ 4) && decide (o.i.nat ≤ 4095) && o.i.nat == 0) = true := hw
  simp only [Bool.and_eq_true] at w
  exact ⟨_, rfl, row_decodes rfl (accepts_of (Nat.zero_le _) (of_decide_eq_true w.1.1.2) (fun _ => rfl) (nofun) (fun _ => rfl))
    (show _ = some (Instr.mtcrVl h o) by simp [CRN.back, mtcrRow, eq_of_beq w.2]) hw⟩

theorem Encoding.mtcrEfc (h : Hdr) (o : CRN) : Statement (.mtcrEfc h o) := by
  intro hw
  have w : (lenOk 0 (o.i.ws.length) h && decide (o.i.ws.length ≤ 4) && decide (o.i.nat ≤ 4095) && o.i.nat == 5) = true := hw
  simp only [Bool.and_eq_true] at w
  exact ⟨_, rfl, row_decodes rfl (accepts_of (Nat.zero_le _) (of_decide_eq_true w.1.1.2) (fun _ => rfl) (nofun) (fun _ => rfl))
    (show _ = some (Instr.mtcrEfc h o) by simp [CRN.back, mtcrRow, eq_of_beq w.2]) hw⟩

theorem Encoding.mtcrFpcsr (h : Hdr) (o : CRN) : Statement (.mtcrFpcsr h o) := by
  intro hw
  have w : (lenOk 0 (o.i.ws.length) h && decide (o.i.ws.length ≤ 4) && decide (o.i.nat ≤ 4095) && o.i.nat == 6) = true := hw
  simp only [Bool.and_eq_true] at w
  exact ⟨_, rfl, row_decodes rfl (accepts_of (Nat.zero_le _) (of_decide_eq_true w.1.1.2) (fun _ => rfl) (nofun) (fun _ => rfl))
    (show _ = some (Instr.mtcrFpcsr h o) by simp [CRN.back, mtcrRow, eq_of_beq w.2]) hw⟩

theorem Encoding.mtcrSlip (h : Hdr) (o : CRN) : Statement (.mtcrSlip h o) := by
  intro hw
  have w : (lenOk 0 (o.i.ws.length) h && decide (o.i.ws.length ≤ 4) && decide (o.i.nat ≤ 4095) && o.i.nat == 4) = true := hw
  simp only [Bool.and_eq_true] at w
  exact ⟨_, rfl, row_decodes rfl (accepts_of (Nat.zero_le _) (of_decide_eq_true w.1.1.2) (fun _ => rfl) (nofun) (fun _ => rfl))
    (show _ = some (Instr.mtcrSlip h o) by simp [CRN.back, mtcrRow, eq_of_beq w.2]) hw⟩

theorem Encoding.mtcrSattr (h : Hdr) (o : CRN) : Statement (.mtcrSattr h o) := by
  intro hw
  have w : (lenOk 0 (o.i.ws.length) h && decide (o.i.ws.length ≤ 4) && decide (o.i.nat ≤ 4095) && o.i.nat == 16) = true := hw
  simp only [Bool.and_eq_true] at w
  exact ⟨_, rfl, row_decodes rfl (accepts_of (Nat.zero_le _) (of_decide_eq_true w.1.1.2) (fun _ => rfl) (nofun) (fun _ => rfl))
    (show _ = some (Instr.mtcrSattr h o) by simp [CRN.back, mtcrRow, eq_of_beq w.2]) hw⟩

theorem Encoding.mtcrGangto (h : Hdr) (o : CRN) : Statement (.mtcrGangto h o) := by
  intro hw
  have w : (lenOk 0 (o.i.ws.length) h && decide (o.i.ws.length ≤ 4) && decide (o.i.nat ≤ 4095) && o.i.nat == 80) = true := hw
  simp only [Bool.and_eq_true] at w
  exact ⟨_, rfl, row_decodes rfl (accepts_of (Nat.zero_le _) (of_decide_eq_true w.1.1.2) (fun _ => rfl) (nofun) (fun _ => rfl))
    (show _ = some (Instr.mtcrGangto h o) by simp [CRN.back, mtcrRow, eq_of_beq w.2]) hw⟩

theorem Encoding.brk (h : Hdr) (o : COD) : Statement (.brk h o) := by
  intro hw
  have w : (lenOk 0 (o.i.ws.length) h && decide (o.i.ws.length ≤ 4)) = true := hw
  simp only [Bool.and_eq_true] at w
  exact ⟨_, rfl, row_decodes rfl (accepts_of (Nat.zero_le _) (of_decide_eq_true w.2) (fun _ => rfl) (nofun) (fun _ => rfl))
    (show _ = some (Instr.brk h o) by simp [COD.back]) hw⟩

theorem Encoding.ecall (h : Hdr) (o : COD) : Statement (.ecall h o) := by
  intro hw
  have w : (lenOk 0 (o.i.ws.length) h && decide (o.i.ws.length ≤ 4)) = true := hw
  simp only [Bool.and_eq_true] at w
  exact ⟨_, rfl, row_decodes rfl (accepts_of (Nat.zero_le _) (of_decide_eq_true w.2) (fun _ => rfl) (nofun) (fun _ => rfl))
    (show _ = some (Instr.ecall h o) by simp [COD.back]) hw⟩

theorem Encoding.udf (c : Chain) : Statement (.udf c) := by
  intro hw
  obtain ⟨wt, len, page, ws, ext, mask, op, b, a⟩ := c
  have w : (page == 0 && op == 30 && decide (ws.length + present ext + present mask + 1 ≤ len) && decide (len ≤ 5)
      && decide (len ≤ ws.length + present ext + present mask + 2) && (mask.elim true fun m => decide (m.toNat < 128))) = true := hw
  simp only [Bool.and_eq_true, decide_eq_true_eq] at w
  obtain ⟨⟨⟨⟨⟨hp, ho⟩, h1⟩, h2⟩, -⟩, -⟩ := w
  cases eq_of_beq hp
  cases eq_of_beq ho
  exact ⟨_, rfl, row_decodes rfl (accepts_of (Nat.zero_le _) (show ws.length ≤ 4 by omega) nofun nofun nofun) rfl hw⟩

theorem Encoding.mulh (h : Hdr) (o : RRI) : Statement (.mulh h o) := by
  intro hw
  have w : (lenOk 1 (o.t.words + present o.ext) h && o.t.ok 3 && extPlain o.ext) = true := hw
  simp only [Bool.and_eq_true] at w
  exact ⟨_, rfl, row_decodes rfl (accepts_of (Nat.zero_le _) (regImm_len w.1.2) (nofun) (nofun) (fun _ => rfl))
    (show _ = some (Instr.mulh h o) by simp [RRI.back _ _ _ _ w.1.2]) hw⟩

theorem Encoding.mulhu (h : Hdr) (o : RRI) : Statement (.mulhu h o) := by
  intro hw
  have w : (lenOk 1 (o.t.words + present o.ext) h && o.t.ok 3 && extPlain o.ext) = true := hw
  simp only [Bool.and_eq_true] at w
  exact ⟨_, rfl, row_decodes rfl (accepts_of (Nat.zero_le _) (regImm_len w.1.2) (nofun) (nofun) (fun _ => rfl))
    (show _ = some (Instr.mulhu h o) by simp [RRI.back _ _ _ _ w.1.2]) hw⟩

theorem Encoding.div (h : Hdr) (o : RRI) : Statement (.div h o) := by
  intro hw
  have w : (lenOk 1 (o.t.words + present o.ext) h && o.t.ok 3 && extPlain o.ext) = true := hw
  simp only [Bool.and_eq_true] at w
  exact ⟨_, rfl, row_decodes rfl (accepts_of (Nat.zero_le _) (regImm_len w.1.2) (nofun) (nofun) (fun _ => rfl))
    (show _ = some (Instr.div h o) by simp [RRI.back _ _ _ _ w.1.2]) hw⟩

theorem Encoding.divu (h : Hdr) (o : RRI) : Statement (.divu h o) := by
  intro hw
  have w : (lenOk 1 (o.t.words + present o.ext) h && o.t.ok 3 && extPlain o.ext) = true := hw
  simp only [Bool.and_eq_true] at w
  exact ⟨_, rfl, row_decodes rfl (accepts_of (Nat.zero_le _) (regImm_len w.1.2) (nofun) (nofun) (fun _ => rfl))
    (show _ = some (Instr.divu h o) by simp [RRI.back _ _ _ _ w.1.2]) hw⟩

theorem Encoding.rem (h : Hdr) (o : RRI) : Statement (.rem h o) := by
  intro hw
  have w : (lenOk 1 (o.t.words + present o.ext) h && o.t.ok 3 && extPlain o.ext) = true := hw
  simp only [Bool.and_eq_true] at w
  exact ⟨_, rfl, row_decodes rfl (accepts_of (Nat.zero_le _) (regImm_len w.1.2) (nofun) (nofun) (fun _ => rfl))
    (show _ = some (Instr.rem h o) by simp [RRI.back _ _ _ _ w.1.2]) hw⟩

theorem Encoding.remu (h : Hdr) (o : RRI) : Statement (.remu h o) := by
  intro hw
  have w : (lenOk 1 (o.t.words + present o.ext) h && o.t.ok 3 && extPlain o.ext) = true := hw
  simp only [Bool.and_eq_true] at w
  exact ⟨_, rfl, row_decodes rfl (accepts_of (Nat.zero_le _) (regImm_len w.1.2) (nofun) (nofun) (fun _ => rfl))
    (show _ = some (Instr.remu h o) by simp [RRI.back _ _ _ _ w.1.2]) hw⟩

theorem Encoding.clz (h : Hdr) (o : RU) : Statement (.clz h o) := by
  intro hw
  exact ⟨_, rfl, row_decodes rfl (accepts_of (Nat.zero_le _) (Nat.le_refl _) (fun _ => rfl) (nofun) (fun _ => rfl))
    (show _ = some (Instr.clz h o) by simp [RU.back]) hw⟩

theorem Encoding.ctz (h : Hdr) (o : RU) : Statement (.ctz h o) := by
  intro hw
  exact ⟨_, rfl, row_decodes rfl (accepts_of (Nat.zero_le _) (Nat.le_refl _) (fun _ => rfl) (nofun) (fun _ => rfl))
    (show _ = some (Instr.ctz h o) by simp [RU.back]) hw⟩

theorem Encoding.popc (h : Hdr) (o : RU) : Statement (.popc h o) := by
  intro hw
  exact ⟨_, rfl, row_decodes rfl (accepts_of (Nat.zero_le _) (Nat.le_refl _) (fun _ => rfl) (nofun) (fun _ => rfl))
    (show _ = some (Instr.popc h o) by simp [RU.back]) hw⟩

theorem Encoding.rotl (h : Hdr) (o : RRI) : Statement (.rotl h o) := by
  intro hw
  have w : (lenOk 1 (o.t.words + present o.ext) h && o.t.ok 3 && extPlain o.ext && o.t.within 0 63) = true := hw
  simp only [Bool.and_eq_true] at w
  exact ⟨_, rfl, row_decodes rfl (accepts_of (Nat.zero_le _) (regImm_len w.1.1.2) (nofun) (nofun) (fun _ => rfl))
    (show _ = some (Instr.rotl h o) by simp [RRI.back _ _ _ _ w.1.1.2]) hw⟩

theorem Encoding.bext (h : Hdr) (o : RRI) : Statement (.bext h o) := by
  intro hw
  have w : (lenOk 1 (o.t.words + present o.ext) h && o.t.ok 3 && extPlain o.ext) = true := hw
  simp only [Bool.and_eq_true] at w
  exact ⟨_, rfl, row_decodes rfl (accepts_of (Nat.zero_le _) (regImm_len w.1.2) (nofun) (nofun) (fun _ => rfl))
    (show _ = some (Instr.bext h o) by simp [RRI.back _ _ _ _ w.1.2]) hw⟩

theorem Encoding.bdep (h : Hdr) (o : RRI) : Statement (.bdep h o) := by
  intro hw
  have w : (lenOk 1 (o.t.words + present o.ext) h && o.t.ok 3 && extPlain o.ext) = true := hw
  simp only [Bool.and_eq_true] at w
  exact ⟨_, rfl, row_decodes rfl (accepts_of (Nat.zero_le _) (regImm_len w.1.2) (nofun) (nofun) (fun _ => rfl))
    (show _ = some (Instr.bdep h o) by simp [RRI.back _ _ _ _ w.1.2]) hw⟩

theorem Encoding.min (h : Hdr) (o : RRI) : Statement (.min h o) := by
  intro hw
  have w : (lenOk 1 (o.t.words + present o.ext) h && o.t.ok 3 && extPlain o.ext) = true := hw
  simp only [Bool.and_eq_true] at w
  exact ⟨_, rfl, row_decodes rfl (accepts_of (Nat.zero_le _) (regImm_len w.1.2) (nofun) (nofun) (fun _ => rfl))
    (show _ = some (Instr.min h o) by simp [RRI.back _ _ _ _ w.1.2]) hw⟩

theorem Encoding.max (h : Hdr) (o : RRI) : Statement (.max h o) := by
  intro hw
  have w : (lenOk 1 (o.t.words + present o.ext) h && o.t.ok 3 && extPlain o.ext) = true := hw
  simp only [Bool.and_eq_true] at w
  exact ⟨_, rfl, row_decodes rfl (accepts_of (Nat.zero_le _) (regImm_len w.1.2) (nofun) (nofun) (fun _ => rfl))
    (show _ = some (Instr.max h o) by simp [RRI.back _ _ _ _ w.1.2]) hw⟩

theorem Encoding.minu (h : Hdr) (o : RRI) : Statement (.minu h o) := by
  intro hw
  have w : (lenOk 1 (o.t.words + present o.ext) h && o.t.ok 3 && extPlain o.ext) = true := hw
  simp only [Bool.and_eq_true] at w
  exact ⟨_, rfl, row_decodes rfl (accepts_of (Nat.zero_le _) (regImm_len w.1.2) (nofun) (nofun) (fun _ => rfl))
    (show _ = some (Instr.minu h o) by simp [RRI.back _ _ _ _ w.1.2]) hw⟩

theorem Encoding.maxu (h : Hdr) (o : RRI) : Statement (.maxu h o) := by
  intro hw
  have w : (lenOk 1 (o.t.words + present o.ext) h && o.t.ok 3 && extPlain o.ext) = true := hw
  simp only [Bool.and_eq_true] at w
  exact ⟨_, rfl, row_decodes rfl (accepts_of (Nat.zero_le _) (regImm_len w.1.2) (nofun) (nofun) (fun _ => rfl))
    (show _ = some (Instr.maxu h o) by simp [RRI.back _ _ _ _ w.1.2]) hw⟩

theorem Encoding.amoadd (h : Hdr) (o : AMO) : Statement (.amoadd h o) := by
  intro hw
  exact ⟨_, rfl, row_decodes rfl (accepts_of (Nat.zero_le _) (Nat.le_refl _) (nofun) (fun _ => rfl) (fun _ => rfl))
    (show _ = some (Instr.amoadd h o) by simp [AMO.back]) hw⟩

theorem Encoding.amoswap (h : Hdr) (o : AMO) : Statement (.amoswap h o) := by
  intro hw
  exact ⟨_, rfl, row_decodes rfl (accepts_of (Nat.zero_le _) (Nat.le_refl _) (nofun) (fun _ => rfl) (fun _ => rfl))
    (show _ = some (Instr.amoswap h o) by simp [AMO.back]) hw⟩

theorem Encoding.amocas (h : Hdr) (o : AMO) : Statement (.amocas h o) := by
  intro hw
  exact ⟨_, rfl, row_decodes rfl (accepts_of (Nat.zero_le _) (Nat.le_refl _) (nofun) (fun _ => rfl) (fun _ => rfl))
    (show _ = some (Instr.amocas h o) by simp [AMO.back]) hw⟩

theorem Encoding.amomax (h : Hdr) (o : AMO) : Statement (.amomax h o) := by
  intro hw
  exact ⟨_, rfl, row_decodes rfl (accepts_of (Nat.zero_le _) (Nat.le_refl _) (nofun) (fun _ => rfl) (fun _ => rfl))
    (show _ = some (Instr.amomax h o) by simp [AMO.back]) hw⟩

theorem Encoding.amoor (h : Hdr) (o : AMO) : Statement (.amoor h o) := by
  intro hw
  exact ⟨_, rfl, row_decodes rfl (accepts_of (Nat.zero_le _) (Nat.le_refl _) (nofun) (fun _ => rfl) (fun _ => rfl))
    (show _ = some (Instr.amoor h o) by simp [AMO.back]) hw⟩

theorem Encoding.amoand (h : Hdr) (o : AMO) : Statement (.amoand h o) := by
  intro hw
  exact ⟨_, rfl, row_decodes rfl (accepts_of (Nat.zero_le _) (Nat.le_refl _) (nofun) (fun _ => rfl) (fun _ => rfl))
    (show _ = some (Instr.amoand h o) by simp [AMO.back]) hw⟩

theorem Encoding.fadd (h : Hdr) (o : FRR) : Statement (.fadd h o) := by
  intro hw
  exact ⟨_, rfl, row_decodes rfl (accepts_of (Nat.zero_le _) (Nat.le_refl _) (nofun) (nofun) (fun _ => rfl))
    (show _ = some (Instr.fadd h o) by simp [FRR.back]) hw⟩

theorem Encoding.fsub (h : Hdr) (o : FRR) : Statement (.fsub h o) := by
  intro hw
  exact ⟨_, rfl, row_decodes rfl (accepts_of (Nat.zero_le _) (Nat.le_refl _) (nofun) (nofun) (fun _ => rfl))
    (show _ = some (Instr.fsub h o) by simp [FRR.back]) hw⟩

theorem Encoding.fmul (h : Hdr) (o : FRR) : Statement (.fmul h o) := by
  intro hw
  exact ⟨_, rfl, row_decodes rfl (accepts_of (Nat.zero_le _) (Nat.le_refl _) (nofun) (nofun) (fun _ => rfl))
    (show _ = some (Instr.fmul h o) by simp [FRR.back]) hw⟩

theorem Encoding.fdiv (h : Hdr) (o : FRR) : Statement (.fdiv h o) := by
  intro hw
  exact ⟨_, rfl, row_decodes rfl (accepts_of (Nat.zero_le _) (Nat.le_refl _) (nofun) (nofun) (fun _ => rfl))
    (show _ = some (Instr.fdiv h o) by simp [FRR.back]) hw⟩

theorem Encoding.fmadd (h : Hdr) (o : FRR) : Statement (.fmadd h o) := by
  intro hw
  exact ⟨_, rfl, row_decodes rfl (accepts_of (Nat.zero_le _) (Nat.le_refl _) (nofun) (nofun) (fun _ => rfl))
    (show _ = some (Instr.fmadd h o) by simp [FRR.back]) hw⟩

theorem Encoding.fcmp (h : Hdr) (o : FRR) : Statement (.fcmp h o) := by
  intro hw
  exact ⟨_, rfl, row_decodes rfl (accepts_of (Nat.zero_le _) (Nat.le_refl _) (nofun) (nofun) (fun _ => rfl))
    (show _ = some (Instr.fcmp h o) by simp [FRR.back]) hw⟩

theorem Encoding.fcvt (h : Hdr) (o : CVT) : Statement (.fcvt h o) := by
  intro hw
  have w : (lenOk 1 (1 + present o.mask) h && noMask o.mask && fcvtPair o.src o.dst) = true := hw
  simp only [Bool.and_eq_true] at w
  exact ⟨_, rfl, row_decodes rfl (accepts_of (Nat.zero_le _) (Nat.le_refl _) (nofun) (fun _ => rfl) (fun _ => by simp [CVT.chain, chainOf, Option.isNone_iff_eq_none.mp w.1.2]))
    (show _ = some (Instr.fcvt h o) by simp [CVT.back]) hw⟩

theorem Encoding.fsqrt (h : Hdr) (o : FRU) : Statement (.fsqrt h o) := by
  intro hw
  exact ⟨_, rfl, row_decodes rfl (accepts_of (Nat.zero_le _) (Nat.le_refl _) (nofun) (nofun) (fun _ => rfl))
    (show _ = some (Instr.fsqrt h o) by simp [FRU.back]) hw⟩

theorem Encoding.rdtime (h : Hdr) (o : LI) : Statement (.rdtime h o) := by
  intro hw
  have w : (lenOk 1 (o.i.ws.length) h && decide (o.i.ws.length ≤ 4) && (o.i.int == 0 || o.i.int == 1)) = true := hw
  simp only [Bool.and_eq_true] at w
  exact ⟨_, rfl, row_decodes rfl (accepts_of (Nat.zero_le _) (of_decide_eq_true w.1.2) (fun _ => rfl) (nofun) (fun _ => rfl))
    (show _ = some (Instr.rdtime h o) by simp [LI.back]) hw⟩

theorem Encoding.vadd (h : Hdr) (o : VRR) : Statement (.vadd h o) := by
  intro hw
  have w : (lenOk 2 (o.t.words + present o.ext + present o.mask) h && o.t.ok 3 && widthInt (extSel o.ext) && maskOk false true o.mask) = true := hw
  simp only [Bool.and_eq_true] at w
  exact ⟨_, rfl, row_decodes rfl (accepts_of (Nat.zero_le _) (regImm_len w.1.1.2) (nofun) (nofun) (nofun))
    (show _ = some (Instr.vadd h o) by simp [VRR.back _ _ _ _ w.1.1.2]) hw⟩

theorem Encoding.vsub (h : Hdr) (o : VRR) : Statement (.vsub h o) := by
  intro hw
  have w : (lenOk 2 (o.t.words + present o.ext + present o.mask) h && o.t.ok 3 && widthInt (extSel o.ext) && maskOk false true o.mask) = true := hw
  simp only [Bool.and_eq_true] at w
  exact ⟨_, rfl, row_decodes rfl (accepts_of (Nat.zero_le _) (regImm_len w.1.1.2) (nofun) (nofun) (nofun))
    (show _ = some (Instr.vsub h o) by simp [VRR.back _ _ _ _ w.1.1.2]) hw⟩

theorem Encoding.vmul (h : Hdr) (o : VRR) : Statement (.vmul h o) := by
  intro hw
  have w : (lenOk 2 (o.t.words + present o.ext + present o.mask) h && o.t.ok 3 && widthInt (extSel o.ext) && maskOk false true o.mask) = true := hw
  simp only [Bool.and_eq_true] at w
  exact ⟨_, rfl, row_decodes rfl (accepts_of (Nat.zero_le _) (regImm_len w.1.1.2) (nofun) (nofun) (nofun))
    (show _ = some (Instr.vmul h o) by simp [VRR.back _ _ _ _ w.1.1.2]) hw⟩

theorem Encoding.vmulh (h : Hdr) (o : VRR) : Statement (.vmulh h o) := by
  intro hw
  have w : (lenOk 2 (o.t.words + present o.ext + present o.mask) h && o.t.ok 3 && widthInt (extSel o.ext) && maskOk false true o.mask) = true := hw
  simp only [Bool.and_eq_true] at w
  exact ⟨_, rfl, row_decodes rfl (accepts_of (Nat.zero_le _) (regImm_len w.1.1.2) (nofun) (nofun) (nofun))
    (show _ = some (Instr.vmulh h o) by simp [VRR.back _ _ _ _ w.1.1.2]) hw⟩

theorem Encoding.vand (h : Hdr) (o : VRR) : Statement (.vand h o) := by
  intro hw
  have w : (lenOk 2 (o.t.words + present o.ext + present o.mask) h && o.t.ok 3 && widthInt (extSel o.ext) && maskOk false true o.mask) = true := hw
  simp only [Bool.and_eq_true] at w
  exact ⟨_, rfl, row_decodes rfl (accepts_of (Nat.zero_le _) (regImm_len w.1.1.2) (nofun) (nofun) (nofun))
    (show _ = some (Instr.vand h o) by simp [VRR.back _ _ _ _ w.1.1.2]) hw⟩

theorem Encoding.vor (h : Hdr) (o : VRR) : Statement (.vor h o) := by
  intro hw
  have w : (lenOk 2 (o.t.words + present o.ext + present o.mask) h && o.t.ok 3 && widthInt (extSel o.ext) && maskOk false true o.mask) = true := hw
  simp only [Bool.and_eq_true] at w
  exact ⟨_, rfl, row_decodes rfl (accepts_of (Nat.zero_le _) (regImm_len w.1.1.2) (nofun) (nofun) (nofun))
    (show _ = some (Instr.vor h o) by simp [VRR.back _ _ _ _ w.1.1.2]) hw⟩

theorem Encoding.vxor (h : Hdr) (o : VRR) : Statement (.vxor h o) := by
  intro hw
  have w : (lenOk 2 (o.t.words + present o.ext + present o.mask) h && o.t.ok 3 && widthInt (extSel o.ext) && maskOk false true o.mask) = true := hw
  simp only [Bool.and_eq_true] at w
  exact ⟨_, rfl, row_decodes rfl (accepts_of (Nat.zero_le _) (regImm_len w.1.1.2) (nofun) (nofun) (nofun))
    (show _ = some (Instr.vxor h o) by simp [VRR.back _ _ _ _ w.1.1.2]) hw⟩

theorem Encoding.vsll (h : Hdr) (o : VRR) : Statement (.vsll h o) := by
  intro hw
  have w : (lenOk 2 (o.t.words + present o.ext + present o.mask) h && o.t.ok 3 && widthInt (extSel o.ext) && maskOk false true o.mask && o.t.within 0 (widthBits (extSel o.ext) - 1)) = true := hw
  simp only [Bool.and_eq_true] at w
  exact ⟨_, rfl, row_decodes rfl (accepts_of (Nat.zero_le _) (regImm_len w.1.1.1.2) (nofun) (nofun) (nofun))
    (show _ = some (Instr.vsll h o) by simp [VRR.back _ _ _ _ w.1.1.1.2]) hw⟩

theorem Encoding.vsrl (h : Hdr) (o : VRR) : Statement (.vsrl h o) := by
  intro hw
  have w : (lenOk 2 (o.t.words + present o.ext + present o.mask) h && o.t.ok 3 && widthInt (extSel o.ext) && maskOk false true o.mask && o.t.within 0 (widthBits (extSel o.ext) - 1)) = true := hw
  simp only [Bool.and_eq_true] at w
  exact ⟨_, rfl, row_decodes rfl (accepts_of (Nat.zero_le _) (regImm_len w.1.1.1.2) (nofun) (nofun) (nofun))
    (show _ = some (Instr.vsrl h o) by simp [VRR.back _ _ _ _ w.1.1.1.2]) hw⟩

theorem Encoding.vsra (h : Hdr) (o : VRR) : Statement (.vsra h o) := by
  intro hw
  have w : (lenOk 2 (o.t.words + present o.ext + present o.mask) h && o.t.ok 3 && widthInt (extSel o.ext) && maskOk false true o.mask && o.t.within 0 (widthBits (extSel o.ext) - 1)) = true := hw
  simp only [Bool.and_eq_true] at w
  exact ⟨_, rfl, row_decodes rfl (accepts_of (Nat.zero_le _) (regImm_len w.1.1.1.2) (nofun) (nofun) (nofun))
    (show _ = some (Instr.vsra h o) by simp [VRR.back _ _ _ _ w.1.1.1.2]) hw⟩

theorem Encoding.vmin (h : Hdr) (o : VRR) : Statement (.vmin h o) := by
  intro hw
  have w : (lenOk 2 (o.t.words + present o.ext + present o.mask) h && o.t.ok 3 && widthInt (extSel o.ext) && maskOk false true o.mask) = true := hw
  simp only [Bool.and_eq_true] at w
  exact ⟨_, rfl, row_decodes rfl (accepts_of (Nat.zero_le _) (regImm_len w.1.1.2) (nofun) (nofun) (nofun))
    (show _ = some (Instr.vmin h o) by simp [VRR.back _ _ _ _ w.1.1.2]) hw⟩

theorem Encoding.vmax (h : Hdr) (o : VRR) : Statement (.vmax h o) := by
  intro hw
  have w : (lenOk 2 (o.t.words + present o.ext + present o.mask) h && o.t.ok 3 && widthInt (extSel o.ext) && maskOk false true o.mask) = true := hw
  simp only [Bool.and_eq_true] at w
  exact ⟨_, rfl, row_decodes rfl (accepts_of (Nat.zero_le _) (regImm_len w.1.1.2) (nofun) (nofun) (nofun))
    (show _ = some (Instr.vmax h o) by simp [VRR.back _ _ _ _ w.1.1.2]) hw⟩

theorem Encoding.vminu (h : Hdr) (o : VRR) : Statement (.vminu h o) := by
  intro hw
  have w : (lenOk 2 (o.t.words + present o.ext + present o.mask) h && o.t.ok 3 && widthInt (extSel o.ext) && maskOk false true o.mask) = true := hw
  simp only [Bool.and_eq_true] at w
  exact ⟨_, rfl, row_decodes rfl (accepts_of (Nat.zero_le _) (regImm_len w.1.1.2) (nofun) (nofun) (nofun))
    (show _ = some (Instr.vminu h o) by simp [VRR.back _ _ _ _ w.1.1.2]) hw⟩

theorem Encoding.vmaxu (h : Hdr) (o : VRR) : Statement (.vmaxu h o) := by
  intro hw
  have w : (lenOk 2 (o.t.words + present o.ext + present o.mask) h && o.t.ok 3 && widthInt (extSel o.ext) && maskOk false true o.mask) = true := hw
  simp only [Bool.and_eq_true] at w
  exact ⟨_, rfl, row_decodes rfl (accepts_of (Nat.zero_le _) (regImm_len w.1.1.2) (nofun) (nofun) (nofun))
    (show _ = some (Instr.vmaxu h o) by simp [VRR.back _ _ _ _ w.1.1.2]) hw⟩

theorem Encoding.vaddsat (h : Hdr) (o : VRR) : Statement (.vaddsat h o) := by
  intro hw
  have w : (lenOk 2 (o.t.words + present o.ext + present o.mask) h && o.t.ok 3 && widthInt (extSel o.ext) && maskOk false true o.mask) = true := hw
  simp only [Bool.and_eq_true] at w
  exact ⟨_, rfl, row_decodes rfl (accepts_of (Nat.zero_le _) (regImm_len w.1.1.2) (nofun) (nofun) (nofun))
    (show _ = some (Instr.vaddsat h o) by simp [VRR.back _ _ _ _ w.1.1.2]) hw⟩

theorem Encoding.vfadd (h : Hdr) (o : VRR) : Statement (.vfadd h o) := by
  intro hw
  have w : (lenOk 2 (o.t.words + present o.ext + present o.mask) h && o.t.ok 3 && o.t.words == 0 && widthFp (extSel o.ext) && maskOk true true o.mask) = true := hw
  simp only [Bool.and_eq_true] at w
  exact ⟨_, rfl, row_decodes rfl (accepts_of (Nat.zero_le _) (regImm_words w.1.1.2) (nofun) (nofun) (nofun))
    (show _ = some (Instr.vfadd h o) by simp [VRR.back _ _ _ _ w.1.1.1.2]) hw⟩

theorem Encoding.vfsub (h : Hdr) (o : VRR) : Statement (.vfsub h o) := by
  intro hw
  have w : (lenOk 2 (o.t.words + present o.ext + present o.mask) h && o.t.ok 3 && o.t.words == 0 && widthFp (extSel o.ext) && maskOk true true o.mask) = true := hw
  simp only [Bool.and_eq_true] at w
  exact ⟨_, rfl, row_decodes rfl (accepts_of (Nat.zero_le _) (regImm_words w.1.1.2) (nofun) (nofun) (nofun))
    (show _ = some (Instr.vfsub h o) by simp [VRR.back _ _ _ _ w.1.1.1.2]) hw⟩

theorem Encoding.vfmul (h : Hdr) (o : VRR) : Statement (.vfmul h o) := by
  intro hw
  have w : (lenOk 2 (o.t.words + present o.ext + present o.mask) h && o.t.ok 3 && o.t.words == 0 && widthFp (extSel o.ext) && maskOk true true o.mask) = true := hw
  simp only [Bool.and_eq_true] at w
  exact ⟨_, rfl, row_decodes rfl (accepts_of (Nat.zero_le _) (regImm_words w.1.1.2) (nofun) (nofun) (nofun))
    (show _ = some (Instr.vfmul h o) by simp [VRR.back _ _ _ _ w.1.1.1.2]) hw⟩

theorem Encoding.vfdiv (h : Hdr) (o : VRR) : Statement (.vfdiv h o) := by
  intro hw
  have w : (lenOk 2 (o.t.words + present o.ext + present o.mask) h && o.t.ok 3 && o.t.words == 0 && widthFp (extSel o.ext) && maskOk true true o.mask) = true := hw
  simp only [Bool.and_eq_true] at w
  exact ⟨_, rfl, row_decodes rfl (accepts_of (Nat.zero_le _) (regImm_words w.1.1.2) (nofun) (nofun) (nofun))
    (show _ = some (Instr.vfdiv h o) by simp [VRR.back _ _ _ _ w.1.1.1.2]) hw⟩

theorem Encoding.vfma (h : Hdr) (o : VRR) : Statement (.vfma h o) := by
  intro hw
  have w : (lenOk 2 (o.t.words + present o.ext + present o.mask) h && o.t.ok 3 && o.t.words == 0 && widthFp (extSel o.ext) && maskOk true true o.mask && o.ext.isSome) = true := hw
  simp only [Bool.and_eq_true] at w
  exact ⟨_, rfl, row_decodes rfl (accepts_of (Nat.zero_le _) (regImm_words w.1.1.1.2) (nofun) (nofun) (nofun))
    (show _ = some (Instr.vfma h o) by simp [VRR.back _ _ _ _ w.1.1.1.1.2]) hw⟩

theorem Encoding.vfmin (h : Hdr) (o : VRR) : Statement (.vfmin h o) := by
  intro hw
  have w : (lenOk 2 (o.t.words + present o.ext + present o.mask) h && o.t.ok 3 && o.t.words == 0 && widthFp (extSel o.ext) && maskOk true true o.mask) = true := hw
  simp only [Bool.and_eq_true] at w
  exact ⟨_, rfl, row_decodes rfl (accepts_of (Nat.zero_le _) (regImm_words w.1.1.2) (nofun) (nofun) (nofun))
    (show _ = some (Instr.vfmin h o) by simp [VRR.back _ _ _ _ w.1.1.1.2]) hw⟩

theorem Encoding.vfmax (h : Hdr) (o : VRR) : Statement (.vfmax h o) := by
  intro hw
  have w : (lenOk 2 (o.t.words + present o.ext + present o.mask) h && o.t.ok 3 && o.t.words == 0 && widthFp (extSel o.ext) && maskOk true true o.mask) = true := hw
  simp only [Bool.and_eq_true] at w
  exact ⟨_, rfl, row_decodes rfl (accepts_of (Nat.zero_le _) (regImm_words w.1.1.2) (nofun) (nofun) (nofun))
    (show _ = some (Instr.vfmax h o) by simp [VRR.back _ _ _ _ w.1.1.1.2]) hw⟩

theorem Encoding.vfsqrt (h : Hdr) (o : VU) : Statement (.vfsqrt h o) := by
  intro hw
  exact ⟨_, rfl, row_decodes rfl (accepts_of (Nat.zero_le _) (Nat.le_refl _) (nofun) (nofun) (nofun))
    (show _ = some (Instr.vfsqrt h o) by simp [VU.back]) hw⟩

theorem Encoding.vfexp2 (h : Hdr) (o : VU) : Statement (.vfexp2 h o) := by
  intro hw
  exact ⟨_, rfl, row_decodes rfl (accepts_of (Nat.zero_le _) (Nat.le_refl _) (nofun) (nofun) (nofun))
    (show _ = some (Instr.vfexp2 h o) by simp [VU.back]) hw⟩

theorem Encoding.vcmp (h : Hdr) (o : VCM) : Statement (.vcmp h o) := by
  intro hw
  have w : (lenOk 2 (o.i.ws.length + 1 + present o.mask) h && decide (o.i.ws.length ≤ 1) && predOk o.p && o.i.field 9 4 == 0 && widthInt o.ext.sel && maskOk false true o.mask && decide (o.i.field 5 4 ≤ 5)) = true := hw
  simp only [Bool.and_eq_true] at w
  exact ⟨_, rfl, row_decodes rfl (accepts_of (Nat.zero_le _) (of_decide_eq_true w.1.1.1.1.1.2) (nofun) (fun _ => rfl) (nofun))
    (show _ = some (Instr.vcmp h o) by simp [VCM.back]) hw⟩

theorem Encoding.vfcmp (h : Hdr) (o : VCM) : Statement (.vfcmp h o) := by
  intro hw
  have w : (lenOk 2 (o.i.ws.length + 1 + present o.mask) h && decide (o.i.ws.length ≤ 1) && predOk o.p && o.i.field 9 4 == 0 && widthFp o.ext.sel && maskOk false true o.mask && decide (o.i.field 5 4 ≤ 7)) = true := hw
  simp only [Bool.and_eq_true] at w
  exact ⟨_, rfl, row_decodes rfl (accepts_of (Nat.zero_le _) (of_decide_eq_true w.1.1.1.1.1.2) (nofun) (fun _ => rfl) (nofun))
    (show _ = some (Instr.vfcmp h o) by simp [VCM.back]) hw⟩

theorem Encoding.vsel (h : Hdr) (o : VRR) : Statement (.vsel h o) := by
  intro hw
  have w : (lenOk 2 (o.t.words + present o.ext + present o.mask) h && o.t.ok 3 && widthAny (extSel o.ext) && maskOk false false o.mask) = true := hw
  simp only [Bool.and_eq_true] at w
  exact ⟨_, rfl, row_decodes rfl (accepts_of (Nat.zero_le _) (regImm_len w.1.1.2) (nofun) (nofun) (nofun))
    (show _ = some (Instr.vsel h o) by simp [VRR.back _ _ _ _ w.1.1.2]) hw⟩

theorem Encoding.vbcast (h : Hdr) (o : VBC) : Statement (.vbcast h o) := by
  intro hw
  have w : (lenOk 2 (o.t.words + present o.ext + present o.mask) h && o.t.ok 3 && extNoC o.ext && widthAny (extSel o.ext) && maskOk false true o.mask) = true := hw
  simp only [Bool.and_eq_true] at w
  exact ⟨_, rfl, row_decodes rfl (accepts_of (Nat.zero_le _) (regImm_len w.1.1.1.2) (nofun) (nofun) (nofun))
    (show _ = some (Instr.vbcast h o) by simp [VBC.back _ _ _ _ w.1.1.1.2]) hw⟩

theorem Encoding.vid (h : Hdr) (o : VBC) : Statement (.vid h o) := by
  intro hw
  have w : (lenOk 2 (o.t.words + present o.ext + present o.mask) h && o.t.ok 3 && extNoC o.ext && o.t == .reg 0 && widthInt (extSel o.ext) && maskOk false true o.mask) = true := hw
  simp only [Bool.and_eq_true] at w
  exact ⟨_, rfl, row_decodes rfl (accepts_of (Nat.zero_le _) (show (RegImm.ws o.t).length ≤ 0 from eq_of_beq w.1.1.2 ▸ Nat.le_refl 0) (nofun) (nofun) (nofun))
    (show _ = some (Instr.vid h o) by simp [VBC.back _ _ _ _ w.1.1.1.1.2]) hw⟩

theorem Encoding.vmerge (h : Hdr) (o : VU) : Statement (.vmerge h o) := by
  intro hw
  exact ⟨_, rfl, row_decodes rfl (accepts_of (Nat.zero_le _) (Nat.le_refl _) (nofun) (nofun) (nofun))
    (show _ = some (Instr.vmerge h o) by simp [VU.back]) hw⟩

theorem Encoding.vclass (h : Hdr) (o : VU) : Statement (.vclass h o) := by
  intro hw
  exact ⟨_, rfl, row_decodes rfl (accepts_of (Nat.zero_le _) (Nat.le_refl _) (nofun) (nofun) (nofun))
    (show _ = some (Instr.vclass h o) by simp [VU.back]) hw⟩

theorem Encoding.vld (h : Hdr) (o : ADR) : Statement (.vld h o) := by
  intro hw
  have w : (lenOk 3 (o.t.words + present o.ext + present o.mask) h && o.t.ok 3 && widthAny (extSel o.ext) && maskOk true true o.mask) = true := hw
  simp only [Bool.and_eq_true] at w
  exact ⟨_, rfl, row_decodes rfl (accepts_of (Nat.zero_le _) (regImm_len w.1.1.2) (nofun) (nofun) (nofun))
    (show _ = some (Instr.vld h o) by simp [ADR.back _ _ _ _ w.1.1.2]) hw⟩

theorem Encoding.vlds (h : Hdr) (o : VST) : Statement (.vlds h o) := by
  intro hw
  exact ⟨_, rfl, row_decodes rfl (accepts_of (Nat.zero_le _) (Nat.le_refl _) (nofun) (fun _ => rfl) (nofun))
    (show _ = some (Instr.vlds h o) by simp [VST.back]) hw⟩

theorem Encoding.vldx (h : Hdr) (o : VST) : Statement (.vldx h o) := by
  intro hw
  exact ⟨_, rfl, row_decodes rfl (accepts_of (Nat.zero_le _) (Nat.le_refl _) (nofun) (fun _ => rfl) (nofun))
    (show _ = some (Instr.vldx h o) by simp [VST.back]) hw⟩

theorem Encoding.vst (h : Hdr) (o : ADR) : Statement (.vst h o) := by
  intro hw
  have w : (lenOk 3 (o.t.words + present o.ext + present o.mask) h && o.t.ok 3 && widthAny (extSel o.ext) && maskOk false true o.mask) = true := hw
  simp only [Bool.and_eq_true] at w
  exact ⟨_, rfl, row_decodes rfl (accepts_of (Nat.zero_le _) (regImm_len w.1.1.2) (nofun) (nofun) (nofun))
    (show _ = some (Instr.vst h o) by simp [ADR.back _ _ _ _ w.1.1.2]) hw⟩

theorem Encoding.vsts (h : Hdr) (o : VST) : Statement (.vsts h o) := by
  intro hw
  exact ⟨_, rfl, row_decodes rfl (accepts_of (Nat.zero_le _) (Nat.le_refl _) (nofun) (fun _ => rfl) (nofun))
    (show _ = some (Instr.vsts h o) by simp [VST.back]) hw⟩

theorem Encoding.vstx (h : Hdr) (o : VST) : Statement (.vstx h o) := by
  intro hw
  exact ⟨_, rfl, row_decodes rfl (accepts_of (Nat.zero_le _) (Nat.le_refl _) (nofun) (fun _ => rfl) (nofun))
    (show _ = some (Instr.vstx h o) by simp [VST.back]) hw⟩

theorem Encoding.vlsp (h : Hdr) (o : ADR) : Statement (.vlsp h o) := by
  intro hw
  have w : (lenOk 3 (o.t.words + present o.ext + present o.mask) h && o.t.ok 3 && widthAny (extSel o.ext) && maskOk true true o.mask) = true := hw
  simp only [Bool.and_eq_true] at w
  exact ⟨_, rfl, row_decodes rfl (accepts_of (Nat.zero_le _) (regImm_len w.1.1.2) (nofun) (nofun) (nofun))
    (show _ = some (Instr.vlsp h o) by simp [ADR.back _ _ _ _ w.1.1.2]) hw⟩

theorem Encoding.vlspx (h : Hdr) (o : VST) : Statement (.vlspx h o) := by
  intro hw
  exact ⟨_, rfl, row_decodes rfl (accepts_of (Nat.zero_le _) (Nat.le_refl _) (nofun) (fun _ => rfl) (nofun))
    (show _ = some (Instr.vlspx h o) by simp [VST.back]) hw⟩

theorem Encoding.vssp (h : Hdr) (o : ADR) : Statement (.vssp h o) := by
  intro hw
  have w : (lenOk 3 (o.t.words + present o.ext + present o.mask) h && o.t.ok 3 && widthAny (extSel o.ext) && maskOk false true o.mask) = true := hw
  simp only [Bool.and_eq_true] at w
  exact ⟨_, rfl, row_decodes rfl (accepts_of (Nat.zero_le _) (regImm_len w.1.1.2) (nofun) (nofun) (nofun))
    (show _ = some (Instr.vssp h o) by simp [ADR.back _ _ _ _ w.1.1.2]) hw⟩

theorem Encoding.vsspx (h : Hdr) (o : VST) : Statement (.vsspx h o) := by
  intro hw
  exact ⟨_, rfl, row_decodes rfl (accepts_of (Nat.zero_le _) (Nat.le_refl _) (nofun) (fun _ => rfl) (nofun))
    (show _ = some (Instr.vsspx h o) by simp [VST.back]) hw⟩

theorem Encoding.vlspc (h : Hdr) (o : ADR) : Statement (.vlspc h o) := by
  intro hw
  have w : (lenOk 3 (o.t.words + present o.ext + present o.mask) h && o.t.ok 3 && widthAny (extSel o.ext) && maskOk false true o.mask) = true := hw
  simp only [Bool.and_eq_true] at w
  exact ⟨_, rfl, row_decodes rfl (accepts_of (Nat.zero_le _) (regImm_len w.1.1.2) (nofun) (nofun) (nofun))
    (show _ = some (Instr.vlspc h o) by simp [ADR.back _ _ _ _ w.1.1.2]) hw⟩

theorem Encoding.vldc (h : Hdr) (o : ADR) : Statement (.vldc h o) := by
  intro hw
  have w : (lenOk 3 (o.t.words + present o.ext + present o.mask) h && o.t.ok 3 && widthAny (extSel o.ext) && maskOk false true o.mask) = true := hw
  simp only [Bool.and_eq_true] at w
  exact ⟨_, rfl, row_decodes rfl (accepts_of (Nat.zero_le _) (regImm_len w.1.1.2) (nofun) (nofun) (nofun))
    (show _ = some (Instr.vldc h o) by simp [ADR.back _ _ _ _ w.1.1.2]) hw⟩

theorem Encoding.vstc (h : Hdr) (o : VST) : Statement (.vstc h o) := by
  intro hw
  exact ⟨_, rfl, row_decodes rfl (accepts_of (Nat.zero_le _) (Nat.le_refl _) (nofun) (fun _ => rfl) (nofun))
    (show _ = some (Instr.vstc h o) by simp [VST.back]) hw⟩

theorem Encoding.vperm (h : Hdr) (o : VRR) : Statement (.vperm h o) := by
  intro hw
  have w : (lenOk 3 (o.t.words + present o.ext + present o.mask) h && o.t.ok 3 && o.t.words == 0 && widthAny (extSel o.ext) && maskOk false true o.mask) = true := hw
  simp only [Bool.and_eq_true] at w
  exact ⟨_, rfl, row_decodes rfl (accepts_of (Nat.zero_le _) (regImm_words w.1.1.2) (nofun) (nofun) (nofun))
    (show _ = some (Instr.vperm h o) by simp [VRR.back _ _ _ _ w.1.1.1.2]) hw⟩

theorem Encoding.vslide (h : Hdr) (o : VXS) : Statement (.vslide h o) := by
  intro hw
  have w : (lenOk 3 (o.t.words + 1 + present o.mask) h && o.t.ok 3 && widthAny o.ext.sel && maskOk false true o.mask) = true := hw
  simp only [Bool.and_eq_true] at w
  exact ⟨_, rfl, row_decodes rfl (accepts_of (Nat.zero_le _) (regImm_len w.1.1.2) (nofun) (fun _ => rfl) (nofun))
    (show _ = some (Instr.vslide h o) by simp [VXS.back _ _ _ _ w.1.1.2]) hw⟩

theorem Encoding.vredsum (h : Hdr) (o : VU) : Statement (.vredsum h o) := by
  intro hw
  exact ⟨_, rfl, row_decodes rfl (accepts_of (Nat.zero_le _) (Nat.le_refl _) (nofun) (nofun) (nofun))
    (show _ = some (Instr.vredsum h o) by simp [VU.back]) hw⟩

theorem Encoding.vredmax (h : Hdr) (o : VU) : Statement (.vredmax h o) := by
  intro hw
  exact ⟨_, rfl, row_decodes rfl (accepts_of (Nat.zero_le _) (Nat.le_refl _) (nofun) (nofun) (nofun))
    (show _ = some (Instr.vredmax h o) by simp [VU.back]) hw⟩

theorem Encoding.vredmin (h : Hdr) (o : VU) : Statement (.vredmin h o) := by
  intro hw
  exact ⟨_, rfl, row_decodes rfl (accepts_of (Nat.zero_le _) (Nat.le_refl _) (nofun) (nofun) (nofun))
    (show _ = some (Instr.vredmin h o) by simp [VU.back]) hw⟩

theorem Encoding.vfredsum (h : Hdr) (o : VU) : Statement (.vfredsum h o) := by
  intro hw
  exact ⟨_, rfl, row_decodes rfl (accepts_of (Nat.zero_le _) (Nat.le_refl _) (nofun) (nofun) (nofun))
    (show _ = some (Instr.vfredsum h o) by simp [VU.back]) hw⟩

theorem Encoding.vscan (h : Hdr) (o : VU) : Statement (.vscan h o) := by
  intro hw
  exact ⟨_, rfl, row_decodes rfl (accepts_of (Nat.zero_le _) (Nat.le_refl _) (nofun) (nofun) (nofun))
    (show _ = some (Instr.vscan h o) by simp [VU.back]) hw⟩

theorem Encoding.vcompress (h : Hdr) (o : VU) : Statement (.vcompress h o) := by
  intro hw
  exact ⟨_, rfl, row_decodes rfl (accepts_of (Nat.zero_le _) (Nat.le_refl _) (nofun) (nofun) (nofun))
    (show _ = some (Instr.vcompress h o) by simp [VU.back]) hw⟩

theorem Encoding.vappend (h : Hdr) (o : VU) : Statement (.vappend h o) := by
  intro hw
  exact ⟨_, rfl, row_decodes rfl (accepts_of (Nat.zero_le _) (Nat.le_refl _) (nofun) (nofun) (nofun))
    (show _ = some (Instr.vappend h o) by simp [VU.back]) hw⟩

theorem Encoding.vcvt (h : Hdr) (o : CVT) : Statement (.vcvt h o) := by
  intro hw
  exact ⟨_, rfl, row_decodes rfl (accepts_of (Nat.zero_le _) (Nat.le_refl _) (nofun) (fun _ => rfl) (nofun))
    (show _ = some (Instr.vcvt h o) by simp [CVT.back]) hw⟩

theorem Encoding.vcvtef (h : Hdr) (o : CVT) : Statement (.vcvtef h o) := by
  intro hw
  exact ⟨_, rfl, row_decodes rfl (accepts_of (Nat.zero_le _) (Nat.le_refl _) (nofun) (fun _ => rfl) (nofun))
    (show _ = some (Instr.vcvtef h o) by simp [CVT.back]) hw⟩

theorem Encoding.plog (h : Hdr) (o : PLG) : Statement (.plog h o) := by
  intro hw
  exact ⟨_, rfl, row_decodes rfl (accepts_of (Nat.zero_le _) (Nat.le_refl _) (nofun) (fun _ => rfl) (fun _ => rfl))
    (show _ = some (Instr.plog h o) by simp [PLG.back]) hw⟩

theorem Encoding.pcnt (h : Hdr) (o : PCT) : Statement (.pcnt h o) := by
  intro hw
  exact ⟨_, rfl, row_decodes rfl (accepts_of (Nat.zero_le _) (Nat.le_refl _) (fun _ => rfl) (nofun) (nofun))
    (show _ = some (Instr.pcnt h o) by simp [PCT.back]) hw⟩

theorem Encoding.pfirst (h : Hdr) (o : PCT) : Statement (.pfirst h o) := by
  intro hw
  exact ⟨_, rfl, row_decodes rfl (accepts_of (Nat.zero_le _) (Nat.le_refl _) (fun _ => rfl) (nofun) (nofun))
    (show _ = some (Instr.pfirst h o) by simp [PCT.back]) hw⟩

theorem Encoding.setvl (h : Hdr) (o : SVL) : Statement (.setvl h o) := by
  intro hw
  have w : (lenOk 3 (o.t.words + present o.ext) h && o.t.ok 3 && extNoC o.ext && widthAny (extSel o.ext)) = true := hw
  simp only [Bool.and_eq_true] at w
  exact ⟨_, rfl, row_decodes rfl (accepts_of (Nat.zero_le _) (regImm_len w.1.1.2) (nofun) (nofun) (fun _ => rfl))
    (show _ = some (Instr.setvl h o) by simp [SVL.back _ _ _ _ w.1.1.2]) hw⟩

theorem Encoding.vmvx (h : Hdr) (o : VXS) : Statement (.vmvx h o) := by
  intro hw
  have w : (lenOk 3 (o.t.words + 1 + present o.mask) h && o.t.ok 3 && widthAny o.ext.sel && noMask o.mask) = true := hw
  simp only [Bool.and_eq_true] at w
  exact ⟨_, rfl, row_decodes rfl (accepts_of (Nat.zero_le _) (regImm_len w.1.1.2) (nofun) (fun _ => rfl) (fun _ => by simp [VXS.chain, chainOf, Option.isNone_iff_eq_none.mp w.2]))
    (show _ = some (Instr.vmvx h o) by simp [VXS.back _ _ _ _ w.1.1.2]) hw⟩

theorem Encoding.vmvv (h : Hdr) (o : VU) : Statement (.vmvv h o) := by
  intro hw
  exact ⟨_, rfl, row_decodes rfl (accepts_of (Nat.zero_le _) (Nat.le_refl _) (nofun) (nofun) (nofun))
    (show _ = some (Instr.vmvv h o) by simp [VU.back]) hw⟩

theorem Encoding.vfault (h : Hdr) (o : VFL) : Statement (.vfault h o) := by
  intro hw
  exact ⟨_, rfl, row_decodes rfl (accepts_of (Nat.zero_le _) (Nat.le_refl _) (fun _ => rfl) (nofun) (fun _ => rfl))
    (show _ = some (Instr.vfault h o) by simp [VFL.back]) hw⟩

theorem Encoding.vectorAddressStage (n : Nat) : Statement (.vectorAddressStage n) := fun h => nomatch h

theorem Encoding.clusterExecuteEntry (n g b stall ns : Nat) : Statement (.clusterExecuteEntry n g b stall ns) := fun h => nomatch h

theorem Encoding.mcfg (h : Hdr) (o : XB) : Statement (.mcfg h o) := by
  intro hw
  exact ⟨_, rfl, row_decodes rfl (accepts_of (Nat.zero_le _) (Nat.le_refl _) (fun _ => rfl) (nofun) (fun _ => rfl))
    (show _ = some (Instr.mcfg h o) by simp [XB.back]) hw⟩

theorem Encoding.mscl (h : Hdr) (o : XB) : Statement (.mscl h o) := by
  intro hw
  exact ⟨_, rfl, row_decodes rfl (accepts_of (Nat.zero_le _) (Nat.le_refl _) (fun _ => rfl) (nofun) (fun _ => rfl))
    (show _ = some (Instr.mscl h o) by simp [XB.back]) hw⟩

theorem Encoding.mgrp (h : Hdr) (o : XB) : Statement (.mgrp h o) := by
  intro hw
  exact ⟨_, rfl, row_decodes rfl (accepts_of (Nat.zero_le _) (Nat.le_refl _) (fun _ => rfl) (nofun) (fun _ => rfl))
    (show _ = some (Instr.mgrp h o) by simp [XB.back]) hw⟩

theorem Encoding.mclr (h : Hdr) (o : MIM) : Statement (.mclr h o) := by
  intro hw
  have w : (lenOk 4 (o.i.ws.length) h && decide (o.i.ws.length ≤ 1) && o.i.field 1 12 == 0) = true := hw
  simp only [Bool.and_eq_true] at w
  exact ⟨_, rfl, row_decodes rfl (accepts_of (Nat.zero_le _) (of_decide_eq_true w.1.2) (fun _ => rfl) (nofun) (fun _ => rfl))
    (show _ = some (Instr.mclr h o) by simp [MIM.back]) hw⟩

theorem Encoding.mma (h : Hdr) (o : MTL) : Statement (.mma h o) := by
  intro hw
  have w : (lenOk 4 (o.i.ws.length + 1) h && decide (o.i.ws.length ≤ 1) && o.ext.sel == 0 && o.i.field 9 4 == 0 && o.ext.c != 31) = true := hw
  simp only [Bool.and_eq_true] at w
  exact ⟨_, rfl, row_decodes rfl (accepts_of (Nat.zero_le _) (of_decide_eq_true w.1.1.1.2) (nofun) (fun _ => rfl) (fun _ => rfl))
    (show _ = some (Instr.mma h o) by simp [MTL.back]) hw⟩

theorem Encoding.gangStall (n : Nat) : Statement (.gangStall n) := fun h => nomatch h

theorem Encoding.mmaGroupStep (n : Nat) : Statement (.mmaGroupStep n) := fun h => nomatch h

theorem Encoding.mldacc (h : Hdr) (o : MTL) : Statement (.mldacc h o) := by
  intro hw
  have w : (lenOk 4 (o.i.ws.length + 1) h && decide (o.i.ws.length ≤ 1) && o.ext.sel == 0 && o.i.field 2 11 == 0 && o.ext.c != 31) = true := hw
  simp only [Bool.and_eq_true] at w
  exact ⟨_, rfl, row_decodes rfl (accepts_of (Nat.zero_le _) (of_decide_eq_true w.1.1.1.2) (nofun) (fun _ => rfl) (fun _ => rfl))
    (show _ = some (Instr.mldacc h o) by simp [MTL.back]) hw⟩

theorem Encoding.mdrn (h : Hdr) (o : MTL) : Statement (.mdrn h o) := by
  intro hw
  have w : (lenOk 4 (o.i.ws.length + 1) h && decide (o.i.ws.length ≤ 1) && o.ext.sel == 0 && o.i.field 6 7 == 0 && predOrAll (o.i.field 2 4) && (o.i.field 1 1 == 0 || o.i.field 2 4 == 15) && o.ext.c != 31) = true := hw
  simp only [Bool.and_eq_true] at w
  exact ⟨_, rfl, row_decodes rfl (accepts_of (Nat.zero_le _) (of_decide_eq_true w.1.1.1.1.1.2) (nofun) (fun _ => rfl) (fun _ => rfl))
    (show _ = some (Instr.mdrn h o) by simp [MTL.back]) hw⟩

theorem Encoding.mdrnx (h : Hdr) (o : MTL) : Statement (.mdrnx h o) := by
  intro hw
  have w : (lenOk 4 (o.i.ws.length + 1) h && decide (o.i.ws.length ≤ 1) && o.ext.sel == 0 && o.i.field 10 3 == 0 && predOrAll (o.i.field 6 4)) = true := hw
  simp only [Bool.and_eq_true] at w
  exact ⟨_, rfl, row_decodes rfl (accepts_of (Nat.zero_le _) (of_decide_eq_true w.1.1.1.2) (nofun) (fun _ => rfl) (fun _ => rfl))
    (show _ = some (Instr.mdrnx h o) by simp [MTL.back]) hw⟩

theorem Encoding.drainLine (n : Nat) : Statement (.drainLine n) := fun h => nomatch h

theorem Encoding.mstat (h : Hdr) (o : MIM) : Statement (.mstat h o) := by
  intro hw
  have w : (lenOk 4 (o.i.ws.length) h && decide (o.i.ws.length ≤ 1) && o.i.field 1 12 == 0) = true := hw
  simp only [Bool.and_eq_true] at w
  exact ⟨_, rfl, row_decodes rfl (accepts_of (Nat.zero_le _) (of_decide_eq_true w.1.2) (fun _ => rfl) (nofun) (fun _ => rfl))
    (show _ = some (Instr.mstat h o) by simp [MIM.back]) hw⟩

theorem Encoding.mstclr (h : Hdr) (o : MIM) : Statement (.mstclr h o) := by
  intro hw
  have w : (lenOk 4 (o.i.ws.length) h && decide (o.i.ws.length ≤ 1) && o.i.field 1 12 == 0 && o.a == 0) = true := hw
  simp only [Bool.and_eq_true] at w
  exact ⟨_, rfl, row_decodes rfl (accepts_of (Nat.zero_le _) (of_decide_eq_true w.1.1.2) (fun _ => rfl) (nofun) (fun _ => rfl))
    (show _ = some (Instr.mstclr h o) by simp [MIM.back]) hw⟩

theorem Encoding.cpy (h : Hdr) (o : SCP) : Statement (.cpy h o) := by
  intro hw
  have w : (lenOk 5 (o.t.words + 1) h && o.t.ok 2 && o.t.within 0 (2 ^ 40) && o.ext.c != 31 && o.ext.sel == 0) = true := hw
  simp only [Bool.and_eq_true] at w
  exact ⟨_, rfl, row_decodes rfl (accepts_of (Nat.zero_le _) (regImm_len w.1.1.1.2) (nofun) (fun _ => rfl) (fun _ => rfl))
    (show _ = some (Instr.cpy h o) by simp [SCP.back _ _ _ _ w.1.1.1.2]) hw⟩

theorem Encoding.cpy2 (h : Hdr) (o : SCP) : Statement (.cpy2 h o) := by
  intro hw
  have w : (lenOk 5 (o.t.words + 1) h && o.t.ok 2 && o.t.within 0 (2 ^ 40) && o.ext.c != 31 && o.ext.sel == 0) = true := hw
  simp only [Bool.and_eq_true] at w
  exact ⟨_, rfl, row_decodes rfl (accepts_of (Nat.zero_le _) (regImm_len w.1.1.1.2) (nofun) (fun _ => rfl) (fun _ => rfl))
    (show _ = some (Instr.cpy2 h o) by simp [SCP.back _ _ _ _ w.1.1.1.2]) hw⟩

theorem Encoding.cpypToScratch (h : Hdr) (o : SCP) : Statement (.cpypToScratch h o) := by
  intro hw
  have w : (lenOk 5 (o.t.words + 1) h && o.t.ok 2 && o.t.within 0 (2 ^ 40) && o.ext.c != 31 && o.ext.sel == 0) = true := hw
  simp only [Bool.and_eq_true] at w
  exact ⟨_, rfl, row_decodes rfl (accepts_of (Nat.zero_le _) (regImm_len w.1.1.1.2) (nofun) (fun _ => rfl) (fun _ => rfl))
    (show _ = some (Instr.cpypToScratch h o) by simp [SCP.back _ _ _ _ w.1.1.1.2, cpypRow, eq_of_beq w.2]) hw⟩

theorem Encoding.cpypFromScratch (h : Hdr) (o : SCP) : Statement (.cpypFromScratch h o) := by
  intro hw
  have w : (lenOk 5 (o.t.words + 1) h && o.t.ok 2 && o.t.within 0 (2 ^ 40) && o.ext.c != 31 && o.ext.sel == 1) = true := hw
  simp only [Bool.and_eq_true] at w
  exact ⟨_, rfl, row_decodes rfl (accepts_of (Nat.zero_le _) (regImm_len w.1.1.1.2) (nofun) (fun _ => rfl) (fun _ => rfl))
    (show _ = some (Instr.cpypFromScratch h o) by simp [SCP.back _ _ _ _ w.1.1.1.2, cpypRow, eq_of_beq w.2]) hw⟩

theorem Encoding.cpykGet (h : Hdr) (o : SKY) : Statement (.cpykGet h o) := by
  intro hw
  have w : (lenOk 5 (1) h && decide (o.ext.c.toNat ≤ 29) && o.ext.sel == 0) = true := hw
  simp only [Bool.and_eq_true] at w
  exact ⟨_, rfl, row_decodes rfl (accepts_of (Nat.zero_le _) (Nat.le_refl _) (nofun) (fun _ => rfl) (fun _ => rfl))
    (show _ = some (Instr.cpykGet h o) by simp [SKY.back, cpykRow, eq_of_beq w.2]) hw⟩

theorem Encoding.cpykPut (h : Hdr) (o : SKY) : Statement (.cpykPut h o) := by
  intro hw
  have w : (lenOk 5 (1) h && decide (o.ext.c.toNat ≤ 29) && o.ext.sel == 1) = true := hw
  simp only [Bool.and_eq_true] at w
  exact ⟨_, rfl, row_decodes rfl (accepts_of (Nat.zero_le _) (Nat.le_refl _) (nofun) (fun _ => rfl) (fun _ => rfl))
    (show _ = some (Instr.cpykPut h o) by simp [SKY.back, cpykRow, eq_of_beq w.2]) hw⟩

theorem Encoding.copyUnit (n : Nat) : Statement (.copyUnit n) := fun h => nomatch h

theorem Encoding.coll (h : Hdr) (o : SCP) : Statement (.coll h o) := by
  intro hw
  have w : (lenOk 5 (o.t.words + 1) h && o.t.ok 2 && o.t.within 0 (2 ^ 40) && o.ext.c != 31 && o.ext.sel == 0) = true := hw
  simp only [Bool.and_eq_true] at w
  exact ⟨_, rfl, row_decodes rfl (accepts_of (Nat.zero_le _) (regImm_len w.1.1.1.2) (nofun) (fun _ => rfl) (fun _ => rfl))
    (show _ = some (Instr.coll h o) by simp [SCP.back _ _ _ _ w.1.1.1.2]) hw⟩

theorem Encoding.collStepBegin (n : Nat) : Statement (.collStepBegin n) := fun h => nomatch h

theorem Encoding.collNoticeArrival (n : Nat) : Statement (.collNoticeArrival n) := fun h => nomatch h

theorem Encoding.collNoticeResend (n : Nat) : Statement (.collNoticeResend n) := fun h => nomatch h

theorem Encoding.collNoticeTimeout (n : Nat) : Statement (.collNoticeTimeout n) := fun h => nomatch h

theorem Encoding.swait (h : Hdr) (o : RU) : Statement (.swait h o) := by
  intro hw
  exact ⟨_, rfl, row_decodes rfl (accepts_of (Nat.zero_le _) (Nat.le_refl _) (fun _ => rfl) (nofun) (fun _ => rfl))
    (show _ = some (Instr.swait h o) by simp [RU.back]) hw⟩

theorem Encoding.stest (h : Hdr) (o : RU) : Statement (.stest h o) := by
  intro hw
  exact ⟨_, rfl, row_decodes rfl (accepts_of (Nat.zero_le _) (Nat.le_refl _) (fun _ => rfl) (nofun) (fun _ => rfl))
    (show _ = some (Instr.stest h o) by simp [RU.back]) hw⟩

theorem Encoding.scancel (h : Hdr) (o : RU) : Statement (.scancel h o) := by
  intro hw
  exact ⟨_, rfl, row_decodes rfl (accepts_of (Nat.zero_le _) (Nat.le_refl _) (fun _ => rfl) (nofun) (fun _ => rfl))
    (show _ = some (Instr.scancel h o) by simp [RU.back]) hw⟩

theorem Encoding.sdetach (h : Hdr) (o : XB) : Statement (.sdetach h o) := by
  intro hw
  exact ⟨_, rfl, row_decodes rfl (accepts_of (Nat.zero_le _) (Nat.le_refl _) (fun _ => rfl) (nofun) (fun _ => rfl))
    (show _ = some (Instr.sdetach h o) by simp [XB.back]) hw⟩

theorem Encoding.sprio (h : Hdr) (o : SPR) : Statement (.sprio h o) := by
  intro hw
  exact ⟨_, rfl, row_decodes rfl (accepts_of (Nat.zero_le _) (Nat.le_refl _) (fun _ => rfl) (nofun) (fun _ => rfl))
    (show _ = some (Instr.sprio h o) by simp [SPR.back]) hw⟩

theorem Encoding.sfault (h : Hdr) (o : RU) : Statement (.sfault h o) := by
  intro hw
  exact ⟨_, rfl, row_decodes rfl (accepts_of (Nat.zero_le _) (Nat.le_refl _) (fun _ => rfl) (nofun) (fun _ => rfl))
    (show _ = some (Instr.sfault h o) by simp [RU.back]) hw⟩

theorem Encoding.sadopt (h : Hdr) (o : XB) : Statement (.sadopt h o) := by
  intro hw
  exact ⟨_, rfl, row_decodes rfl (accepts_of (Nat.zero_le _) (Nat.le_refl _) (fun _ => rfl) (nofun) (fun _ => rfl))
    (show _ = some (Instr.sadopt h o) by simp [XB.back]) hw⟩

theorem Encoding.swaitall (h : Hdr) : Statement (.swaitall h) := fun hw => ⟨_, rfl, row_decodes rfl rfl rfl hw⟩

theorem Encoding.sleepu (h : Hdr) (o : XB) : Statement (.sleepu h o) := by
  intro hw
  exact ⟨_, rfl, row_decodes rfl (accepts_of (Nat.zero_le _) (Nat.le_refl _) (fun _ => rfl) (nofun) (fun _ => rfl))
    (show _ = some (Instr.sleepu h o) by simp [XB.back]) hw⟩

theorem Encoding.spromise (h : Hdr) (o : XBC) : Statement (.spromise h o) := by
  intro hw
  have w : (lenOk 5 (1) h && o.ext.sel == 0) = true := hw
  simp only [Bool.and_eq_true] at w
  exact ⟨_, rfl, row_decodes rfl (accepts_of (Nat.zero_le _) (Nat.le_refl _) (nofun) (fun _ => rfl) (fun _ => rfl))
    (show _ = some (Instr.spromise h o) by simp [XBC.back]) hw⟩

theorem Encoding.sattr (h : Hdr) (o : LI) : Statement (.sattr h o) := by
  intro hw
  have w : (lenOk 5 (o.i.ws.length) h && decide (o.i.ws.length ≤ 4) && o.a == 0 && decide (0 ≤ o.i.int) && decide (o.i.ws.length ≤ 3)) = true := hw
  simp only [Bool.and_eq_true] at w
  exact ⟨_, rfl, row_decodes rfl (accepts_of (Nat.zero_le _) (of_decide_eq_true w.1.1.1.2) (fun _ => rfl) (nofun) (fun _ => rfl))
    (show _ = some (Instr.sattr h o) by simp [LI.back]) hw⟩

theorem Encoding.cdrain (h : Hdr) (o : SCP) : Statement (.cdrain h o) := by
  intro hw
  have w : (lenOk 5 (o.t.words + 1) h && o.t.ok 2 && o.t.within 0 (2 ^ 40) && o.ext.sel == 0) = true := hw
  simp only [Bool.and_eq_true] at w
  exact ⟨_, rfl, row_decodes rfl (accepts_of (Nat.zero_le _) (regImm_len w.1.1.2) (nofun) (fun _ => rfl) (fun _ => rfl))
    (show _ = some (Instr.cdrain h o) by simp [SCP.back _ _ _ _ w.1.1.2]) hw⟩

theorem Encoding.parkWake (n : Nat) : Statement (.parkWake n) := fun h => nomatch h

theorem Encoding.satelliteLaunch (n : Nat) : Statement (.satelliteLaunch n) := fun h => nomatch h

theorem Encoding.satelliteBegin (n : Nat) : Statement (.satelliteBegin n) := fun h => nomatch h

theorem Encoding.satellitePriorityAging (n : Nat) : Statement (.satellitePriorityAging n) := fun h => nomatch h

theorem Encoding.promiseMiss (n : Nat) : Statement (.promiseMiss n) := fun h => nomatch h

theorem Encoding.kld (h : Hdr) (o : ADR) : Statement (.kld h o) := by
  intro hw
  have w : (lenOk 6 (o.t.words + present o.ext + present o.mask) h && o.t.ok 3 && noMask o.mask && extPlain o.ext && decide (o.a.toNat < 16)) = true := hw
  simp only [Bool.and_eq_true] at w
  exact ⟨_, rfl, row_decodes rfl (accepts_of (Nat.zero_le _) (regImm_len w.1.1.1.2) (nofun) (nofun) (fun _ => by simp [ADR.chain, chainOf, Option.isNone_iff_eq_none.mp w.1.1.2]))
    (show _ = some (Instr.kld h o) by simp [ADR.back _ _ _ _ w.1.1.1.2]) hw⟩

theorem Encoding.kst (h : Hdr) (o : ADR) : Statement (.kst h o) := by
  intro hw
  have w : (lenOk 6 (o.t.words + present o.ext + present o.mask) h && o.t.ok 3 && noMask o.mask && extPlain o.ext && decide (o.a.toNat < 16)) = true := hw
  simp only [Bool.and_eq_true] at w
  exact ⟨_, rfl, row_decodes rfl (accepts_of (Nat.zero_le _) (regImm_len w.1.1.1.2) (nofun) (nofun) (fun _ => by simp [ADR.chain, chainOf, Option.isNone_iff_eq_none.mp w.1.1.2]))
    (show _ = some (Instr.kst h o) by simp [ADR.back _ _ _ _ w.1.1.1.2]) hw⟩

theorem Encoding.kmov (h : Hdr) (o : KK) : Statement (.kmov h o) := by
  intro hw
  exact ⟨_, rfl, row_decodes rfl (accepts_of (Nat.zero_le _) (Nat.le_refl _) (fun _ => rfl) (nofun) (fun _ => rfl))
    (show _ = some (Instr.kmov h o) by simp [KK.back]) hw⟩

theorem Encoding.knarrow (h : Hdr) (o : KKX) : Statement (.knarrow h o) := by
  intro hw
  have w : (lenOk 6 (1) h && o.ext.sel == 0 && o.ext.c != 31) = true := hw
  simp only [Bool.and_eq_true] at w
  exact ⟨_, rfl, row_decodes rfl (accepts_of (Nat.zero_le _) (Nat.le_refl _) (nofun) (fun _ => rfl) (fun _ => rfl))
    (show _ = some (Instr.knarrow h o) by simp [KKX.back]) hw⟩

theorem Encoding.krights (h : Hdr) (o : KKX) : Statement (.krights h o) := by
  intro hw
  have w : (lenOk 6 (1) h && o.ext.sel == 0) = true := hw
  simp only [Bool.and_eq_true] at w
  exact ⟨_, rfl, row_decodes rfl (accepts_of (Nat.zero_le _) (Nat.le_refl _) (nofun) (fun _ => rfl) (fun _ => rfl))
    (show _ = some (Instr.krights h o) by simp [KKX.back]) hw⟩

theorem Encoding.kgive (h : Hdr) (o : KKX) : Statement (.kgive h o) := by
  intro hw
  have w : (lenOk 6 (1) h && o.ext.sel == 0) = true := hw
  simp only [Bool.and_eq_true] at w
  exact ⟨_, rfl, row_decodes rfl (accepts_of (Nat.zero_le _) (Nat.le_refl _) (nofun) (fun _ => rfl) (fun _ => rfl))
    (show _ = some (Instr.kgive h o) by simp [KKX.back]) hw⟩

theorem Encoding.kpaths (h : Hdr) (o : KKX) : Statement (.kpaths h o) := by
  intro hw
  have w : (lenOk 6 (1) h && o.ext.sel == 0) = true := hw
  simp only [Bool.and_eq_true] at w
  exact ⟨_, rfl, row_decodes rfl (accepts_of (Nat.zero_le _) (Nat.le_refl _) (nofun) (fun _ => rfl) (fun _ => rfl))
    (show _ = some (Instr.kpaths h o) by simp [KKX.back]) hw⟩

theorem Encoding.kinfo (h : Hdr) (o : KIN) : Statement (.kinfo h o) := by
  intro hw
  exact ⟨_, rfl, row_decodes rfl (accepts_of (Nat.zero_le _) (Nat.le_refl _) (nofun) (nofun) (fun _ => rfl))
    (show _ = some (Instr.kinfo h o) by simp [KIN.back]) hw⟩

theorem Encoding.rld (h : Hdr) (o : RMT) : Statement (.rld h o) := by
  intro hw
  have w : (lenOk 6 (1 + present o.mask) h && noMask o.mask && decide (o.ext.sel.toNat ≤ 6)) = true := hw
  simp only [Bool.and_eq_true] at w
  exact ⟨_, rfl, row_decodes rfl (accepts_of (Nat.zero_le _) (Nat.le_refl _) (nofun) (fun _ => rfl) (fun _ => by simp [RMT.chain, chainOf, Option.isNone_iff_eq_none.mp w.1.2]))
    (show _ = some (Instr.rld h o) by simp [RMT.back]) hw⟩

theorem Encoding.rst (h : Hdr) (o : RMT) : Statement (.rst h o) := by
  intro hw
  have w : (lenOk 6 (1 + present o.mask) h && noMask o.mask && decide (o.ext.sel.toNat ≤ 3)) = true := hw
  simp only [Bool.and_eq_true] at w
  exact ⟨_, rfl, row_decodes rfl (accepts_of (Nat.zero_le _) (Nat.le_refl _) (nofun) (fun _ => rfl) (fun _ => by simp [RMT.chain, chainOf, Option.isNone_iff_eq_none.mp w.1.2]))
    (show _ = some (Instr.rst h o) by simp [RMT.back]) hw⟩

theorem Encoding.ramoAdd (h : Hdr) (o : RMT) : Statement (.ramoAdd h o) := by
  intro hw
  have w : (lenOk 6 (1 + present o.mask) h && noMask o.mask && o.ext.sel == 0) = true := hw
  simp only [Bool.and_eq_true] at w
  exact ⟨_, rfl, row_decodes rfl (accepts_of (Nat.zero_le _) (Nat.le_refl _) (nofun) (fun _ => rfl) (fun _ => by simp [RMT.chain, chainOf, Option.isNone_iff_eq_none.mp w.1.2]))
    (show _ = some (Instr.ramoAdd h o) by simp [RMT.back, ramoRow, eq_of_beq w.2]) hw⟩

theorem Encoding.ramoSwap (h : Hdr) (o : RMT) : Statement (.ramoSwap h o) := by
  intro hw
  have w : (lenOk 6 (1 + present o.mask) h && noMask o.mask && o.ext.sel == 1) = true := hw
  simp only [Bool.and_eq_true] at w
  exact ⟨_, rfl, row_decodes rfl (accepts_of (Nat.zero_le _) (Nat.le_refl _) (nofun) (fun _ => rfl) (fun _ => by simp [RMT.chain, chainOf, Option.isNone_iff_eq_none.mp w.1.2]))
    (show _ = some (Instr.ramoSwap h o) by simp [RMT.back, ramoRow, eq_of_beq w.2]) hw⟩

theorem Encoding.ramoCas (h : Hdr) (o : RMT) : Statement (.ramoCas h o) := by
  intro hw
  have w : (lenOk 6 (1 + present o.mask) h && noMask o.mask && o.ext.sel == 2 && o.a != 31) = true := hw
  simp only [Bool.and_eq_true] at w
  exact ⟨_, rfl, row_decodes rfl (accepts_of (Nat.zero_le _) (Nat.le_refl _) (nofun) (fun _ => rfl) (fun _ => by simp [RMT.chain, chainOf, Option.isNone_iff_eq_none.mp w.1.1.2]))
    (show _ = some (Instr.ramoCas h o) by simp [RMT.back, ramoRow, eq_of_beq w.1.2]) hw⟩

theorem Encoding.ramoMax (h : Hdr) (o : RMT) : Statement (.ramoMax h o) := by
  intro hw
  have w : (lenOk 6 (1 + present o.mask) h && noMask o.mask && o.ext.sel == 3) = true := hw
  simp only [Bool.and_eq_true] at w
  exact ⟨_, rfl, row_decodes rfl (accepts_of (Nat.zero_le _) (Nat.le_refl _) (nofun) (fun _ => rfl) (fun _ => by simp [RMT.chain, chainOf, Option.isNone_iff_eq_none.mp w.1.2]))
    (show _ = some (Instr.ramoMax h o) by simp [RMT.back, ramoRow, eq_of_beq w.2]) hw⟩

theorem Encoding.ramoOr (h : Hdr) (o : RMT) : Statement (.ramoOr h o) := by
  intro hw
  have w : (lenOk 6 (1 + present o.mask) h && noMask o.mask && o.ext.sel == 4) = true := hw
  simp only [Bool.and_eq_true] at w
  exact ⟨_, rfl, row_decodes rfl (accepts_of (Nat.zero_le _) (Nat.le_refl _) (nofun) (fun _ => rfl) (fun _ => by simp [RMT.chain, chainOf, Option.isNone_iff_eq_none.mp w.1.2]))
    (show _ = some (Instr.ramoOr h o) by simp [RMT.back, ramoRow, eq_of_beq w.2]) hw⟩

theorem Encoding.ramoAnd (h : Hdr) (o : RMT) : Statement (.ramoAnd h o) := by
  intro hw
  have w : (lenOk 6 (1 + present o.mask) h && noMask o.mask && o.ext.sel == 5) = true := hw
  simp only [Bool.and_eq_true] at w
  exact ⟨_, rfl, row_decodes rfl (accepts_of (Nat.zero_le _) (Nat.le_refl _) (nofun) (fun _ => rfl) (fun _ => by simp [RMT.chain, chainOf, Option.isNone_iff_eq_none.mp w.1.2]))
    (show _ = some (Instr.ramoAnd h o) by simp [RMT.back, ramoRow, eq_of_beq w.2]) hw⟩

theorem Encoding.ramoAddn (h : Hdr) (o : RMT) : Statement (.ramoAddn h o) := by
  intro hw
  have w : (lenOk 6 (1 + present o.mask) h && noMask o.mask && o.ext.sel == 6 && o.a != 31) = true := hw
  simp only [Bool.and_eq_true] at w
  exact ⟨_, rfl, row_decodes rfl (accepts_of (Nat.zero_le _) (Nat.le_refl _) (nofun) (fun _ => rfl) (fun _ => by simp [RMT.chain, chainOf, Option.isNone_iff_eq_none.mp w.1.1.2]))
    (show _ = some (Instr.ramoAddn h o) by simp [RMT.back, ramoRow, eq_of_beq w.1.2]) hw⟩

theorem Encoding.rvld (h : Hdr) (o : RMT) : Statement (.rvld h o) := by
  intro hw
  exact ⟨_, rfl, row_decodes rfl (accepts_of (Nat.zero_le _) (Nat.le_refl _) (nofun) (fun _ => rfl) (nofun))
    (show _ = some (Instr.rvld h o) by simp [RMT.back]) hw⟩

theorem Encoding.rvst (h : Hdr) (o : RMT) : Statement (.rvst h o) := by
  intro hw
  exact ⟨_, rfl, row_decodes rfl (accepts_of (Nat.zero_le _) (Nat.le_refl _) (nofun) (fun _ => rfl) (nofun))
    (show _ = some (Instr.rvst h o) by simp [RMT.back]) hw⟩

theorem Encoding.send (h : Hdr) (o : MSG) : Statement (.send h o) := by
  intro hw
  have w : (lenOk 6 (1) h && o.ext.sel == 0) = true := hw
  simp only [Bool.and_eq_true] at w
  exact ⟨_, rfl, row_decodes rfl (accepts_of (Nat.zero_le _) (Nat.le_refl _) (nofun) (fun _ => rfl) (fun _ => rfl))
    (show _ = some (Instr.send h o) by simp [MSG.back, sendRow, eq_of_beq w.2]) hw⟩

theorem Encoding.sendR (h : Hdr) (o : MSG) : Statement (.sendR h o) := by
  intro hw
  have w : (lenOk 6 (1) h && o.ext.sel == 1 && o.k != 15) = true := hw
  simp only [Bool.and_eq_true] at w
  exact ⟨_, rfl, row_decodes rfl (accepts_of (Nat.zero_le _) (Nat.le_refl _) (nofun) (fun _ => rfl) (fun _ => rfl))
    (show _ = some (Instr.sendR h o) by simp [MSG.back, sendRow, eq_of_beq w.1.2]) hw⟩

theorem Encoding.sendr (h : Hdr) (o : MSG) : Statement (.sendr h o) := by
  intro hw
  have w : (lenOk 6 (1) h && o.ext.sel == 0) = true := hw
  simp only [Bool.and_eq_true] at w
  exact ⟨_, rfl, row_decodes rfl (accepts_of (Nat.zero_le _) (Nat.le_refl _) (nofun) (fun _ => rfl) (fun _ => rfl))
    (show _ = some (Instr.sendr h o) by simp [MSG.back]) hw⟩

theorem Encoding.hclr (h : Hdr) (o : HID) : Statement (.hclr h o) := by
  intro hw
  have w : (lenOk 6 (o.t.words + present o.ext) h && o.t.ok 1 && extPlain o.ext && o.ext.isNone && hidOk o.t) = true := hw
  simp only [Bool.and_eq_true] at w
  exact ⟨_, rfl, row_decodes rfl (accepts_of (Nat.zero_le _) (regImm_len w.1.1.1.2) (fun _ => by simp [HID.chain, chainOf, Option.isNone_iff_eq_none.mp w.1.2]) (nofun) (fun _ => rfl))
    (show _ = some (Instr.hclr h o) by simp [HID.back _ _ _ _ w.1.1.1.2]) hw⟩

theorem Encoding.hset (h : Hdr) (o : HID) : Statement (.hset h o) := by
  intro hw
  have w : (lenOk 6 (o.t.words + present o.ext) h && o.t.ok 1 && extPlain o.ext && o.ext.isSome && hidOk o.t) = true := hw
  simp only [Bool.and_eq_true] at w
  exact ⟨_, rfl, row_decodes rfl (accepts_of (Nat.zero_le _) (regImm_len w.1.1.1.2) (nofun) (fun _ => by simp [HID.chain, chainOf, w.1.2]) (fun _ => rfl))
    (show _ = some (Instr.hset h o) by simp [HID.back _ _ _ _ w.1.1.1.2]) hw⟩

theorem Encoding.hret (h : Hdr) : Statement (.hret h) := fun hw => ⟨_, rfl, row_decodes rfl rfl rfl hw⟩

theorem Encoding.hmask (h : Hdr) (o : HID) : Statement (.hmask h o) := by
  intro hw
  have w : (lenOk 6 (o.t.words + present o.ext) h && o.t.ok 1 && extPlain o.ext && o.ext.isSome && hidOk o.t) = true := hw
  simp only [Bool.and_eq_true] at w
  exact ⟨_, rfl, row_decodes rfl (accepts_of (Nat.zero_le _) (regImm_len w.1.1.1.2) (nofun) (fun _ => by simp [HID.chain, chainOf, w.1.2]) (fun _ => rfl))
    (show _ = some (Instr.hmask h o) by simp [HID.back _ _ _ _ w.1.1.1.2]) hw⟩

theorem Encoding.sqfree (h : Hdr) (o : LI) : Statement (.sqfree h o) := by
  intro hw
  have w : (lenOk 6 (o.i.ws.length) h && decide (o.i.ws.length ≤ 4) && (o.i.int == 0 || o.i.int == 1)) = true := hw
  simp only [Bool.and_eq_true] at w
  exact ⟨_, rfl, row_decodes rfl (accepts_of (Nat.zero_le _) (of_decide_eq_true w.1.2) (fun _ => rfl) (nofun) (fun _ => rfl))
    (show _ = some (Instr.sqfree h o) by simp [LI.back]) hw⟩

theorem Encoding.spawn (h : Hdr) (o : SPN) : Statement (.spawn h o) := by
  intro hw
  have w : (lenOk 6 (1) h && o.ext.sel == 0 && decide (o.cls.toNat ≤ 5)) = true := hw
  simp only [Bool.and_eq_true] at w
  exact ⟨_, rfl, row_decodes rfl (accepts_of (Nat.zero_le _) (Nat.le_refl _) (nofun) (fun _ => rfl) (fun _ => rfl))
    (show _ = some (Instr.spawn h o) by simp [SPN.back]) hw⟩

theorem Encoding.spawnQueue (n : Nat) : Statement (.spawnQueue n) := fun h => nomatch h

theorem Encoding.exit (h : Hdr) : Statement (.exit h) := fun hw => ⟨_, rfl, row_decodes rfl rfl rfl hw⟩

theorem Encoding.yield (h : Hdr) : Statement (.yield h) := fun hw => ⟨_, rfl, row_decodes rfl rfl rfl hw⟩

theorem Encoding.jdec (h : Hdr) (o : XB) : Statement (.jdec h o) := by
  intro hw
  exact ⟨_, rfl, row_decodes rfl (accepts_of (Nat.zero_le _) (Nat.le_refl _) (fun _ => rfl) (nofun) (fun _ => rfl))
    (show _ = some (Instr.jdec h o) by simp [XB.back]) hw⟩

theorem Encoding.rett (h : Hdr) : Statement (.rett h) := fun hw => ⟨_, rfl, row_decodes rfl rfl rfl hw⟩

theorem Encoding.mfpr (h : Hdr) (o : CRN) : Statement (.mfpr h o) := by
  intro hw
  have w : (lenOk 7 (o.i.ws.length) h && decide (o.i.ws.length ≤ 4) && decide (o.i.nat ≤ 4095)) = true := hw
  simp only [Bool.and_eq_true] at w
  exact ⟨_, rfl, row_decodes rfl (accepts_of (Nat.zero_le _) (of_decide_eq_true w.1.2) (fun _ => rfl) (nofun) (fun _ => rfl))
    (show _ = some (Instr.mfpr h o) by simp [CRN.back]) hw⟩

theorem Encoding.mtpr (h : Hdr) (o : CRN) : Statement (.mtpr h o) := by
  intro hw
  have w : (lenOk 7 (o.i.ws.length) h && decide (o.i.ws.length ≤ 4) && decide (o.i.nat ≤ 4095) && o.i.nat != 0x180) = true := hw
  simp only [Bool.and_eq_true] at w
  exact ⟨_, rfl, row_decodes rfl (accepts_of (Nat.zero_le _) (of_decide_eq_true w.1.1.2) (fun _ => rfl) (nofun) (fun _ => rfl))
    (show _ = some (Instr.mtpr h o) by simp [CRN.back, mtprRow, bne_iff_ne.mp w.2]) hw⟩

theorem Encoding.mtprMchkClear (h : Hdr) (o : CRN) : Statement (.mtprMchkClear h o) := by
  intro hw
  have w : (lenOk 7 (o.i.ws.length) h && decide (o.i.ws.length ≤ 4) && decide (o.i.nat ≤ 4095) && o.i.nat == 384) = true := hw
  simp only [Bool.and_eq_true] at w
  exact ⟨_, rfl, row_decodes rfl (accepts_of (Nat.zero_le _) (of_decide_eq_true w.1.1.2) (fun _ => rfl) (nofun) (fun _ => rfl))
    (show _ = some (Instr.mtprMchkClear h o) by simp [CRN.back, mtprRow, eq_of_beq w.2]) hw⟩

theorem Encoding.tlbi (h : Hdr) (o : TLB) : Statement (.tlbi h o) := by
  intro hw
  have w : (lenOk 7 (1) h && o.ext.sel == 0) = true := hw
  simp only [Bool.and_eq_true] at w
  exact ⟨_, rfl, row_decodes rfl (accepts_of (Nat.zero_le _) (Nat.le_refl _) (nofun) (fun _ => rfl) (fun _ => rfl))
    (show _ = some (Instr.tlbi h o) by simp [TLB.back]) hw⟩

theorem Encoding.icinv (h : Hdr) : Statement (.icinv h) := fun hw => ⟨_, rfl, row_decodes rfl rfl rfl hw⟩

theorem Encoding.cflush (h : Hdr) (o : CFL) : Statement (.cflush h o) := by
  intro hw
  exact ⟨_, rfl, row_decodes rfl (accepts_of (Nat.zero_le _) (Nat.le_refl _) (nofun) (fun _ => rfl) (fun _ => rfl))
    (show _ = some (Instr.cflush h o) by simp [CFL.back]) hw⟩

theorem Encoding.ctxsave (h : Hdr) (o : XB) : Statement (.ctxsave h o) := by
  intro hw
  exact ⟨_, rfl, row_decodes rfl (accepts_of (Nat.zero_le _) (Nat.le_refl _) (fun _ => rfl) (nofun) (fun _ => rfl))
    (show _ = some (Instr.ctxsave h o) by simp [XB.back]) hw⟩

theorem Encoding.ctxload (h : Hdr) (o : XB) : Statement (.ctxload h o) := by
  intro hw
  exact ⟨_, rfl, row_decodes rfl (accepts_of (Nat.zero_le _) (Nat.le_refl _) (fun _ => rfl) (nofun) (fun _ => rfl))
    (show _ = some (Instr.ctxload h o) by simp [XB.back]) hw⟩

theorem Encoding.rgnbindBind (h : Hdr) (o : XBC) : Statement (.rgnbindBind h o) := by
  intro hw
  have w : (lenOk 7 (1) h && o.ext.sel == 0) = true := hw
  simp only [Bool.and_eq_true] at w
  exact ⟨_, rfl, row_decodes rfl (accepts_of (Nat.zero_le _) (Nat.le_refl _) (nofun) (fun _ => rfl) (fun _ => rfl))
    (show _ = some (Instr.rgnbindBind h o) by simp [XBC.back]) hw⟩

theorem Encoding.rgnbindReload (h : Hdr) (o : XBC) : Statement (.rgnbindReload h o) := by
  intro hw
  have w : (lenOk 7 (1) h && o.ext.sel == 0) = true := hw
  simp only [Bool.and_eq_true] at w
  exact ⟨_, rfl, row_decodes rfl (accepts_of (Nat.zero_le _) (Nat.le_refl _) (nofun) (fun _ => rfl) (fun _ => rfl))
    (show _ = some (Instr.rgnbindBind h o) by simp [XBC.back]) hw⟩

theorem Encoding.rgnbindEnd (h : Hdr) (o : XBC) : Statement (.rgnbindEnd h o) := by
  intro hw
  have w : (lenOk 7 (1) h && o.ext.sel == 0) = true := hw
  simp only [Bool.and_eq_true] at w
  exact ⟨_, rfl, row_decodes rfl (accepts_of (Nat.zero_le _) (Nat.le_refl _) (nofun) (fun _ => rfl) (fun _ => rfl))
    (show _ = some (Instr.rgnbindBind h o) by simp [XBC.back]) hw⟩

theorem Encoding.qmap (h : Hdr) (o : XBC) : Statement (.qmap h o) := by
  intro hw
  have w : (lenOk 7 (1) h && o.ext.sel == 0) = true := hw
  simp only [Bool.and_eq_true] at w
  exact ⟨_, rfl, row_decodes rfl (accepts_of (Nat.zero_le _) (Nat.le_refl _) (nofun) (fun _ => rfl) (fun _ => rfl))
    (show _ = some (Instr.qmap h o) by simp [XBC.back]) hw⟩

theorem Encoding.trcctl (h : Hdr) (o : XBC) : Statement (.trcctl h o) := by
  intro hw
  have w : (lenOk 7 (1) h && o.ext.sel == 0) = true := hw
  simp only [Bool.and_eq_true] at w
  exact ⟨_, rfl, row_decodes rfl (accepts_of (Nat.zero_le _) (Nat.le_refl _) (nofun) (fun _ => rfl) (fun _ => rfl))
    (show _ = some (Instr.trcctl h o) by simp [XBC.back]) hw⟩

theorem Encoding.kmint (h : Hdr) (o : KB) : Statement (.kmint h o) := by
  intro hw
  exact ⟨_, rfl, row_decodes rfl (accepts_of (Nat.zero_le _) (Nat.le_refl _) (fun _ => rfl) (nofun) (fun _ => rfl))
    (show _ = some (Instr.kmint h o) by simp [KB.back]) hw⟩

theorem Encoding.krekeyAdvance (h : Hdr) (o : XB) : Statement (.krekeyAdvance h o) := by
  intro hw
  exact ⟨_, rfl, row_decodes rfl (accepts_of (Nat.zero_le _) (Nat.le_refl _) (fun _ => rfl) (nofun) (fun _ => rfl))
    (show _ = some (Instr.krekeyAdvance h o) by simp [XB.back]) hw⟩

theorem Encoding.krekeyRotate (h : Hdr) (o : XB) : Statement (.krekeyRotate h o) := by
  intro hw
  exact ⟨_, rfl, row_decodes rfl (accepts_of (Nat.zero_le _) (Nat.le_refl _) (fun _ => rfl) (nofun) (fun _ => rfl))
    (show _ = some (Instr.krekeyAdvance h o) by simp [XB.back]) hw⟩

theorem Encoding.wfi (h : Hdr) : Statement (.wfi h) := fun hw => ⟨_, rfl, row_decodes rfl rfl rfl hw⟩

theorem Encoding.pstateSet (h : Hdr) (o : RB) : Statement (.pstateSet h o) := by
  intro hw
  have w : (lenOk 7 (o.t.words) h && o.t.ok 1) = true := hw
  simp only [Bool.and_eq_true] at w
  exact ⟨_, rfl, row_decodes rfl (accepts_of (Nat.zero_le _) (regImm_len w.2) (fun _ => rfl) (nofun) (fun _ => rfl))
    (show _ = some (Instr.pstateSet h o) by simp [RB.back _ _ _ _ w.2]) hw⟩

theorem Encoding.pstateRead (h : Hdr) (o : RB) : Statement (.pstateRead h o) := by
  intro hw
  have w : (lenOk 7 (o.t.words) h && o.t.ok 1) = true := hw
  simp only [Bool.and_eq_true] at w
  exact ⟨_, rfl, row_decodes rfl (accepts_of (Nat.zero_le _) (regImm_len w.2) (fun _ => rfl) (nofun) (fun _ => rfl))
    (show _ = some (Instr.pstateSet h o) by simp [RB.back _ _ _ _ w.2]) hw⟩

theorem Encoding.longLatencyResult (n o : Nat) : Statement (.longLatencyResult n o) := fun h => nomatch h

theorem Encoding.storeHomeFailure (n : Nat) : Statement (.storeHomeFailure n) := fun h => nomatch h

theorem Encoding.eventBoundary (n : Nat) : Statement (.eventBoundary n) := fun h => nomatch h

theorem Encoding.messageAccept (n : Nat) : Statement (.messageAccept n) := fun h => nomatch h

theorem Encoding.handlerStart (n c g : Nat) : Statement (.handlerStart n c g) := fun h => nomatch h

theorem Encoding.handlerBusyTimeout (n : Nat) : Statement (.handlerBusyTimeout n) := fun h => nomatch h

theorem Encoding.handlerCycleLimit (n : Nat) : Statement (.handlerCycleLimit n) := fun h => nomatch h

theorem Encoding.sendAck (n : Nat) : Statement (.sendAck n) := fun h => nomatch h

theorem Encoding.messageReturn (n : Nat) : Statement (.messageReturn n) := fun h => nomatch h

theorem Encoding.replyAccept (n : Nat) : Statement (.replyAccept n) := fun h => nomatch h

theorem Encoding.remoteResponse (n : Nat) : Statement (.remoteResponse n) := fun h => nomatch h

theorem Encoding.ingressPacket (n : Nat) : Statement (.ingressPacket n) := fun h => nomatch h

theorem Encoding.egressCheck (n : Nat) : Statement (.egressCheck n) := fun h => nomatch h

theorem Encoding.vaultForward (n : Nat) : Statement (.vaultForward n) := fun h => nomatch h

theorem Encoding.retransmit (n : Nat) : Statement (.retransmit n) := fun h => nomatch h

theorem Encoding.endToEndFailure (n : Nat) : Statement (.endToEndFailure n) := fun h => nomatch h

theorem Encoding.streamStateRelease (m d t : Nat) : Statement (.streamStateRelease m d t) := fun h => nomatch h

theorem Encoding.flitReceive (ep p f : Nat) : Statement (.flitReceive ep p f) := fun h => nomatch h

theorem Encoding.ackTimeout (ep p : Nat) : Statement (.ackTimeout ep p) := fun h => nomatch h

theorem Encoding.linkRetrain (ep p lanes : Nat) : Statement (.linkRetrain ep p lanes) := fun h => nomatch h

theorem Encoding.beaconExchange (m s1 a1 s2 a2 : Nat) : Statement (.beaconExchange m s1 a1 s2 a2) := fun h => nomatch h

theorem Encoding.meridianFreeRun (m : Nat) : Statement (.meridianFreeRun m) := fun h => nomatch h

theorem Encoding.referenceFailover (m : Nat) : Statement (.referenceFailover m) := fun h => nomatch h

theorem Encoding.keywrightTakeover (m : Nat) : Statement (.keywrightTakeover m) := fun h => nomatch h

theorem Encoding.rotationAcknowledged : Statement (.rotationAcknowledged) := fun h => nomatch h

theorem Encoding.tagGraceExpiry : Statement (.tagGraceExpiry) := fun h => nomatch h

theorem Encoding.slotBoundary (m d r : Nat) : Statement (.slotBoundary m d r) := fun h => nomatch h

theorem Encoding.queueAging (m d r : Nat) : Statement (.queueAging m d r) := fun h => nomatch h

theorem Encoding.threadPlace (n c x g q : Nat) : Statement (.threadPlace n c x g q) := fun h => nomatch h

theorem Encoding.threadQuantum (n : Nat) : Statement (.threadQuantum n) := fun h => nomatch h

theorem Encoding.timeBudgetSpent (m r : Nat) : Statement (.timeBudgetSpent m r) := fun h => nomatch h

theorem Encoding.timePeriodBegin (m r : Nat) : Statement (.timePeriodBegin m r) := fun h => nomatch h

theorem Encoding.lifetimeBudget (m r n : Nat) : Statement (.lifetimeBudget m r n) := fun h => nomatch h

theorem Encoding.contextSaveStage2 (n : Nat) : Statement (.contextSaveStage2 n) := fun h => nomatch h

theorem Encoding.drainLimitExpiry (n : Nat) : Statement (.drainLimitExpiry n) := fun h => nomatch h

theorem Encoding.scratchpadMove (m r d c d2 c2 : Nat) : Statement (.scratchpadMove m r d c d2 c2) := fun h => nomatch h

theorem Encoding.launchBind (n : Nat) : Statement (.launchBind n) := fun h => nomatch h

theorem Encoding.launchCreateThread (n : Nat) : Statement (.launchCreateThread n) := fun h => nomatch h

theorem Encoding.launchEndRegion (n : Nat) : Statement (.launchEndRegion n) := fun h => nomatch h

theorem Encoding.launchReload (n : Nat) : Statement (.launchReload n) := fun h => nomatch h

theorem Encoding.hostQueueWrite (m v q : Nat) : Statement (.hostQueueWrite m v q) := fun h => nomatch h

theorem Encoding.traceSample (m d r : Nat) : Statement (.traceSample m d r) := fun h => nomatch h

theorem Encoding.traceFlush (m d : Nat) : Statement (.traceFlush m d) := fun h => nomatch h

theorem Encoding.powerEvent (m d temp watts : Nat) : Statement (.powerEvent m d temp watts) := fun h => nomatch h

theorem Encoding.captureEnd (m d : Nat) : Statement (.captureEnd m d) := fun h => nomatch h

theorem Encoding.energyMeter (m d c r nj : Nat) : Statement (.energyMeter m d c r nj) := fun h => nomatch h

theorem Encoding.powerLimitStep (m d up : Nat) : Statement (.powerLimitStep m d up) := fun h => nomatch h

theorem Encoding.thermalThrottle (m d on : Nat) : Statement (.thermalThrottle m d on) := fun h => nomatch h

theorem Encoding.thermalTrip (m d : Nat) : Statement (.thermalTrip m d) := fun h => nomatch h

theorem Encoding.scrub (m : Nat) : Statement (.scrub m) := fun h => nomatch h

theorem Encoding.uncorrectableError (m d c unit pa who : Nat) : Statement (.uncorrectableError m d c unit pa who) := fun h => nomatch h

theorem Encoding.reset (m stop fail : Nat) : Statement (.reset m stop fail) := fun h => nomatch h

theorem Encoding.attestationRequest (m nonce : Nat) : Statement (.attestationRequest m nonce) := fun h => nomatch h

theorem Encoding.joinDecrement (n : Nat) : Statement (.joinDecrement n) := fun h => nomatch h

theorem Encoding.tlbiDone (n : Nat) : Statement (.tlbiDone n) := fun h => nomatch h

theorem Encoding.mldaccLine (n : Nat) : Statement (.mldaccLine n) := fun h => nomatch h

theorem Encoding.injectionRelease (n : Nat) : Statement (.injectionRelease n) := fun h => nomatch h

theorem Encoding.portReset (ep p : Nat) : Statement (.portReset ep p) := fun h => nomatch h

theorem Encoding.hostInterfaceTakeover (m : Nat) : Statement (.hostInterfaceTakeover m) := fun h => nomatch h

end Sys2Proof.Laws
end

