-- ==== Sys2Proof/Tests/Slice0.lean ====
section
/-! SUPPORT. Sys2Proof/Tests/Slice0.lean: the checks of well-formedness, words written out from the spec's encodings, single steps, and for each
statement of the Obligations file states and operands that meet its hypotheses. Expected values come from the spec's rules, by hand. -/

open Sys2Proof Sys2Proof.Machine

-- One theorem after another: together they would want more memory than a machine has.
set_option Elab.async false

namespace Sys2Proof.Tests

/-- Module 0 brought up, one ready thread of class 3 at level S of the root region, at address 0x100000. -/
def demo : State := (State.reset.hosted 0).upd fun a => { a with level := 1 }
/-- The firmware of the Keywright of F0 on module 0, at level K. -/
def firmware : State := State.reset.hosted 8
/-- Registers written. -/
def withX (s : State) (l : List (Nat × Word)) : State := l.foldl (fun s p => s.setX (BitVec.ofNat 5 p.1) p.2) s
/-- Doublewords written in memory. -/
def withM (s : State) (l : List (Nat × Nat)) : State := l.foldl (fun s p => s.poke 0 p.1 (natBytes 8 p.2)) s
/-- A header of one halfword without a wait marker. -/
def h1 : Hdr := ⟨false, 1⟩
/-- A B field with one IMM word. -/
def im (n : Nat) : RegImm := .imm ⟨[BitVec.ofNat 8 (n / 32)], BitVec.ofNat 5 n⟩
/-- An immediate of one IMM word. -/
def img (n : Nat) : Imm := ⟨[BitVec.ofNat 8 (n / 32)], BitVec.ofNat 5 n⟩
/-- The state after an instruction. -/
def after (i : Instr) (s : State) : State := match exec i s with | .next t => t | _ => s
/-- A later time. -/
def later (s : State) (ns : Nat) : State := { s with now := s.now + ns }
/-- A later cycle of core 0. -/
def ticked (s : State) (n : Nat) : State := s.addCycles ⟨0, 0, 0⟩ n

/-! ### The checks of `Instr.wf`: an ill-formed term for each, and a well-formed one beside it -/

/-- A header of two halfwords. -/
def h2 : Hdr := ⟨false, 2⟩
/-- A header of three halfwords. -/
def h3 : Hdr := ⟨false, 3⟩
/-- A MASK payload. -/
def mk (spec zero : Bool) (p : Reg4) : Option Mask := some ⟨spec, zero, false, p⟩

theorem test_wf_accepts : ∀ i ∈ [Instr.add h1 ⟨1, .reg 2, none⟩, .add h2 ⟨1, .reg 2, none⟩, .mul ⟨true, 3⟩ ⟨1, im 64, some ⟨0, 4⟩⟩,
    .vadd h3 ⟨1, .reg 2, none, mk false true 11⟩, .vfadd h3 ⟨1, .reg 2, none, mk true false 15⟩, .kld h2 ⟨15, .reg 4, none, none⟩,
    .cpykGet h3 ⟨1, 2, ⟨0, 29⟩⟩, .hset h3 ⟨.reg 4, some ⟨0, 5⟩⟩], i.wf = true := by decide

theorem test_wf_refuses_a_wrong_length : ∀ i ∈ [Instr.add ⟨false, 0⟩ ⟨1, .reg 2, none⟩, .add h3 ⟨1, .reg 2, none⟩, .mulh h1 ⟨1, .reg 2, none⟩,
    .mulh h3 ⟨1, .reg 2, none⟩, .add ⟨false, 6⟩ ⟨1, im 1, some ⟨0, 5⟩⟩, .mulh h2 ⟨1, im 1, none⟩, .hret h1, .rett h3, .vperm h2 ⟨1, .reg 2, some ⟨0, 3⟩, none⟩],
    i.wf = false := by decide

theorem test_wf_refuses_too_few_or_too_many_immediate_words : ∀ i ∈ [Instr.add h1 ⟨1, .imm ⟨[], 3⟩, none⟩,
    .add ⟨false, 5⟩ ⟨1, .imm ⟨[0, 0, 0, 0], 3⟩, none⟩, .li ⟨false, 6⟩ ⟨1, ⟨[0, 0, 0, 0, 0], 1⟩⟩, .la h1 ⟨1, ⟨[], 1⟩⟩, .beq h1 ⟨1, 2, []⟩, .jal h1 ⟨1, []⟩,
    .cpy ⟨false, 6⟩ ⟨1, .imm ⟨[0, 0, 0], 1⟩, ⟨0, 2⟩⟩, .hclr ⟨false, 4⟩ ⟨.imm ⟨[0, 0], 1⟩, none⟩, .pstateSet ⟨false, 4⟩ ⟨1, .imm ⟨[0, 0], 1⟩⟩,
    .mclr ⟨false, 4⟩ ⟨1, ⟨[0, 0], 1⟩⟩, .vcmp ⟨false, 5⟩ ⟨1, ⟨[0, 0], 1⟩, ⟨0, 1⟩, none⟩, .sattr ⟨false, 6⟩ ⟨0, ⟨[0, 0, 0, 0], 1⟩⟩], i.wf = false := by decide

theorem test_wf_refuses_an_immediate_out_of_its_range : ∀ i ∈ [Instr.sll h2 ⟨1, im 64, none⟩, .sra h2 ⟨1, .imm ⟨[0xFF], 31⟩, none⟩,
    .rotl h3 ⟨1, im 64, none⟩, .vsll h3 ⟨1, im 32, none, none⟩, .vsra ⟨false, 4⟩ ⟨1, im 8, some ⟨2, 0⟩, none⟩, .lhi ⟨false, 5⟩ ⟨1, ⟨[0x08, 0, 0, 0], 0⟩⟩,
    .cpy ⟨false, 4⟩ ⟨1, .imm ⟨[0xFF], 31⟩, ⟨0, 2⟩⟩, .rdtime h2 ⟨1, ⟨[], 2⟩⟩, .sqfree h2 ⟨1, ⟨[], 2⟩⟩, .sattr h2 ⟨0, ⟨[], 31⟩⟩, .hclr h3 ⟨im 256, none⟩,
    .brk ⟨false, 6⟩ ⟨⟨[0, 0, 0, 0, 0], 0⟩⟩], i.wf = false := by decide

theorem test_wf_refuses_a_reserved_extension : ∀ i ∈ [Instr.add h2 ⟨1, .reg 2, some ⟨1, 3⟩⟩, .ld h2 ⟨1, .reg 2, some ⟨7, 0⟩, none⟩,
    .st h2 ⟨1, .reg 2, some ⟨4, 0⟩, none⟩, .fence h2 ⟨1, some ⟨6, 0⟩⟩, .fence h2 ⟨1, some ⟨0, 1⟩⟩, .fence h1 ⟨0, none⟩, .fsqrt h3 ⟨1, 2, some ⟨3, 4⟩⟩,
    .knarrow h3 ⟨1, 2, ⟨1, 3⟩⟩, .knarrow h3 ⟨1, 2, ⟨0, 31⟩⟩, .cpy h3 ⟨1, .reg 2, ⟨0, 31⟩⟩, .cpykGet h3 ⟨1, 2, ⟨0, 30⟩⟩, .kinfo h3 ⟨1, 2, some ⟨4, 0⟩⟩,
    .cflush h3 ⟨1, ⟨6, 2⟩⟩, .rld h3 ⟨1, 2, ⟨7, 3⟩, none⟩, .spawn h3 ⟨6, 1, ⟨0, 2⟩⟩], i.wf = false := by decide

theorem test_wf_refuses_a_width_the_opcode_lacks : ∀ i ∈ [Instr.amoadd h3 ⟨1, 2, ⟨1, 3⟩⟩, .fadd h3 ⟨1, 2, some ⟨4, 3⟩⟩, .vadd h3 ⟨1, .reg 2, some ⟨4, 3⟩, none⟩,
    .vfadd h3 ⟨1, .reg 2, some ⟨2, 3⟩, none⟩, .vsel h3 ⟨1, .reg 2, some ⟨7, 3⟩, none⟩, .fcvt h3 ⟨1, 2, 0, 0, none⟩, .fcvt h3 ⟨1, 2, 7, 8, none⟩,
    .vcvt h3 ⟨1, 2, 5, 6, none⟩, .vcvt h3 ⟨31, 2, 0, 5, none⟩, .vcvt h3 ⟨1, 31, 5, 0, none⟩, .vcvtef h3 ⟨1, 2, 1, 0, none⟩], i.wf = false := by decide

theorem test_wf_refuses_a_mask : ∀ i ∈ [Instr.vadd h3 ⟨1, .reg 2, none, mk false false 12⟩, .vadd h3 ⟨1, .reg 2, none, mk false false 14⟩,
    .vadd h3 ⟨1, .reg 2, none, mk true false 1⟩, .vfadd h3 ⟨1, .reg 2, none, mk true true 1⟩, .vredsum h3 ⟨1, 2, none, mk false true 1⟩,
    .ld h2 ⟨1, .reg 2, none, mk false false 1⟩, .jalr h2 ⟨1, .reg 2, none, mk false false 1⟩, .fcvt ⟨false, 4⟩ ⟨1, 2, 0, 1, mk false false 1⟩,
    .rst ⟨false, 4⟩ ⟨1, 2, ⟨0, 3⟩, mk false false 1⟩, .vsel h3 ⟨1, .reg 2, none, mk true false 1⟩], i.wf = false := by decide

theorem test_wf_refuses_a_register_or_selector : ∀ i ∈ [Instr.kld h2 ⟨16, .reg 4, none, none⟩, .sfault h2 ⟨0, 5⟩, .sfault h2 ⟨29, 5⟩, .sattr h2 ⟨1, ⟨[], 3⟩⟩,
    .sendR h3 ⟨1, 15, ⟨1, 3⟩⟩, .send h3 ⟨1, 2, ⟨1, 3⟩⟩, .ramoCas h3 ⟨31, 2, ⟨2, 3⟩, none⟩, .ramoAddn h3 ⟨31, 2, ⟨6, 3⟩, none⟩, .ramoAdd h3 ⟨1, 2, ⟨1, 3⟩, none⟩,
    .cpypToScratch h3 ⟨1, .reg 2, ⟨1, 3⟩⟩, .cpypFromScratch h3 ⟨1, .reg 2, ⟨0, 3⟩⟩, .plog h3 ⟨12, 1, 2, 0⟩, .pcnt h2 ⟨1, 12, none⟩, .vfault h2 ⟨12⟩],
    i.wf = false := by decide

theorem test_wf_refuses_a_field : ∀ i ∈ [Instr.vcmp h3 ⟨12, ⟨[], 1⟩, ⟨0, 1⟩, none⟩, .vcmp ⟨false, 4⟩ ⟨1, img (32 * 6), ⟨0, 1⟩, none⟩,
    .vcmp ⟨false, 4⟩ ⟨1, img 0x200, ⟨0, 1⟩, none⟩, .vfcmp ⟨false, 4⟩ ⟨1, img (32 * 8), ⟨0, 1⟩, none⟩, .vid h2 ⟨1, .reg 1, none, none⟩, .mclr h2 ⟨1, ⟨[], 2⟩⟩,
    .mma ⟨false, 4⟩ ⟨1, img 0x200, ⟨0, 2⟩⟩, .mma h3 ⟨1, ⟨[], 0⟩, ⟨0, 31⟩⟩, .mldacc h3 ⟨1, ⟨[], 4⟩, ⟨0, 2⟩⟩, .mdrn ⟨false, 4⟩ ⟨1, img 0x40, ⟨0, 2⟩⟩,
    .mdrn h3 ⟨1, ⟨[], 2⟩, ⟨0, 2⟩⟩, .mdrnx ⟨false, 4⟩ ⟨1, img (64 * 12), ⟨0, 2⟩⟩, .mstclr h2 ⟨1, ⟨[], 0⟩⟩, .mstat h2 ⟨1, ⟨[], 4⟩⟩], i.wf = false := by decide

theorem test_wf_refuses_a_form_of_another_row : ∀ i ∈ [Instr.vfma h2 ⟨1, .reg 2, none, none⟩, .vfadd h3 ⟨1, im 1, none, none⟩, .vperm h3 ⟨1, im 1, none, none⟩,
    .hset h2 ⟨.reg 4, none⟩, .hclr h3 ⟨.reg 4, some ⟨0, 5⟩⟩, .mfcr h2 ⟨1, img 0x07⟩, .mfcr h1 ⟨1, ⟨[], 0⟩⟩, .mfcrStream h1 ⟨1, ⟨[], 1⟩⟩, .mtcr h1 ⟨1, ⟨[], 4⟩⟩,
    .mtcrVl h1 ⟨1, ⟨[], 1⟩⟩, .mfpr h3 ⟨1, ⟨[0x80], 0⟩⟩, .mtpr h3 ⟨1, img 0x180⟩, .mtprMchkClear h3 ⟨1, img 0x104⟩, .mfpr ⟨false, 4⟩ ⟨1, ⟨[1, 0x80], 0⟩⟩,
    .udf ⟨false, 1, 0, [], none, none, 29, 0, 0⟩, .udf ⟨false, 6, 0, [], none, none, 30, 0, 0⟩], i.wf = false := by decide

theorem test_wf_refuses_events : ∀ i ∈ [Instr.fenceComplete 1, .copyUnit 1, .hostInterfaceTakeover 0, .eventBoundary 1, .reset 0 0 0], i.wf = false := by decide
/-! ### A word for every row, from the fields of spec/03 R68 to R72 and the opcode map of R83 to R85 -/

/-- The decoder reads these halfwords as this instruction. -/
def reads (hs : List Half) (i : Instr) : Bool :=
  match decodeHalves hs with | .ok j => decide (j = i) | .error _ => false

/-- Words of the scalar page 0. -/
theorem test_decode_page0_a : ([
    ([0x7D07, 0x00C5], .add ⟨false, 2⟩ ⟨5, .reg 6, some ⟨0, 7⟩⟩), ([0x7D07, 0x04C5], .sub ⟨false, 2⟩ ⟨5, .reg 6, some ⟨0, 7⟩⟩),
    ([0x7D07, 0x08C5], .and ⟨false, 2⟩ ⟨5, .reg 6, some ⟨0, 7⟩⟩), ([0x7D07, 0x0CC5], .or ⟨false, 2⟩ ⟨5, .reg 6, some ⟨0, 7⟩⟩),
    ([0x7D07, 0x10C5], .xor ⟨false, 2⟩ ⟨5, .reg 6, some ⟨0, 7⟩⟩), ([0x7D07, 0x14C5], .sll ⟨false, 2⟩ ⟨5, .reg 6, some ⟨0, 7⟩⟩),
    ([0x7D07, 0x18C5], .srl ⟨false, 2⟩ ⟨5, .reg 6, some ⟨0, 7⟩⟩), ([0x7D07, 0x1CC5], .sra ⟨false, 2⟩ ⟨5, .reg 6, some ⟨0, 7⟩⟩),
    ([0x7D07, 0x20C5], .slt ⟨false, 2⟩ ⟨5, .reg 6, some ⟨0, 7⟩⟩), ([0x7D07, 0x24C5], .sltu ⟨false, 2⟩ ⟨5, .reg 6, some ⟨0, 7⟩⟩),
    ([0x28C5], .li ⟨false, 1⟩ ⟨5, ⟨[], 6⟩⟩), ([0x7C09, 0x2CC5], .lhi ⟨false, 2⟩ ⟨5, ⟨[9], 6⟩⟩),
    ([0x7D67, 0x30C5], .ld ⟨false, 2⟩ ⟨5, .reg 6, some ⟨3, 7⟩, none⟩), ([0x7C09, 0x34C5], .st ⟨false, 2⟩ ⟨5, .imm ⟨[9], 6⟩, none, none⟩),
    ([0x7C09, 0x38C5], .beq ⟨false, 2⟩ ⟨5, 6, [9]⟩), ([0x7C09, 0x3CC5], .bne ⟨false, 2⟩ ⟨5, 6, [9]⟩), ([0x7C09, 0x40C5], .blt ⟨false, 2⟩ ⟨5, 6, [9]⟩),
    ([0x7C09, 0x44C5], .bge ⟨false, 2⟩ ⟨5, 6, [9]⟩), ([0x7C09, 0x48C5], .bltu ⟨false, 2⟩ ⟨5, 6, [9]⟩)] : List (List Half × Instr)).all
    (fun p => reads p.1 p.2) = true := by decide +kernel

/-- Words of the scalar page 0. -/
theorem test_decode_page0_b : ([
    ([0x7C09, 0x4CC5], .bgeu ⟨false, 2⟩ ⟨5, 6, [9]⟩), ([0x7C09, 0x5005], .jal ⟨false, 2⟩ ⟨5, [9]⟩),
    ([0x54C5], .jalr ⟨false, 1⟩ ⟨5, .reg 6, none, none⟩), ([0x7DA0, 0x5803], .fence ⟨false, 2⟩ ⟨3, some ⟨5, 0⟩⟩),
    ([0x7D07, 0x5CC5], .mul ⟨false, 2⟩ ⟨5, .reg 6, some ⟨0, 7⟩⟩), ([0x60C5], .addq ⟨false, 1⟩ ⟨5, ⟨[], 6⟩⟩),
    ([0x7C09, 0x64C5], .la ⟨false, 2⟩ ⟨5, ⟨[9], 6⟩⟩), ([0x6825], .mfcr ⟨false, 1⟩ ⟨5, ⟨[], 1⟩⟩), ([0x6865], .mfcrStream ⟨false, 1⟩ ⟨5, ⟨[], 3⟩⟩),
    ([0x7C01, 0x6E05], .mtcr ⟨false, 2⟩ ⟨5, ⟨[1], 16⟩⟩), ([0x6C05], .mtcrVl ⟨false, 1⟩ ⟨5, ⟨[], 0⟩⟩), ([0x6CA5], .mtcrEfc ⟨false, 1⟩ ⟨5, ⟨[], 5⟩⟩),
    ([0x6CC5], .mtcrFpcsr ⟨false, 1⟩ ⟨5, ⟨[], 6⟩⟩), ([0x6C85], .mtcrSlip ⟨false, 1⟩ ⟨5, ⟨[], 4⟩⟩),
    ([0x7C00, 0x6E05], .mtcrSattr ⟨false, 2⟩ ⟨5, ⟨[0], 16⟩⟩), ([0x7C02, 0x6E05], .mtcrGangto ⟨false, 2⟩ ⟨5, ⟨[2], 16⟩⟩),
    ([0x70C0], .brk ⟨false, 1⟩ ⟨⟨[], 6⟩⟩), ([0x7C09, 0x74C0], .ecall ⟨false, 2⟩ ⟨⟨[9], 6⟩⟩)] : List (List Half × Instr)).all
    (fun p => reads p.1 p.2) = true := by decide +kernel

/-- Words of the scalar page 1. -/
theorem test_decode_page1_a : ([
    ([0x7E01, 0x7D07, 0x00C5], .mulh ⟨false, 3⟩ ⟨5, .reg 6, some ⟨0, 7⟩⟩), ([0x7E01, 0x7D07, 0x04C5], .mulhu ⟨false, 3⟩ ⟨5, .reg 6, some ⟨0, 7⟩⟩),
    ([0x7E01, 0x7D07, 0x08C5], .div ⟨false, 3⟩ ⟨5, .reg 6, some ⟨0, 7⟩⟩), ([0x7E01, 0x7D07, 0x0CC5], .divu ⟨false, 3⟩ ⟨5, .reg 6, some ⟨0, 7⟩⟩),
    ([0x7E01, 0x7D07, 0x10C5], .rem ⟨false, 3⟩ ⟨5, .reg 6, some ⟨0, 7⟩⟩), ([0x7E01, 0x7D07, 0x14C5], .remu ⟨false, 3⟩ ⟨5, .reg 6, some ⟨0, 7⟩⟩),
    ([0x7E01, 0x18C5], .clz ⟨false, 2⟩ ⟨5, 6⟩), ([0x7E01, 0x1CC5], .ctz ⟨false, 2⟩ ⟨5, 6⟩), ([0x7E01, 0x20C5], .popc ⟨false, 2⟩ ⟨5, 6⟩),
    ([0x7E01, 0x7D07, 0x24C5], .rotl ⟨false, 3⟩ ⟨5, .reg 6, some ⟨0, 7⟩⟩), ([0x7E01, 0x7D07, 0x28C5], .bext ⟨false, 3⟩ ⟨5, .reg 6, some ⟨0, 7⟩⟩),
    ([0x7E01, 0x7D07, 0x2CC5], .bdep ⟨false, 3⟩ ⟨5, .reg 6, some ⟨0, 7⟩⟩), ([0x7E01, 0x7D07, 0x30C5], .min ⟨false, 3⟩ ⟨5, .reg 6, some ⟨0, 7⟩⟩),
    ([0x7E01, 0x7D07, 0x34C5], .max ⟨false, 3⟩ ⟨5, .reg 6, some ⟨0, 7⟩⟩), ([0x7E01, 0x7D07, 0x38C5], .minu ⟨false, 3⟩ ⟨5, .reg 6, some ⟨0, 7⟩⟩),
    ([0x7E01, 0x7D07, 0x3CC5], .maxu ⟨false, 3⟩ ⟨5, .reg 6, some ⟨0, 7⟩⟩)] : List (List Half × Instr)).all
    (fun p => reads p.1 p.2) = true := by decide +kernel

/-- Words of the scalar page 1. -/
theorem test_decode_page1_b : ([
    ([0x7E01, 0x7D67, 0x40C5], .amoadd ⟨false, 3⟩ ⟨5, 6, ⟨3, 7⟩⟩), ([0x7E01, 0x7D67, 0x44C5], .amoswap ⟨false, 3⟩ ⟨5, 6, ⟨3, 7⟩⟩),
    ([0x7E01, 0x7D67, 0x48C5], .amocas ⟨false, 3⟩ ⟨5, 6, ⟨3, 7⟩⟩), ([0x7E01, 0x7D67, 0x4CC5], .amomax ⟨false, 3⟩ ⟨5, 6, ⟨3, 7⟩⟩),
    ([0x7E01, 0x7D67, 0x50C5], .amoor ⟨false, 3⟩ ⟨5, 6, ⟨3, 7⟩⟩), ([0x7E01, 0x7D67, 0x54C5], .amoand ⟨false, 3⟩ ⟨5, 6, ⟨3, 7⟩⟩),
    ([0x7E01, 0x7D67, 0x58C5], .fadd ⟨false, 3⟩ ⟨5, 6, some ⟨3, 7⟩⟩), ([0x7E01, 0x7D67, 0x5CC5], .fsub ⟨false, 3⟩ ⟨5, 6, some ⟨3, 7⟩⟩),
    ([0x7E01, 0x7D67, 0x60C5], .fmul ⟨false, 3⟩ ⟨5, 6, some ⟨3, 7⟩⟩), ([0x7E01, 0x7D67, 0x64C5], .fdiv ⟨false, 3⟩ ⟨5, 6, some ⟨3, 7⟩⟩),
    ([0x7E01, 0x7D67, 0x68C5], .fmadd ⟨false, 3⟩ ⟨5, 6, some ⟨3, 7⟩⟩), ([0x7E01, 0x7D67, 0x6CC5], .fcmp ⟨false, 3⟩ ⟨5, 6, some ⟨3, 7⟩⟩),
    ([0x7E01, 0x7D0A, 0x70C5], .fcvt ⟨false, 3⟩ ⟨5, 6, 0, 10, none⟩), ([0x7E01, 0x7D60, 0x74C5], .fsqrt ⟨false, 3⟩ ⟨5, 6, some ⟨3, 0⟩⟩),
    ([0x7E01, 0x7825], .rdtime ⟨false, 2⟩ ⟨5, ⟨[], 1⟩⟩)] : List (List Half × Instr)).all
    (fun p => reads p.1 p.2) = true := by decide +kernel

/-- Words of the vector page 2. -/
theorem test_decode_page2_a : ([
    ([0x7E02, 0x7D27, 0x00C5], .vadd ⟨false, 3⟩ ⟨5, .reg 6, some ⟨1, 7⟩, none⟩),
    ([0x7E02, 0x7D27, 0x04C5], .vsub ⟨false, 3⟩ ⟨5, .reg 6, some ⟨1, 7⟩, none⟩),
    ([0x7E02, 0x7D27, 0x08C5], .vmul ⟨false, 3⟩ ⟨5, .reg 6, some ⟨1, 7⟩, none⟩),
    ([0x7E02, 0x7D27, 0x0CC5], .vmulh ⟨false, 3⟩ ⟨5, .reg 6, some ⟨1, 7⟩, none⟩),
    ([0x7E02, 0x7D27, 0x10C5], .vand ⟨false, 3⟩ ⟨5, .reg 6, some ⟨1, 7⟩, none⟩),
    ([0x7E02, 0x7D27, 0x14C5], .vor ⟨false, 3⟩ ⟨5, .reg 6, some ⟨1, 7⟩, none⟩),
    ([0x7E02, 0x7D27, 0x18C5], .vxor ⟨false, 3⟩ ⟨5, .reg 6, some ⟨1, 7⟩, none⟩),
    ([0x7E02, 0x7D27, 0x1CC5], .vsll ⟨false, 3⟩ ⟨5, .reg 6, some ⟨1, 7⟩, none⟩),
    ([0x7E02, 0x7D27, 0x20C5], .vsrl ⟨false, 3⟩ ⟨5, .reg 6, some ⟨1, 7⟩, none⟩),
    ([0x7E02, 0x7D27, 0x24C5], .vsra ⟨false, 3⟩ ⟨5, .reg 6, some ⟨1, 7⟩, none⟩),
    ([0x7E02, 0x7D27, 0x28C5], .vmin ⟨false, 3⟩ ⟨5, .reg 6, some ⟨1, 7⟩, none⟩),
    ([0x7E02, 0x7D27, 0x2CC5], .vmax ⟨false, 3⟩ ⟨5, .reg 6, some ⟨1, 7⟩, none⟩),
    ([0x7E02, 0x7D27, 0x30C5], .vminu ⟨false, 3⟩ ⟨5, .reg 6, some ⟨1, 7⟩, none⟩),
    ([0x7E02, 0x7D27, 0x34C5], .vmaxu ⟨false, 3⟩ ⟨5, .reg 6, some ⟨1, 7⟩, none⟩),
    ([0x7E02, 0x7D27, 0x38C5], .vaddsat ⟨false, 3⟩ ⟨5, .reg 6, some ⟨1, 7⟩, none⟩),
    ([0x7E02, 0x7D87, 0x7F42, 0x3CC5], .vfadd ⟨false, 4⟩ ⟨5, .reg 6, some ⟨4, 7⟩, some ⟨true, false, false, 2⟩⟩)] : List (List Half × Instr)).all
    (fun p => reads p.1 p.2) = true := by decide +kernel

/-- Words of the vector page 2. -/
theorem test_decode_page2_b : ([
    ([0x7E02, 0x7D87, 0x7F42, 0x40C5], .vfsub ⟨false, 4⟩ ⟨5, .reg 6, some ⟨4, 7⟩, some ⟨true, false, false, 2⟩⟩),
    ([0x7E02, 0x7D87, 0x7F42, 0x44C5], .vfmul ⟨false, 4⟩ ⟨5, .reg 6, some ⟨4, 7⟩, some ⟨true, false, false, 2⟩⟩),
    ([0x7E02, 0x7D87, 0x7F42, 0x48C5], .vfdiv ⟨false, 4⟩ ⟨5, .reg 6, some ⟨4, 7⟩, some ⟨true, false, false, 2⟩⟩),
    ([0x7E02, 0x7D87, 0x7F42, 0x4CC5], .vfma ⟨false, 4⟩ ⟨5, .reg 6, some ⟨4, 7⟩, some ⟨true, false, false, 2⟩⟩),
    ([0x7E02, 0x7D87, 0x7F42, 0x50C5], .vfmin ⟨false, 4⟩ ⟨5, .reg 6, some ⟨4, 7⟩, some ⟨true, false, false, 2⟩⟩),
    ([0x7E02, 0x7D87, 0x7F42, 0x54C5], .vfmax ⟨false, 4⟩ ⟨5, .reg 6, some ⟨4, 7⟩, some ⟨true, false, false, 2⟩⟩),
    ([0x7E02, 0x7D80, 0x58C5], .vfsqrt ⟨false, 3⟩ ⟨5, 6, some ⟨4, 0⟩, none⟩),
    ([0x7E02, 0x7D80, 0x5CC5], .vfexp2 ⟨false, 3⟩ ⟨5, 6, some ⟨4, 0⟩, none⟩),
    ([0x7E02, 0x7C02, 0x7D07, 0x6102], .vcmp ⟨false, 4⟩ ⟨2, ⟨[2], 8⟩, ⟨0, 7⟩, none⟩),
    ([0x7E02, 0x7C02, 0x7D07, 0x6502], .vfcmp ⟨false, 4⟩ ⟨2, ⟨[2], 8⟩, ⟨0, 7⟩, none⟩),
    ([0x7E02, 0x7D07, 0x7F12, 0x68C5], .vsel ⟨false, 4⟩ ⟨5, .reg 6, some ⟨0, 7⟩, some ⟨false, false, true, 2⟩⟩),
    ([0x7E02, 0x7D60, 0x6CC5], .vbcast ⟨false, 3⟩ ⟨5, .reg 6, some ⟨3, 0⟩, none⟩), ([0x7E02, 0x7005], .vid ⟨false, 2⟩ ⟨5, .reg 0, none, none⟩),
    ([0x7E02, 0x74C5], .vmerge ⟨false, 2⟩ ⟨5, 6, none, none⟩), ([0x7E02, 0x78C5], .vclass ⟨false, 2⟩ ⟨5, 6, none, none⟩)] : List (List Half × Instr)).all
    (fun p => reads p.1 p.2) = true := by decide +kernel

/-- Words of the vector page 3. -/
theorem test_decode_page3_a : ([
    ([0x7E03, 0x7D67, 0x00C5], .vld ⟨false, 3⟩ ⟨5, .reg 6, some ⟨3, 7⟩, none⟩),
    ([0x7E03, 0x7D67, 0x0CC5], .vst ⟨false, 3⟩ ⟨5, .reg 6, some ⟨3, 7⟩, none⟩),
    ([0x7E03, 0x7D67, 0x18C5], .vlsp ⟨false, 3⟩ ⟨5, .reg 6, some ⟨3, 7⟩, none⟩),
    ([0x7E03, 0x7D67, 0x20C5], .vssp ⟨false, 3⟩ ⟨5, .reg 6, some ⟨3, 7⟩, none⟩),
    ([0x7E03, 0x7D67, 0x28C5], .vlspc ⟨false, 3⟩ ⟨5, .reg 6, some ⟨3, 7⟩, none⟩),
    ([0x7E03, 0x7D67, 0x2CC5], .vldc ⟨false, 3⟩ ⟨5, .reg 6, some ⟨3, 7⟩, none⟩), ([0x7E03, 0x7D67, 0x04C5], .vlds ⟨false, 3⟩ ⟨5, 6, ⟨3, 7⟩, none⟩),
    ([0x7E03, 0x7D67, 0x10C5], .vsts ⟨false, 3⟩ ⟨5, 6, ⟨3, 7⟩, none⟩), ([0x7E03, 0x7D67, 0x30C5], .vstc ⟨false, 3⟩ ⟨5, 6, ⟨3, 7⟩, none⟩),
    ([0x7E03, 0x7D67, 0x08C5], .vldx ⟨false, 3⟩ ⟨5, 6, ⟨3, 7⟩, none⟩), ([0x7E03, 0x7D67, 0x14C5], .vstx ⟨false, 3⟩ ⟨5, 6, ⟨3, 7⟩, none⟩),
    ([0x7E03, 0x7D67, 0x1CC5], .vlspx ⟨false, 3⟩ ⟨5, 6, ⟨3, 7⟩, none⟩), ([0x7E03, 0x7D67, 0x24C5], .vsspx ⟨false, 3⟩ ⟨5, 6, ⟨3, 7⟩, none⟩),
    ([0x7E03, 0x7D67, 0x34C5], .vperm ⟨false, 3⟩ ⟨5, .reg 6, some ⟨3, 7⟩, none⟩),
    ([0x7E03, 0x7C09, 0x7D67, 0x38C5], .vslide ⟨false, 4⟩ ⟨5, .imm ⟨[9], 6⟩, ⟨3, 7⟩, none⟩),
    ([0x7E03, 0x3CC5], .vredsum ⟨false, 2⟩ ⟨5, 6, none, none⟩)] : List (List Half × Instr)).all
    (fun p => reads p.1 p.2) = true := by decide +kernel

/-- Words of the vector page 3. -/
theorem test_decode_page3_b : ([
    ([0x7E03, 0x40C5], .vredmax ⟨false, 2⟩ ⟨5, 6, none, none⟩), ([0x7E03, 0x44C5], .vredmin ⟨false, 2⟩ ⟨5, 6, none, none⟩),
    ([0x7E03, 0x48C5], .vfredsum ⟨false, 2⟩ ⟨5, 6, none, none⟩), ([0x7E03, 0x4CC5], .vscan ⟨false, 2⟩ ⟨5, 6, none, none⟩),
    ([0x7E03, 0x50C5], .vcompress ⟨false, 2⟩ ⟨5, 6, none, none⟩), ([0x7E03, 0x54C5], .vappend ⟨false, 2⟩ ⟨5, 6, none, none⟩),
    ([0x7E03, 0x7D01, 0x58C5], .vcvt ⟨false, 3⟩ ⟨5, 6, 0, 1, none⟩), ([0x7E03, 0x7D03, 0x5CC5], .vcvtef ⟨false, 3⟩ ⟨5, 6, 0, 3, none⟩),
    ([0x7E03, 0x7D67, 0x60C5], .plog ⟨false, 3⟩ ⟨5, 6, 7, 3⟩), ([0x7E03, 0x7F13, 0x64C5], .pcnt ⟨false, 3⟩ ⟨5, 6, some ⟨false, false, true, 3⟩⟩),
    ([0x7E03, 0x7F13, 0x68C5], .pfirst ⟨false, 3⟩ ⟨5, 6, some ⟨false, false, true, 3⟩⟩),
    ([0x7E03, 0x7D40, 0x6CC5], .setvl ⟨false, 3⟩ ⟨5, .reg 6, some ⟨2, 0⟩⟩), ([0x7E03, 0x7D67, 0x70C5], .vmvx ⟨false, 3⟩ ⟨5, .reg 6, ⟨3, 7⟩, none⟩),
    ([0x7E03, 0x74C5], .vmvv ⟨false, 2⟩ ⟨5, 6, none, none⟩), ([0x7E03, 0x7805], .vfault ⟨false, 2⟩ ⟨5⟩)] : List (List Half × Instr)).all
    (fun p => reads p.1 p.2) = true := by decide +kernel

/-- Words of the matrix page. -/
theorem test_decode_page4_a : ([
    ([0x7E04, 0x00C0], .mcfg ⟨false, 2⟩ ⟨6⟩), ([0x7E04, 0x04C0], .mscl ⟨false, 2⟩ ⟨6⟩), ([0x7E04, 0x08C0], .mgrp ⟨false, 2⟩ ⟨6⟩),
    ([0x7E04, 0x0C25], .mclr ⟨false, 2⟩ ⟨5, ⟨[], 1⟩⟩), ([0x7E04, 0x2025], .mstat ⟨false, 2⟩ ⟨5, ⟨[], 1⟩⟩)] : List (List Half × Instr)).all
    (fun p => reads p.1 p.2) = true := by decide +kernel

/-- Words of the matrix page. -/
theorem test_decode_page4_b : ([
    ([0x7E04, 0x2420], .mstclr ⟨false, 2⟩ ⟨0, ⟨[], 1⟩⟩), ([0x7E04, 0x7D07, 0x10C5], .mma ⟨false, 3⟩ ⟨5, ⟨[], 6⟩, ⟨0, 7⟩⟩),
    ([0x7E04, 0x7D07, 0x1465], .mldacc ⟨false, 3⟩ ⟨5, ⟨[], 3⟩, ⟨0, 7⟩⟩), ([0x7E04, 0x7C01, 0x7D07, 0x1B85], .mdrn ⟨false, 4⟩ ⟨5, ⟨[1], 28⟩, ⟨0, 7⟩⟩),
    ([0x7E04, 0x7C04, 0x7D07, 0x1C85], .mdrnx ⟨false, 4⟩ ⟨5, ⟨[4], 4⟩, ⟨0, 7⟩⟩)] : List (List Half × Instr)).all
    (fun p => reads p.1 p.2) = true := by decide +kernel

/-- Words of the satellite page. -/
theorem test_decode_page5_a : ([
    ([0x7E05, 0x7D07, 0x00C5], .cpy ⟨false, 3⟩ ⟨5, .reg 6, ⟨0, 7⟩⟩), ([0x7E05, 0x7D07, 0x04C5], .cpy2 ⟨false, 3⟩ ⟨5, .reg 6, ⟨0, 7⟩⟩),
    ([0x7E05, 0x7D07, 0x0CC5], .cpypToScratch ⟨false, 3⟩ ⟨5, .reg 6, ⟨0, 7⟩⟩), ([0x7E05, 0x7D07, 0x10C5], .coll ⟨false, 3⟩ ⟨5, .reg 6, ⟨0, 7⟩⟩),
    ([0x7E05, 0x7D07, 0x40C5], .cdrain ⟨false, 3⟩ ⟨5, .reg 6, ⟨0, 7⟩⟩), ([0x7E05, 0x7D27, 0x0CC5], .cpypFromScratch ⟨false, 3⟩ ⟨5, .reg 6, ⟨1, 7⟩⟩),
    ([0x7E05, 0x7D07, 0x08C5], .cpykGet ⟨false, 3⟩ ⟨5, 6, ⟨0, 7⟩⟩), ([0x7E05, 0x7D27, 0x08C5], .cpykPut ⟨false, 3⟩ ⟨5, 6, ⟨1, 7⟩⟩),
    ([0x7E05, 0x14C5], .swait ⟨false, 2⟩ ⟨5, 6⟩), ([0x7E05, 0x18C5], .stest ⟨false, 2⟩ ⟨5, 6⟩)] : List (List Half × Instr)).all
    (fun p => reads p.1 p.2) = true := by decide +kernel

/-- Words of the satellite page. -/
theorem test_decode_page5_b : ([
    ([0x7E05, 0x1CC5], .scancel ⟨false, 2⟩ ⟨5, 6⟩), ([0x7E05, 0x28C5], .sfault ⟨false, 2⟩ ⟨5, 6⟩), ([0x7E05, 0x20C0], .sdetach ⟨false, 2⟩ ⟨6⟩),
    ([0x7E05, 0x2CC0], .sadopt ⟨false, 2⟩ ⟨6⟩), ([0x7E05, 0x34C0], .sleepu ⟨false, 2⟩ ⟨6⟩), ([0x7E05, 0x24C5], .sprio ⟨false, 2⟩ ⟨5, 6⟩),
    ([0x7E05, 0x3000], .swaitall ⟨false, 2⟩), ([0x7E05, 0x7D07, 0x38C0], .spromise ⟨false, 3⟩ ⟨6, ⟨0, 7⟩⟩),
    ([0x7E05, 0x3CC0], .sattr ⟨false, 2⟩ ⟨0, ⟨[], 6⟩⟩)] : List (List Half × Instr)).all
    (fun p => reads p.1 p.2) = true := by decide +kernel

/-- Words of the key and message page. -/
theorem test_decode_page6_a : ([
    ([0x7E06, 0x7D07, 0x00C5], .kld ⟨false, 3⟩ ⟨5, .reg 6, some ⟨0, 7⟩, none⟩),
    ([0x7E06, 0x7D07, 0x04C5], .kst ⟨false, 3⟩ ⟨5, .reg 6, some ⟨0, 7⟩, none⟩), ([0x7E06, 0x08C5], .kmov ⟨false, 2⟩ ⟨5, 6⟩),
    ([0x7E06, 0x7D07, 0x0CC5], .knarrow ⟨false, 3⟩ ⟨5, 6, ⟨0, 7⟩⟩), ([0x7E06, 0x7D07, 0x10C5], .krights ⟨false, 3⟩ ⟨5, 6, ⟨0, 7⟩⟩),
    ([0x7E06, 0x7D07, 0x14C5], .kgive ⟨false, 3⟩ ⟨5, 6, ⟨0, 7⟩⟩), ([0x7E06, 0x7D07, 0x18C5], .kpaths ⟨false, 3⟩ ⟨5, 6, ⟨0, 7⟩⟩),
    ([0x7E06, 0x7D60, 0x1CC5], .kinfo ⟨false, 3⟩ ⟨5, 6, some ⟨3, 0⟩⟩), ([0x7E06, 0x7D67, 0x20C5], .rld ⟨false, 3⟩ ⟨5, 6, ⟨3, 7⟩, none⟩),
    ([0x7E06, 0x7D67, 0x24C5], .rst ⟨false, 3⟩ ⟨5, 6, ⟨3, 7⟩, none⟩), ([0x7E06, 0x7D67, 0x2CC5], .rvld ⟨false, 3⟩ ⟨5, 6, ⟨3, 7⟩, none⟩),
    ([0x7E06, 0x7D67, 0x30C5], .rvst ⟨false, 3⟩ ⟨5, 6, ⟨3, 7⟩, none⟩), ([0x7E06, 0x7D07, 0x28C5], .ramoAdd ⟨false, 3⟩ ⟨5, 6, ⟨0, 7⟩, none⟩),
    ([0x7E06, 0x7D27, 0x28C5], .ramoSwap ⟨false, 3⟩ ⟨5, 6, ⟨1, 7⟩, none⟩), ([0x7E06, 0x7D47, 0x28C5], .ramoCas ⟨false, 3⟩ ⟨5, 6, ⟨2, 7⟩, none⟩),
    ([0x7E06, 0x7D67, 0x28C5], .ramoMax ⟨false, 3⟩ ⟨5, 6, ⟨3, 7⟩, none⟩)] : List (List Half × Instr)).all
    (fun p => reads p.1 p.2) = true := by decide +kernel

/-- Words of the key and message page. -/
theorem test_decode_page6_b : ([
    ([0x7E06, 0x7D87, 0x28C5], .ramoOr ⟨false, 3⟩ ⟨5, 6, ⟨4, 7⟩, none⟩), ([0x7E06, 0x7DA7, 0x28C5], .ramoAnd ⟨false, 3⟩ ⟨5, 6, ⟨5, 7⟩, none⟩),
    ([0x7E06, 0x7DC7, 0x28C5], .ramoAddn ⟨false, 3⟩ ⟨5, 6, ⟨6, 7⟩, none⟩), ([0x7E06, 0x7D07, 0x34C5], .send ⟨false, 3⟩ ⟨5, 6, ⟨0, 7⟩⟩),
    ([0x7E06, 0x7D27, 0x34C5], .sendR ⟨false, 3⟩ ⟨5, 6, ⟨1, 7⟩⟩), ([0x7E06, 0x7D07, 0x38C5], .sendr ⟨false, 3⟩ ⟨5, 6, ⟨0, 7⟩⟩),
    ([0x7E06, 0x3CC0], .hclr ⟨false, 2⟩ ⟨.reg 6, none⟩), ([0x7E06, 0x7D07, 0x40C0], .hset ⟨false, 3⟩ ⟨.reg 6, some ⟨0, 7⟩⟩),
    ([0x7E06, 0x7C07, 0x7D07, 0x48C0], .hmask ⟨false, 4⟩ ⟨.imm ⟨[7], 6⟩, some ⟨0, 7⟩⟩), ([0x7E06, 0x4400], .hret ⟨false, 2⟩),
    ([0x7E06, 0x5400], .exit ⟨false, 2⟩), ([0x7E06, 0x5800], .yield ⟨false, 2⟩), ([0x7E06, 0x4C25], .sqfree ⟨false, 2⟩ ⟨5, ⟨[], 1⟩⟩),
    ([0x7E06, 0x7D07, 0x50C5], .spawn ⟨false, 3⟩ ⟨5, 6, ⟨0, 7⟩⟩), ([0x7E06, 0x5CC0], .jdec ⟨false, 2⟩ ⟨6⟩)] : List (List Half × Instr)).all
    (fun p => reads p.1 p.2) = true := by decide +kernel

/-- Words of the privileged page. -/
theorem test_decode_page7_a : ([
    ([0x7E07, 0x0000], .rett ⟨false, 2⟩), ([0x7E07, 0x1000], .icinv ⟨false, 2⟩), ([0x7E07, 0x3400], .wfi ⟨false, 2⟩),
    ([0x7E07, 0x7C08, 0x0405], .mfpr ⟨false, 3⟩ ⟨5, ⟨[8], 0⟩⟩), ([0x7E07, 0x7C08, 0x0885], .mtpr ⟨false, 3⟩ ⟨5, ⟨[8], 4⟩⟩),
    ([0x7E07, 0x7C0C, 0x0805], .mtprMchkClear ⟨false, 3⟩ ⟨5, ⟨[12], 0⟩⟩), ([0x7E07, 0x7D07, 0x0CC5], .tlbi ⟨false, 3⟩ ⟨5, 6, ⟨0, 7⟩⟩),
    ([0x7E07, 0x7D47, 0x14C0], .cflush ⟨false, 3⟩ ⟨6, ⟨2, 7⟩⟩)] : List (List Half × Instr)).all
    (fun p => reads p.1 p.2) = true := by decide +kernel

/-- Words of the privileged page. -/
theorem test_decode_page7_b : ([
    ([0x7E07, 0x18C0], .ctxsave ⟨false, 2⟩ ⟨6⟩), ([0x7E07, 0x1CC0], .ctxload ⟨false, 2⟩ ⟨6⟩), ([0x7E07, 0x30C0], .krekeyAdvance ⟨false, 2⟩ ⟨6⟩),
    ([0x7E07, 0x7D07, 0x20C0], .rgnbindBind ⟨false, 3⟩ ⟨6, ⟨0, 7⟩⟩), ([0x7E07, 0x7D07, 0x24C0], .qmap ⟨false, 3⟩ ⟨6, ⟨0, 7⟩⟩),
    ([0x7E07, 0x7D07, 0x28C0], .trcctl ⟨false, 3⟩ ⟨6, ⟨0, 7⟩⟩), ([0x7E07, 0x2CC5], .kmint ⟨false, 2⟩ ⟨5, 6⟩),
    ([0x7E07, 0x38C5], .pstateSet ⟨false, 2⟩ ⟨5, .reg 6⟩)] : List (List Half × Instr)).all
    (fun p => reads p.1 p.2) = true := by decide +kernel
/-! ### Chains printed in the spec, and refusals -/

/-- The cause that the decoder gives to these halfwords, 0 where it reads an instruction. -/
def badCause (hs : List Half) : Nat := match decodeHalves hs with | .ok _ => 0 | .error r => r.cause

/-- The example of spec/03 after R75 and its three variants. -/
theorem test_decode_example_of_r75 : reads [0x7E02, 0x7D81, 0x7F22, 0xBC43] (.vfadd ⟨true, 4⟩ ⟨3, .reg 2, some ⟨4, 1⟩, mk false true 2⟩) = true ∧
    badCause [0x7E02, 0x7DA1, 0x7F22, 0xBC43] = 1 ∧ badCause [0x7E02, 0x7D81, 0x7F22, 0x7F22, 0xBC43] = 2 ∧
    badCause [0x7E02, 0x7C00, 0x7D81, 0x7F22, 0xBC43] = 2 := by decide +kernel

/-- Chains of spec/07 to spec/11, spec/15 and spec/19. -/
theorem test_decode_examples : ([([0x7E02, 0x7CF6, 0x7D22, 0x7F01, 0x3A84], .vaddsat ⟨false, 5⟩ ⟨4, .imm ⟨[0xF6], 20⟩, some ⟨1, 2⟩, mk false false 1⟩),
    ([0x7E03, 0x7F4F, 0x0142], .vld ⟨false, 3⟩ ⟨2, .reg 10, none, mk true false 15⟩), ([0x7E03, 0x7D03, 0x1544], .vstx ⟨false, 3⟩ ⟨4, 10, ⟨0, 3⟩, none⟩),
    ([0x7E04, 0x00A0], .mcfg ⟨false, 2⟩ ⟨5⟩), ([0x7E04, 0x7D14, 0x11E9], .mma ⟨false, 3⟩ ⟨9, ⟨[], 15⟩, ⟨0, 20⟩⟩),
    ([0x7E05, 0x7C02, 0x7C00, 0x7C05, 0x3E00], .sattr ⟨false, 5⟩ ⟨0, ⟨[2, 0, 5], 16⟩⟩),
    ([0x7E05, 0x7C00, 0x7C80, 0x7D14, 0x0C08], .cpypToScratch ⟨false, 5⟩ ⟨8, .imm ⟨[0, 0x80], 0⟩, ⟨0, 20⟩⟩), ([0x7E05, 0x290C], .sfault ⟨false, 2⟩ ⟨12, 8⟩),
    ([0x7E06, 0x7D14, 0x0C64], .knarrow ⟨false, 3⟩ ⟨4, 3, ⟨0, 20⟩⟩), ([0x7E06, 0x7DC7, 0xA829], .ramoAddn ⟨true, 3⟩ ⟨9, 1, ⟨6, 7⟩, none⟩),
    ([0x7E06, 0x7C00, 0x7D06, 0x4120], .hset ⟨false, 4⟩ ⟨.imm ⟨[0], 9⟩, some ⟨0, 6⟩⟩), ([0x7E07, 0x7C08, 0x0405], .mfpr ⟨false, 3⟩ ⟨5, ⟨[8], 0⟩⟩),
    ([0x7E07, 0x7D55, 0x1680], .cflush ⟨false, 3⟩ ⟨20, ⟨2, 21⟩⟩), ([0x7E07, 0x7D15, 0x2A80], .trcctl ⟨false, 3⟩ ⟨20, ⟨0, 21⟩⟩)] :
      List (List Half × Instr)).all (fun p => reads p.1 p.2) = true := by decide +kernel

/-- R70, R71, R85 and R74: five prefixes, a second EXT, a reserved opcode of page 7, a page above 7 and MASK [7]. -/
theorem test_decode_refuses : badCause [0x7C00, 0x7C00, 0x7C00, 0x7C00, 0x7C00, 0x2805] = 2 ∧ badCause [0x7D00, 0x7D00, 0x0025] = 2 ∧
    badCause [0x7E07, 0x3C00] = 1 ∧ badCause [0x7E08, 0x0000] = 1 ∧ badCause [0x7E02, 0x7F80, 0x0001] = 2 ∧ badCause [0xFC00, 0x2805] = 2 := by
  decide +kernel

/-- The same words through `decodeTableWord`, which numbers bits from the first halfword: `li x5, #1` and `mcfg x5`. -/
theorem test_decode_table_word : decodeTableWord 16 0x2825 = some (.li ⟨false, 1⟩ ⟨5, ⟨[], 1⟩⟩) ∧
    decodeTableWord 32 0x00A07E04 = some (.mcfg ⟨false, 2⟩ ⟨5⟩) := by decide +kernel

/-! ### Worked values of the spec -/

/-- Rows of the table of worked conversions at the end of R119. -/
theorem test_conversions : convert 0 1 0 false 0x3F808000 = ⟨0x3F80, flagNX⟩ ∧ convert 0 1 4 false 0x3F808000 = ⟨0x3F81, flagNX⟩ ∧
    convert 0 4 0 false 0x3F800000 = ⟨0x3C, 0⟩ ∧ convert 0 3 0 true 0x43FA0000 = ⟨0x7E, flagOF ||| flagNX⟩ ∧
    convert 0 3 0 false 0x43FA0000 = ⟨0x7F, flagOF ||| flagNX⟩ ∧ convert 0 3 1 false 0x43FA0000 = ⟨0x7E, flagOF ||| flagNX⟩ ∧
    convert 4 3 0 true 0x7C = ⟨0x7E, flagOF ||| flagNX⟩ ∧ convert 0 3 0 false 0x3A800000 = ⟨0, flagUF ||| flagNX⟩ ∧
    convert 0 3 3 false 0x3A800000 = ⟨1, flagUF ||| flagNX⟩ ∧ convert 0 7 0 false 0xC0200000 = ⟨0xFE, flagNX⟩ ∧
    convert 0 7 4 false 0xC0200000 = ⟨0xFD, flagNX⟩ ∧ convert 0 7 0 false 0x43960000 = ⟨0x7F, flagNV⟩ ∧
    convert 0 2 0 false 0x7FA00000 = ⟨0x7E00, flagNV⟩ := by decide +kernel

/-- The K-group of the example after R125: 2^24 + 1 - 2^24 + 29 zeros onto 0.5 is 1.5, exactly summed. -/
theorem test_group_sum_is_exact : fpStep 0x3F000000 (groupValue ([.fin false 1 24, .fin false 1 0, .fin true 1 24] ++ List.replicate 29 (.fin false 0 0)) (some 0)) =
    ⟨0x3FC00000, false, false⟩ := by decide +kernel

/-- The drain of the example after R262: 300, 500, 0.2578125 and 0.2578125 to E4M3 with error feedback. -/
theorem test_drain_carries_the_error : drainElem 0x3B0011 0x43960000 0 = (0x79, 0x41400000, false) ∧ drainElem 0x3B0011 0x43FA0000 0x41400000 = (0x7E, 0, true) ∧
    drainElem 0x3B0011 0x3E840000 0 = (0x28, 0x3C000000, false) ∧ drainElem 0x3B0011 0x3E840000 0x3C000000 = (0x28, 0x3C800000, false) := by decide +kernel

/-- The token of the example after R60: region 0x0042, kind 1, core 57 of die 5, slot 3, GEN 0x0011. -/
theorem test_token : ({ demo.satellite 3 1 .streamer true (.mclr 0) with rid := 0x42, loc := ⟨0, 5, 57⟩, gen := 0x11 } : Sat).token = 0x00420102B9030011 := by
  decide +kernel

/-- The saturating additions of the example after R191. -/
theorem test_vaddsat : (let a : Agent := { demo.me with v := demo.me.v.set 2 (BitVec.ofNat 8192 (32000 + 2 ^ 16 * (2 ^ 16 - 32700) + 2 ^ 32 * 100 + 2 ^ 48 * (2 ^ 16 - 5))) }
    let e := demo.newEntry (.vaddsat ⟨false, 5⟩ ⟨4, .imm ⟨[0xF6], 20⟩, some ⟨1, 2⟩, mk false false 1⟩) [] 0
    [(laneVal a e 0).bits, (laneVal a e 1).bits, (laneVal a e 3).bits]) = [0x7BD4, 0x8000, 0xFECF] := by decide +kernel

/-- The chains of spec/06 that build 0x0012345689ABCDEF. -/
theorem test_li_lhi : (after (.lhi ⟨false, 4⟩ ⟨5, ⟨[0, 0x91, 0xA2], 22⟩⟩) (after (.li ⟨false, 5⟩ ⟨5, ⟨[0xFC, 0x4D, 0x5E, 0x6F], 15⟩⟩) demo)).x 5 =
    0x0012345689ABCDEF := by decide +kernel

/-- The divisions of the table after R164. -/
theorem test_divisions : (let s := withX demo [(1, -7), (2, 2), (3, 2 ^ 63), (4, -1)]
    let div := fun (i : Instr) => (after i s).me.inflight.map fun i => i.val.setWidth 64
    [div (.div h2 ⟨5, .reg 2, some ⟨0, 1⟩⟩), div (.rem h2 ⟨5, .reg 2, some ⟨0, 1⟩⟩), div (.divu h2 ⟨5, .reg 2, some ⟨0, 1⟩⟩),
     div (.div h2 ⟨5, .reg 4, some ⟨0, 3⟩⟩), div (.rem h2 ⟨5, .reg 4, some ⟨0, 3⟩⟩)]) = [[(-3 : Word)], [-1], [0x7FFFFFFFFFFFFFFC], [2 ^ 63], [0]] := by
  decide +kernel

/-! ### Steps -/

/-- The step that fetches and runs `li x5, #1` from reset. -/
theorem test_step_runs_the_placed_word : (match step (State.reset.withFetchWord 16 0x2825) with
    | .next t => t.x 5 == 1 && t.me.pc == (State.reset.withFetchWord 16 0x2825).me.pc + 2 | _ => false) = true := by decide +kernel

/-- A store and a load of the same doubleword; the result is on its way, and arrives with LONG_LATENCY_RESULT. -/
theorem test_store_then_load : (let s := after (.st h2 ⟨5, .reg 6, some ⟨3, 0⟩, none⟩) (withX demo [(5, 0x1122334455667788), (6, 0x200000)])
    let t := after (.ld h2 ⟨7, .reg 6, some ⟨1, 0⟩, none⟩) s
    (t.me.pendX, (after (.longLatencyResult 1 ((t.me.inflight.map Inflight.order).headD 0)) t).x 7)) = (BitVec.ofNat 32 (2 ^ 7), 0x7788) := by decide +kernel

/-- A divide by zero goes to `utvec` and `rett` comes back (R368, R371). -/
theorem test_utvec_and_rett : (let s := withX (demo.upd fun a => { a with utvec := 0x4000 }) [(1, 9)]
    let t := after (.div h2 ⟨5, .reg 2, some ⟨0, 1⟩⟩) s
    let u := after (.rett h2) t
    (t.me.pc, t.me.ucause, t.me.uepc, t.me.uta, u.me.pc, u.me.uta)) = (0x4000, 0x16, 0x100000, true, 0x100000, false) := by decide +kernel

/-! ### Operands that meet the hypotheses of the statements

`w_<Statement>` names a state and operands under which the hypotheses of that statement hold together, with one conjunct or theorem for each clause that has
hypotheses of its own. -/

/-- The first part of a result is this cause. -/
def failsWith {α : Type} (r : Except Nat α) (c : Nat) : Bool := match r with | .error e => e == c | .ok _ => false

theorem eq_of_failsWith {α : Type} {r : Except Nat α} {c : Nat} (h : failsWith r c = true) : r = .error c := by
  cases r with
  | ok a => simp [failsWith] at h
  | error e => simp only [failsWith, beq_iff_eq] at h; rw [h]

/-- The first part of a pair is a result of which `q` holds. -/
def okWith {ε α σ : Type} (p : Except ε α × σ) (q : α → σ → Bool) : Bool := match p.1 with | .ok a => q a p.2 | .error _ => false

theorem ok_of {ε α σ : Type} {p : Except ε α × σ} (q : α → σ → Bool) (h : okWith p q = true) : ∃ a t, p = (.ok a, t) ∧ q a t = true := by
  obtain ⟨e, t⟩ := p
  cases e with
  | error e => simp [okWith] at h
  | ok a => exact ⟨a, t, rfl, h⟩

theorem some_of {α : Type} {o : Option α} (q : α → Bool) (h : o.any q = true) : ∃ a, o = some a ∧ q a = true := by
  cases o with
  | none => simp at h
  | some a => exact ⟨a, rfl, h⟩

/-- The root region's save area and record are where nothing is mapped, so that a trap to a supervisor is short. -/
def da : State := { demo with regions := mapIf (fun _ => true) (fun r => { r with save := 2 ^ 40, rcb := 2 ^ 40 }) demo.regions }
/-- Two sources, an operand of 0 and addresses. -/
def dx : State := withX (withM da [(0x200000, 0x8899AABBCCDDEEFF), (0x200008, 0x5000)])
  [(1, 5), (2, 0xFFFFFFFFFFFFFFF0), (3, 0x200000), (4, 64), (5, 0), (6, 0x200001), (7, 0x200004), (8, 0x40000000), (9, 0xFFFFFFFFFFFFFFFF)]

theorem w_DecodeOfEncodeIsTheInstruction : (Instr.vfadd ⟨true, 4⟩ ⟨3, .reg 2, some ⟨4, 1⟩, mk false true 2⟩).wf = true := by decide

theorem w_DecodedInstructionIsWellFormed : reads [0x7E07, 0x7C0C, 0x0805] (.mtprMchkClear ⟨false, 3⟩ ⟨5, ⟨[12], 0⟩⟩) = true := by decide +kernel

/-- `li x5, #1` at the program counter of a thread whose turn it is. -/
def placed : State := { State.reset.withFetchWord 16 0x2825 with schedule := [.turn 1] }

theorem w_StepRunsTheDecodedInstruction : placed.schedule = .turn placed.me.uid :: [] ∧ (placed.die placed.me.loc.mod placed.me.loc.die).tripped = false ∧
    ({ placed with schedule := [] } : State).nextEvent = none ∧ placed.me.issues = true ∧ ({ placed with schedule := [] } : State).robin = true ∧
    ∃ (hs : List Half) (t : State),
      State.fetchChain 5 (({ placed with schedule := [] } : State).issuedBy placed.me.loc placed.me.ctx).watchCode placed.me.pc [] = (.ok hs, t) ∧
      (reads hs (.li ⟨false, 1⟩ ⟨5, ⟨[], 1⟩⟩) && (match parseChain hs with | .ok c => !t.me.lacksLevel c | .error _ => false)) = true :=
  ⟨by decide +kernel, by decide +kernel, by decide +kernel, by decide +kernel, by decide +kernel, ok_of _ (by decide +kernel)⟩

/-- The cause of a chain at the program counter that no agent is turned to, and what is known of it there. -/
def chainOf (s : State) : Except (Nat × Word) (List Half) := (State.fetchChain 5 s s.me.pc []).1

/-- One chain for each step of R75: no page for the program counter; a second EXT; a reserved opcode; `wfi` at U; a reserved EXT. -/
theorem w_ChainChecksTrapInOrder : (let at_ := fun (w : Nat) => (State.reset.withFetchWord 32 w).upd fun a => { a with level := 0 }
    let bad := fun (s : State) => match chainOf s with | .error e => e.1 | .ok _ => 0
    let parse := fun (s : State) => match chainOf s with | .ok hs => (match parseChain hs with | .error r => r.cause | .ok _ => 0) | .error _ => 0
    let entry := fun (s : State) => match chainOf s with | .ok hs => (match parseChain hs with
      | .ok c => (match chainEntry c with | .error r => r.cause | .ok _ => 0) | .error _ => 0) | .error _ => 0
    let lacks := fun (s : State) => match chainOf s with | .ok hs => (match parseChain hs with
      | .ok c => (match chainEntry c with | .ok _ => s.me.lacksLevel c | .error _ => false) | .error _ => false) | .error _ => false
    let body := fun (s : State) => match chainOf s with | .ok hs => (match parseChain hs with
      | .ok c => (match chainEntry c with | .ok e => (match entryDecode e c with | .error r => r.cause | .ok _ => 0) | .error _ => 0) | .error _ => 0) | .error _ => 0
    (bad (demo.upd fun a => { a with pc := 2 ^ 40 }), parse (at_ 0x7D007D00), entry (at_ 0x3C007E07), lacks (at_ 0x34007E07), body (at_ 0x00257D20))) =
      (0x05, 0x02, 0x01, true, 0x01) := by decide +kernel

theorem w_FetchReadsTheCodeBytes : ∃ p t, demo.translate demo.codeSpace 0x200000 .fetch = (.ok p, t) ∧
    ((t.code? t.codeSpace (p.1 / 128)).isNone && p.1 == 0x200000 && !t.readBad p.2 p.1) = true := ok_of _ (by decide +kernel)

/-- A way to a line from its home, and from another die under the same memory key. -/
def homeVia : Via := dx.via ⟨0, 0, 0⟩ 0xFF00
def farVia : Via := { homeVia with loc := ⟨0, 1, 0⟩ }

theorem w_ReadsChangeNoByte : dx.atHome homeVia (0x200000 / 128) = true ∧ dx.atHome farVia (0x200000 / 128) = false ∧
    dx.rdc? 0 1 0 (0x200000 / 128) = none ∧ (dx.rdcMates 0 1 (0x200000 / 128)).length < 8 := by decide +kernel

theorem w_MemoryIsCanonicalAndReadsBackWhatWasWritten : Memory.wf [(5, 1), (7, 2)] = true ∧ Memory.wf [] = true ∧ Memory.wf dx.mem = true := by decide +kernel

theorem w_StoresChangeOnlyTheirBytes : (let v := homeVia
    Memory.wf dx.mem = true ∧ 0x200078 < 2 ^ 52 ∧ dx.rdc = [] ∧ dx.homeDie (0x200000 / 128) = 0 ∧ 0x200078 % 128 + (natBytes 8 1).length ≤ 128 ∧ dx.lineKey v.loc.mod (0x200078 / 128) = v.key ∧
    dx.counted? v.loc.mod (0x200078 / 128) = none ∧ dx.poisoned v.loc.mod (0x200078 / 128) = false) := by decide +kernel

theorem w_IntegerResults : dx.notPending (firstReg (some ⟨0, 2⟩) 1 :: (RegImm.regs (.reg 31) ++ [1])) [] := by decide +kernel

theorem w_ShiftAmounts : dx.notPending (firstReg none 1 :: (RegImm.regs (im 63) ++ [1])) [] ∧ (img 0).int = 0 ∧ (img 63).int = 63 ∧
    ¬ (0 ≤ (img 64).int ∧ (img 64).int ≤ 63) ∧ ¬ (0 ≤ (⟨[0xFF], 31⟩ : Imm).int) := by decide +kernel

theorem w_BitGatherScatterAndCount : dx.notPending (firstReg (some ⟨0, 2⟩) 1 :: (RegImm.regs (.reg 9) ++ [1])) [] ∧ dx.notPending [2, 1] [] := by decide +kernel

theorem w_DivisionResultsAndDivideByZero : dx.notPending (firstReg (some ⟨0, 2⟩) 1 :: (RegImm.regs (.reg 4) ++ [1])) [] ∧ dx.val (.reg 4) ≠ 0 ∧
    dx.val (.reg 5) = 0 := by decide +kernel

theorem w_ConstantsAndAddresses : dx.notPending [2] [] ∧ (img 0).int = 0 ∧ (img 1).int = 1 ∧ (img 2).int = 2 ∧
    (⟨[0x04, 0, 0, 0], 0⟩ : Imm).int = 2 ^ 31 ∧ (⟨[0xFC, 0, 0, 0], 0⟩ : Imm).int = -(2 : Int) ^ 31 := by decide +kernel

theorem w_BranchesAndJumps : dx.notPending [2, 4] [] ∧ dx.notPending (ADR.regs ⟨3, .reg 6, none, none⟩ ++ [3]) [] ∧
    (dx.addr ⟨3, .reg 6, none, none⟩).getLsbD 0 = true ∧ (dx.addr ⟨3, .reg 7, none, none⟩).getLsbD 0 = false := by decide +kernel

theorem w_PendingRegisterTraps : (let s := dx.upd fun a => { a with pendX := 0x20, pendK := 4 }
    ((firstReg none 5 :: (RegImm.regs (.reg 1) ++ [5]) : List Reg)).find? (fun r => s.me.pendX.getLsbD r.toNat) = some 5 ∧
    ((ADR.regs ⟨5, .reg 1, none, none⟩ ++ [5] : List Reg)).find? (fun r => s.me.pendX.getLsbD r.toNat) = some 5 ∧
    ((9 :: ADR.regs ⟨9, .reg 5, none, none⟩ : List Reg)).find? (fun r => s.me.pendX.getLsbD r.toNat) = some 5 ∧
    ([3, 5] : List Reg).find? (fun r => s.me.pendX.getLsbD r.toNat) = some 5 ∧ s.me.pendK.getLsbD 2 = true ∧ s.me.pendK.getLsbD 1 = false) := by decide +kernel

/-- A load whose result has arrived, in a thread parked at a wait marker. -/
def arrived : State := dx.upd fun a => { a with inflight := [⟨false, 7, 0x55, true, false, none, 0, 0, 0, 3, none, none⟩], pendX := 128, life := .parked .marker }

/-- A failure that a result brings (spec/03 R90). -/
def byKey : Trap := ⟨0x0B, 0, 0x100000, 2, false, 0⟩

theorem w_WaitMarkerParksUntilResultsArrive : dx.notPending (firstReg none 1 :: (RegImm.regs (.reg 2) ++ [1])) [] ∧ dx.me.inflight = [] ∧
    (arrived.notPending (firstReg none 1 :: (RegImm.regs (.reg 2) ++ [1])) [] ∧ arrived.me.inflight.any (fun i => i.entry.isNone) = true) ∧
    ((arrived.me.inflight.find? fun j => j.order == 3 && j.ready) = some ⟨false, 7, 0x55, true, false, none, 0, 0, 0, 3, none, none⟩ ∧
      arrived.me.life = .parked .marker) ∧
    (let i : Inflight := { Inflight.known 9 with isK := true, reg := 2, order := 4, fail := some byKey }
     let s := dx.upd fun a => { a with inflight := [i, Inflight.ofReq 5], failures := [] }
     (s.me.inflight.find? fun j => j.order == 4 && j.ready) = some i ∧ s.me.life ≠ .parked .marker) := by decide +kernel

/-- `State.reaches` for an access at `addr`, with a further condition on the place and the state after the walk. -/
def reachable (s : State) (addr : Word) (n : Nat) (acc : Acc) (q : Nat × Via → State → Bool) : Prop :=
  ∃ (p : Nat × Via) (t : State), s.reaches addr n acc p.1 p.2 t ∧ q p t = true

theorem reachable_of {s : State} {addr : Word} {n : Nat} {acc : Acc} {q : Nat × Via → State → Bool}
    (h : (match s.translate s.mySpace addr.toNat acc with
      | (.ok p, t) => decide (addr.toNat % n = 0) && decide t.unwatched && q p t | _ => false) = true) : reachable s addr n acc q := by
  revert h
  split
  · rename_i p t e
    intro h
    simp only [Bool.and_eq_true, decide_eq_true_eq] at h
    exact ⟨p, t, ⟨h.1.1, e, h.1.2⟩, h.2⟩
  · simp

/-- The line at 0x200000 poisoned, and the same line counted. -/
def poisoned : State := { dx with poison := [(0, 0x200000 / 128, 0)] }
def countedLine : State := { dx with counted := [⟨0, 0x200000 / 128, 1, 0xFF00, 0, 0, 0⟩] }

theorem w_LoadsReadTheirBytes : dx.notPending (ADR.regs ⟨9, .reg 3, none, none⟩ ++ [9]) [] ∧ dx.addr ⟨9, .reg 3, none, none⟩ = 0x200000 ∧
    reachable dx 0x200000 8 .read (fun p t => !t.readBad p.2 p.1) ∧ reachable poisoned 0x200000 8 .read (fun p t => t.readBad p.2 p.1) :=
  ⟨by decide +kernel, by decide +kernel, reachable_of (by decide +kernel), reachable_of (by decide +kernel)⟩

theorem w_StoresWriteTheirBytes : dx.notPending (9 :: ADR.regs ⟨9, .reg 3, none, none⟩) [] ∧ reachable dx 0x200000 8 .write (fun _ _ => true) :=
  ⟨by decide +kernel, reachable_of (by decide +kernel)⟩

theorem w_AtomicsReadAndWriteAtTheHome : dx.notPending (3 :: 4 :: [1]) [] ∧ dx.x 3 = 0x200000 ∧
    reachable dx 0x200000 8 .write (fun p t => let u := t.reachHome p.2 (p.1 / 128)
      (u.counted? 0 (p.1 / 128)).isNone && !u.poisoned 0 (p.1 / 128)) ∧
    reachable countedLine 0x200000 8 .write (fun p t => let u := t.reachHome p.2 (p.1 / 128)
      (u.counted? 0 (p.1 / 128)).isSome) ∧
    reachable poisoned 0x200000 8 .write (fun p t => let u := t.reachHome p.2 (p.1 / 128)
      (u.counted? 0 (p.1 / 128)).isNone && u.poisoned 0 (p.1 / 128)) :=
  ⟨by decide +kernel, by decide +kernel, reachable_of (by decide +kernel), reachable_of (by decide +kernel), reachable_of (by decide +kernel)⟩

/-- A misaligned address, and an aligned one whose page is not mapped (cause 0x05), for each shape. -/
theorem w_AccessesTrapInTheOrderOfTheirChecks : dx.notPending (ADR.regs ⟨9, .reg 6, none, none⟩ ++ [9]) [] ∧ dx.notPending (9 :: ADR.regs ⟨9, .reg 6, none, none⟩) [] ∧
    dx.notPending (6 :: 4 :: [1]) [] ∧ dx.notPending (ADR.regs ⟨9, .reg 6, none, none⟩) [keyReg 9] ∧ (dx.addr ⟨9, .reg 6, none, none⟩).toNat % 2 ≠ 0 ∧
    (dx.addr ⟨9, .reg 7, none, none⟩).toNat % 32 ≠ 0 ∧ (dx.addr ⟨9, .reg 8, none, none⟩).toNat % 32 = 0 ∧
    (dx.translate dx.mySpace 0x40000000 .read).1 = .error 5 ∧ (dx.translate dx.mySpace 0x40000000 .write).1 = .error 5 :=
  ⟨by decide +kernel, by decide +kernel, by decide +kernel, by decide +kernel, by decide +kernel, by decide +kernel, by decide +kernel,
    eq_of_failsWith (by decide +kernel), eq_of_failsWith (by decide +kernel)⟩

/-- The page of 0x200000 with leaf 0x9F (readable, writable, executable and for U, neither accessed nor dirty), and with 0x11 (fetch only). -/
def freshLeaf : State := withM dx [(0x3F00B000, 0x9F)]
def fetchOnly : State := withM dx [(0x3F00B000, 0x13)]
/-- After a first access the translation cache holds the leaf. -/
def cachedLeaf : State := (freshLeaf.translate dx.mySpace 0x200000 .read).2

theorem w_TranslationChecksTheLeaf : canonical (2 ^ 60) = false ∧ canonical 0x200000 = true ∧
    (∃ e, cachedLeaf.tlb? dx.mySpace 0x200000 = some e ∧ leafAllows e.leaf.toNat .read dx.mySpace.level = true) ∧
    (∃ e, cachedLeaf.servingLeaf dx.mySpace 0x200000 .read = some e ∧ leafAllows e.leaf.toNat .read dx.mySpace.level = true) ∧
    (dx.servingLeaf { dx.mySpace with asid := 77 } 0x200000 .read = none ∧ dx.asRoot 0 dx.mySpace.vif 77 = .error 0x05) ∧
    (fetchOnly.servingLeaf dx.mySpace 0x200000 .read = none ∧ ∃ root l, fetchOnly.asRoot 0 dx.mySpace.vif dx.mySpace.asid = .ok root ∧
      fetchOnly.walk 0 0x200000 walkLevels root = .ok l ∧ leafAllows l.entry.toNat .read dx.mySpace.level = false) ∧
    (freshLeaf.servingLeaf dx.mySpace 0x200000 .write = none ∧ Memory.wf freshLeaf.mem = true ∧ ∃ root l, freshLeaf.asRoot 0 dx.mySpace.vif dx.mySpace.asid = .ok root ∧
      freshLeaf.walk 0 0x200000 walkLevels root = .ok l ∧ leafAllows l.entry.toNat .write dx.mySpace.level = true ∧ l.at_ % 8 = 0 ∧ l.at_ < 2 ^ 52 ∧
      freshLeaf.counted? 0 (l.at_ / 128) = none ∧ freshLeaf.poisoned 0 (l.at_ / 128) = false) := by
  have opt : ∀ {α : Type} (o : Option α) (q : α → Bool), o.any q = true → ∃ a, o = some a ∧ q a = true := fun o q h => by
    cases o with | none => simp at h | some a => exact ⟨a, rfl, by simpa using h⟩
  have two : ∀ (s : State) (q : Leaf → Bool), (match s.asRoot 0 dx.mySpace.vif dx.mySpace.asid with
      | .ok root => (match s.walk 0 0x200000 walkLevels root with | .ok l => q l | .error _ => false) | .error _ => false) = true →
      ∃ root l, s.asRoot 0 dx.mySpace.vif dx.mySpace.asid = .ok root ∧ s.walk 0 0x200000 walkLevels root = .ok l ∧ q l = true := fun s q h => by
    revert h
    split
    · rename_i root e
      split
      · rename_i l f; exact fun h => ⟨root, l, e, f, h⟩
      · simp
    · simp
  refine ⟨by decide, by decide, ?_, ?_, ⟨by decide +kernel, eq_of_failsWith (by decide +kernel)⟩, ⟨by decide +kernel, ?_⟩, by decide +kernel,
    by decide +kernel, ?_⟩
  · exact opt _ (fun (e : TlbEntry) => leafAllows e.leaf.toNat .read dx.mySpace.level) (by decide +kernel)
  · exact opt _ (fun (e : TlbEntry) => leafAllows e.leaf.toNat .read dx.mySpace.level) (by decide +kernel)
  · obtain ⟨r, l, h1, h2, h3⟩ := two fetchOnly (fun l => !leafAllows l.entry.toNat .read dx.mySpace.level) (by decide +kernel)
    exact ⟨r, l, h1, h2, by simpa using h3⟩
  · obtain ⟨r, l, h1, h2, h3⟩ := two freshLeaf (fun l => leafAllows l.entry.toNat .write dx.mySpace.level && (decide (l.at_ % 8 = 0) && (decide (l.at_ < 2 ^ 52) &&
      ((freshLeaf.counted? 0 (l.at_ / 128)).isNone && !freshLeaf.poisoned 0 (l.at_ / 128))))) (by decide +kernel)
    simp only [Bool.and_eq_true, decide_eq_true_eq, Bool.not_eq_true', Option.isNone_iff_eq_none] at h3
    exact ⟨r, l, h1, h2, h3⟩

/-- `fence both, module` at the halfwords the thread holds, made after the requests so far. -/
def fencing : State := dx.upd fun a => { a with life := .fencing, ir := [0x7DA0, 0x5803], fenceAt := dx.nextReq }
/-- A vector entry waits in the queue. -/
def queued : State := after (.vadd h1 ⟨1, .reg 2, none, none⟩) (dx.upd fun a => { a with vl := 100 })

theorem w_FencesWaitAndRelease : (dx.me.life ≠ .fencing ∧ dx.me.queue = [] ∧ dx.me.inflight = [] ∧ dx.remotesAcked dx.me.uid = true ∧
      dx.writesAcked dx.me.loc.mod dx.nextReq = true) ∧ (queued.me.life ≠ .fencing ∧ queued.me.queue ≠ []) ∧
    (fencing.me.life = .fencing ∧ fencing.agent? fencing.me.uid = some fencing.me ∧ fencing.me.queue = [] ∧ fencing.me.inflight = [] ∧
      fencing.remotesAcked fencing.me.uid = true ∧ fencing.writesAcked fencing.me.loc.mod fencing.me.fenceAt = true) ∧
    (∃ c, parseChain fencing.me.ir = .ok c ∧ c.asFEN = some ⟨3, some ⟨5, 0⟩⟩) := by
  refine ⟨by decide +kernel, by decide +kernel, by decide +kernel, ?_⟩
  have h : (match parseChain fencing.me.ir with | .ok c => decide (c.asFEN = some ⟨3, some ⟨5, 0⟩⟩) | .error _ => false) = true := by decide +kernel
  revert h
  split
  · rename_i c e
    exact fun h => ⟨c, e, of_decide_eq_true h⟩
  · simp

/-- A trace buffer with one debug entry is bound to the region. -/
def watched : State := { dx with tbufs := [⟨0, 0, 0xFF00, 0xFF00, 0, false, [], 0, 0, 0, 0, 0, 0, [2]⟩] }

theorem w_DeliberateTraps : dx.debugBound dx.me = false ∧ watched.debugBound watched.me = true := by decide +kernel

/-- A handler for traps at 0x4000. -/
def caught : State := dx.upd fun a => { a with utvec := 0x4001 }
/-- A divide by zero, and a trap of the stream. -/
def byZero : Trap := ⟨0x16, 0x100000, 0, 0, false, 0⟩
def ofStream : Trap := ⟨0x15, 0x100000, 0, 0, true, 0⟩

theorem w_TrapEntryAtUtvec : caught.me.level < 2 ∧ caught.nothingDue ∧ delegable byZero.cause = true ∧ caught.me.utvec &&& ~~~1 ≠ 0 ∧ caught.me.uta = false ∧ byZero.stream = false ∧
    caught.me.mustWait byZero = false ∧ delegable ofStream.cause = true ∧ ofStream.stream = true ∧ caught.me.aside = none ∧
    caught.me.mustWait ofStream = false ∧ arrived.me.mustWait byZero = true ∧
    (let s := caught.upd fun a => { a with life := .trapping byZero }
     s.me.life = .trapping byZero ∧ s.me.mustWait byZero = false ∧ byZero.cause ≠ 0x1F) ∧
    (let f : Failure := ⟨3, ⟨0x22, 0, 0x100000, 5, false, 0⟩, false⟩
     let s := caught.upd fun a => { a with failures := [f] }
     s.me.mustWait byZero = false ∧ s.me.mustWait (s.me.hereTrap f.trap) = false ∧ (byZero.stream = false ∧ byZero.cause ≠ 0x20) ∧ s.me.failures = [f] ∧ s.reports = [] ∧
       s.me.mustWait ofStream = false ∧ s.me.takesAtUtvec ofStream = true ∧ ∀ q ∈ s.me.failures, q.armed = false) ∧
    (let s := caught.upd fun a => { a with failures := [⟨3, ⟨0x22, 0, 0x100000, 5, false, 0⟩, true⟩] }
     s.me.mustWait ofStream = false ∧ ofStream.stream = true ∧ (∀ q ∈ s.me.failures, q.armed = true) ∧ s.reports = []) ∧
    (let s := (caught.upd fun a => { a with utvec := 0, failures := [⟨3, ⟨0x22, 0, 0x100000, 5, false, 0⟩, false⟩] })
     s.me.mustWait ofStream = false ∧ ofStream.stream = true ∧ s.me.takesAtUtvec ofStream = false ∧ s.me.level < 2 ∧ s.reports = []) ∧
    (2 ≤ firmware.me.level ∧ firmware.me.mustWait byZero = false ∧ firmware.nothingDue) := by decide +kernel

/-- A class-0 thread whose save area is mapped, and a trap that is not delegable. -/
def plain : State := demo.upd fun a => { a with cls := 0 }
def illegal : Trap := ⟨0x01, 0x100000, 0, 0, false, 0⟩

/-- That thread at the point where it takes the trap, and with its stream stopped. -/
def atStop : State := plain.upd fun a => ({ a with life := .ready } : Agent).dropEvent illegal
def stopped : State := (atStop.traceState atStop.me 4 illegal.cause).stopStream plain.me.uid

theorem w_SupervisorTrapStopsTheThread : plain.me.level < 2 ∧ plain.nothingDue ∧ illegal.stream = false ∧ plain.me.takesAtUtvec illegal = false ∧ plain.me.mustWait illegal = false ∧ plain.me.isHandler = false ∧
    illegal.cause ≠ 0x20 ∧ (∃ r, plain.region? plain.me.loc.mod plain.me.rid = some r ∧
      ∃ t, stopped.savePieces r plain.me.loc (imageBase r plain.me.tid)
        (imagePieces stopped stopped.me true (trapRecord atStop atStop.me illegal).words) = (.ok (), t)) ∧
    (let s := plain.upd fun a => { a with kind := .handler 3 }
     s.me.takesAtUtvec illegal = false ∧ s.me.mustWait illegal = false ∧ s.me.isHandler = true ∧ s.nothingDue) := by
  refine ⟨by decide +kernel, by decide +kernel, by decide +kernel, by decide +kernel, by decide +kernel, by decide +kernel, by decide +kernel, ?_,
    by decide +kernel⟩
  have h : (plain.region? plain.me.loc.mod plain.me.rid).any (fun r => okWith (stopped.savePieces r plain.me.loc (imageBase r plain.me.tid)
      (imagePieces stopped stopped.me true (trapRecord atStop atStop.me illegal).words)) fun _ _ => true) = true := by decide +kernel
  obtain ⟨r, e, h⟩ := some_of _ h
  obtain ⟨_, t, h, -⟩ := ok_of _ h
  exact ⟨r, e, t, h⟩

/-- A thread in its user trap handler, a second whose stop left a residue, and a U thread outside a handler. -/
def inHandler : State := dx.upd fun a => { a with uta := true, uepc := 0x4000 }
def withResidue : State := inHandler.upd fun a => { a with aside := some ⟨queued.me.queue, [0, 0, 0, 0], 0, 4, 0x4000, 0, false, []⟩ }
def atU : State := dx.upd fun a => { a with level := 0 }

theorem w_ReturnFromUserTrap : (atU.me.uta = false ∧ atU.me.level = 0) ∧ (dx.me.uta = false ∧ dx.me.level ≠ 0) ∧
    (let s := queued.upd fun a => { a with uta := true }
     s.me.uta = true ∧ (s.me.queue.any fun e => decide (s.me.userSeq ≤ e.seq)) = true) ∧
    (let s := queued.upd fun a => { a with uta := true, userSeq := a.nextSeq }
     s.me.uta = true ∧ s.me.queue ≠ [] ∧ (s.me.queue.all fun e => decide (e.seq < s.me.userSeq)) = true ∧ s.me.aside = none) ∧ (inHandler.me.uta = true ∧ inHandler.me.queue = [] ∧ inHandler.me.aside = none ∧ h1.wait = false) ∧
    (withResidue.me.uta = true ∧ withResidue.me.queue = [] ∧
      withResidue.me.aside = some ⟨queued.me.queue, [0, 0, 0, 0], 0, 4, 0x4000, 0, false, []⟩) := by decide +kernel

theorem w_BoundaryTakesEventsInOrder : (dx.nothingDue ∧ dx.me.mustWait illegal = false ∧ dx.me.life = .ready ∧ dx.me.vstop = none ∧ dx.codeStops = [] ∧ dx.me.debugStop = none ∧ dx.me.failures = [] ∧
      dx.me.cycleLimit = false ∧ dx.me.uta = false ∧ dx.me.late = [] ∧ dx.me.preempt = false ∧ dx.me.isHandler = false) ∧
    (let s := dx.upd fun a => { a with debugStop := some ⟨0x20, 0, 0, 0, false, 0⟩ }
     s.me.life = .ready ∧ s.me.vstop = none ∧ s.codeStops = [] ∧ s.me.debugStop = some ⟨0x20, 0, 0, 0, false, 0⟩) ∧
    (let s := dx.upd fun a => { a with failures := [⟨1, ⟨0x25, 0, 0, 0, false, 0⟩, true⟩] }
     s.codeStops = [] ∧ s.me.debugStop = none ∧ s.me.failures = [⟨1, ⟨0x25, 0, 0, 0, false, 0⟩, true⟩]) ∧
    (let s := dx.upd fun a => { a with cycleLimit := true }
     s.codeStops = [] ∧ s.me.debugStop = none ∧ s.me.failures = [] ∧ s.me.cycleLimit = true) ∧
    (let u : Trap := ⟨0x13, 0, 0, 0, false, 0⟩
     let t : Trap := ⟨0x26, 0, 0, 0, false, 0⟩
     let s := dx.upd fun a => { a with late := [u, t] }
     s.codeStops = [] ∧ s.me.cycleLimit = false ∧ s.me.uta = false ∧ s.me.late = [u, t] ∧ u.seq = 0 ∧ t.seq = 0) ∧
    (let u : Trap := ⟨0x13, 0, 0, 0, false, 1⟩
     let s := dx.upd fun a => { a with late := [u, illegal] }
     s.codeStops = [] ∧ s.me.uta = false ∧ u.seq = 1 ∧ s.me.late = [u, illegal]) ∧
    (let s := dx.upd fun a => { a with preempt := true }
     s.codeStops = [] ∧ s.me.late = [] ∧ s.me.preempt = true ∧ s.me.isHandler = false) := by decide +kernel

/-- A code entry of the debug table covers the chain at the program counter. -/
def stopsHere : State := { dx with tbufs := [⟨0, 0, 0xFF00, 0xFF00, 0, false, [], 0, 0, 0, 0, 0, 0, [0xFFFFFFFF00000001, 0x100000, 0x100002, 0]⟩] }

theorem w_BoundaryTakesEventsInOrder_stops : (stopsHere.me.life = .ready ∧ stopsHere.me.debugStop = none ∧ stopsHere.codeStops.length = 1) ∧
    (let s := dx.upd fun a => { a with vstop := some ⟨3, 5, ofStream, false⟩, done := [3, 4, 3, 5] }
     s.codeStops = [] ∧ s.me.debugStop = none ∧ s.me.vstop = some ⟨3, 5, ofStream, false⟩ ∧ ∀ d ∈ s.me.done, 3 ≤ d) ∧
    (let s := dx.upd fun a => { a with vstop := some ⟨3, 5, ofStream, false⟩, done := [3, 2, 3, 5] }
     s.codeStops = [] ∧ s.me.debugStop = none ∧ s.me.vstop = some ⟨3, 5, ofStream, false⟩ ∧ ∃ d ∈ s.me.done, d < 3) ∧
    (let f : Failure := ⟨1, ⟨0x25, 0, 0, 0, false, 0⟩, true⟩
     let s := dx.upd fun a => { a with failures := [{ f with armed := false }, f] }
     s.codeStops = [] ∧ s.me.vstop = none ∧ s.me.failures.find? Failure.armed = some f) ∧
    (let s := dx.upd fun a => { a with late := [⟨0x13, 0, 0, 0, false, 0⟩] }
     s.codeStops = [] ∧ s.me.vstop = none ∧ s.me.failures.find? Failure.armed = none ∧ s.me.cycleLimit = false ∧ s.me.uta = false ∧
      s.me.late = [] ++ ⟨0x13, 0, 0, 0, false, 0⟩ :: [] ∧ ∀ q ∈ s.me.late, q.seq ≠ 1 ∧ q.cause ≠ 0x26) ∧
    (let u : Trap := ⟨0x13, 7, 0, 0, false, 1⟩
     let s := dx.upd fun a => { a with late := [illegal, byZero, u, illegal] }
     s.me.late = [illegal, byZero] ++ u :: [illegal] ∧ u.seq = 1 ∧ ∀ q ∈ [illegal, byZero], q.seq ≠ 1 ∧ q.cause ≠ u.cause) := by decide +kernel

/-- Registers 6 to 8: 1.0, 3.0 and a signalling NaN in FP64; with the second state every trap enabled. -/
def floats : State := withX dx [(6, 0x3FF0000000000000), (7, 0x4008000000000000), (8, 0x7FF0000000000001)]
def trapping : State := floats.upd fun a => { a with fpen := 31 }

theorem w_FloatingPointResults : floats.notPending [firstReg (some ⟨3, 6⟩) 6, 7, 6] [] ∧ floats.notPending [7, 9] [] ∧
    (let r := Fmt.fp64.addV 0 false (Fmt.fp64.val (fpBits 3 (floats.x 6))) (Fmt.fp64.val (fpBits 3 (floats.x 7)))
     floats.me.fpen &&& r.flags = 0) ∧
    (let r := Fmt.fp64.addV 0 false (Fmt.fp64.val (fpBits 3 (trapping.x 6))) (Fmt.fp64.val (fpBits 3 (trapping.x 8)))
     trapping.me.fpen &&& r.flags ≠ 0) ∧
    (let r := Fmt.fp64.divV 0 false (Fmt.fp64.val (fpBits 3 (trapping.x 6))) (Fmt.fp64.val (fpBits 3 (trapping.x 5)))
     trapping.me.fpen &&& r.flags ≠ 0) := by decide +kernel

/-- The largest and the smallest finite magnitude of FP32 and a subnormal of E4M3. -/
theorem w_RoundingKeepsRepresentableValues : Fmt.fp32.val 0x7F7FFFFF = .fin false 0xFFFFFF 104 ∧ Fmt.fp32.val 0x80000001 = .fin true 1 (-149) ∧
    Fmt.e4m3.val 1 = .fin false 1 (-9) := by decide +kernel

/-- A class-0 thread, and one whose dispatch queue is full. -/
def scalar : State := dx.upd fun a => { a with cls := 0 }
def full : State := dx.upd fun a => { a with queue := List.replicate 64 (dx.newEntry (.vid h1 ⟨1, .reg 0, none, none⟩) [] 0) }

theorem w_ControlRegisterReads : dx.notPending [3] [] ∧ (crListed (img 1).nat = true ∧ (img 0x61).nat < 0x70 ∧ crListed 0x61 = true) ∧
    (crListed (img 0x70).nat = true ∧ crListed (img 0x7F).nat = true ∧ 0x70 ≤ (img 0x70).nat ∧ dx.observes = true) ∧
    ({ dx with regions := mapIf (fun _ => true) (fun r => { r with observe := false }) dx.regions } : State).observes = false ∧
    crListed (img 7).nat = false ∧ crListed (img 0x80).nat = false ∧ scalar.me.cls = 0 ∧ dx.takesEntry ∧ (full.me.cls ≠ 0 ∧ 64 ≤ full.me.queue.length) := by
  decide +kernel

theorem w_ControlRegisterWrites : dx.notPending [4] [] ∧ ([0x011, 0x012, 0x013, 0x030, 0x031, 0x032, 0x033, 0x034].all fun n => (img n).nat == n) = true ∧
    (img 0x35).nat ∉ [0x011, 0x012, 0x013, 0x030, 0x031, 0x032, 0x033, 0x034] ∧ (dx.x 4).toNat < 2 ^ 33 ∧ 2 ^ 33 ≤ (dx.x 9).toNat ∧
    (dx.x 1).toNat % 8 = 5 ∧ 6 ≤ (dx.x 9).toNat % 8 ∧ scalar.notPending [4] [] ∧ full.notPending [4] [] := by decide +kernel

theorem w_VectorInstructionsJoinTheQueue : Instr.captures (.vlds h1 ⟨9, 3, ⟨2, 4⟩, none⟩) = some (h1, [3, 4]) ∧ scalar.me.cls = 0 ∧
    dx.takesEntry ∧ dx.notPending [3, 4] [] ∧ full.notPending [3, 4] [] ∧ dx.notPending (RegImm.regs (.reg 5) ++ [9]) [] := by decide +kernel

/-- `setvl`, and `mtcr` of `vl` and of `efc`, at the head of the queue. -/
def queuedSetvl : State := after (.setvl h1 ⟨9, .reg 9, some ⟨2, 0⟩⟩) dx
def queuedVl : State := after (.mtcrVl h1 ⟨9, ⟨[], 0⟩⟩) dx
def queuedEfc : State := after (.mtcrEfc h1 ⟨9, ⟨[], 5⟩⟩) dx

theorem w_AddressStageGivesVlAndMask : (queued.me.streams = true ∧ queued.me.vstop = none ∧ queued.me.queue.map Entry.instr = [.vadd h1 ⟨1, .reg 2, none, none⟩] ∧
      (queued.me.queue.all fun e => !e.passed && !e.redo && (Instr.vdest e.instr).isSome) = true) ∧
    (queuedVl.me.streams = true ∧ queuedVl.me.vstop = none ∧ queuedVl.me.queue.map Entry.instr = [.mtcrVl h1 ⟨9, ⟨[], 0⟩⟩]) ∧
    (queuedSetvl.me.streams = true ∧ queuedSetvl.me.vstop = none ∧ queuedSetvl.me.queue.map Entry.instr = [.setvl h1 ⟨9, .reg 9, some ⟨2, 0⟩⟩]) ∧
    (queuedEfc.me.streams = true ∧ queuedEfc.me.vstop = none ∧ queuedEfc.me.queue.map Entry.instr = [.mtcrEfc h1 ⟨9, ⟨[], 5⟩⟩]) := by decide +kernel

/-- The state after an instruction is issued and its entry passes the address stage. -/
def staged (i : Instr) (s : State) : State := after (.vectorAddressStage 1) (after i s)
/-- The first entry of the queue. -/
def headOf (s : State) : Entry := s.me.queue.headD (dx.newEntry (.vid h1 ⟨1, .reg 0, none, none⟩) [] 0)
/-- Four doublewords at x3, or at the end of the mapped part of the address space. -/
def four : State := withX (dx.upd fun a => { a with vl := 4 }) [(10, 0x3FFFFFF8), (11, 0x3FFFFFFC)]
/-- The entry of a load or store of all elements below `n`. -/
def moves (i : Instr) (x : Word) (n : Nat) : Entry := { four.newEntry i [x] 0 with n := n, vl := n, mask := BitVec.ofNat 1024 (2 ^ n - 1) }
/-- What the address stage finds. -/
def found (e : Entry) (k : MemKind) : List Probe × State := four.probeAll e k ((List.range e.n).filter fun i => e.active i)
/-- The entries of the first clauses: all elements good; the store and the load that meet an absent page at element 1, and the load that meets it at 0. -/
def goodLoad : Entry := moves (.vld h1 ⟨4, .reg 3, some ⟨3, 0⟩, none⟩) 0x200000 4
def badStore : Entry := moves (.vst h1 ⟨4, .reg 10, some ⟨3, 0⟩, none⟩) 0x3FFFFFF8 4
def badLoad : Entry := moves (.vld h1 ⟨4, .reg 10, some ⟨3, 0⟩, none⟩) 0x3FFFFFF8 4
def badFirst : Entry := moves (.vld h1 ⟨4, .reg 8, some ⟨3, 0⟩, none⟩) 0x40000000 4
/-- A store of four doublewords past the address stage. -/
def storing : State := staged (.vst h1 ⟨4, .reg 3, some ⟨3, 0⟩, none⟩) four

theorem w_VectorAccessesAndTheirFaults : ([goodLoad, badStore, badLoad, badFirst].all fun e => !e.speculates && !e.redo) = true ∧
    (∀ a, (found goodLoad ⟨false, false, false, false⟩).2.debugFor a = []) ∧
    ((found goodLoad ⟨false, false, false, false⟩).1.all fun p => !p.bad) = true ∧
    ((found badStore ⟨true, false, false, false⟩).1.find? Probe.bad).map Probe.i = some 1 ∧
    ((found badLoad ⟨false, false, false, false⟩).1.find? Probe.bad).map Probe.i = some 1 ∧
    ((found badFirst ⟨false, false, false, false⟩).1.find? Probe.bad).map Probe.i = some 0 ∧
    (storing.clusterAt (headOf storing) 0 ∧ (headOf storing).instr = .vst h1 ⟨4, .reg 3, some ⟨3, 0⟩, none⟩ ∧ Instr.vwidth (headOf storing).instr ∈ [8, 16, 32, 64] ∧
      Memory.wf storing.mem = true ∧ (storing.me.clusterLanes (headOf storing) 0).length = 4 ∧ storing.rdc = [] ∧
      ∀ l ∈ storing.me.clusterLanes (headOf storing) 0, l.place % 8 = 0 ∧ l.place < 2 ^ 52 ∧ storing.lineKey storing.me.loc.mod (l.place / 128) = l.key ∧
        storing.homeDie (l.place / 128) = storing.me.loc.die) := by
  refine ⟨by decide +kernel, fun a => ?_, by decide +kernel, by decide +kernel, by decide +kernel, by decide +kernel, by decide +kernel⟩
  have h : (found goodLoad ⟨false, false, false, false⟩).2.tbufs = [] := by decide +kernel
  simp [State.debugFor, State.tbuf?, h]

/-- An entry of a cluster, and a stop found at entry 3. -/
def adding : State := staged (.vadd h1 ⟨1, .reg 2, some ⟨0, 3⟩, none⟩) four
def stopping : State := dx.upd fun a => { a with vstop := some ⟨3, 5, ofStream, false⟩ }

theorem w_SlipBarriersAndStopsOfTheStream : (adding.me.nextFor 0).isSome = true ∧ dx.me.vstop = none ∧ stopping.me.vstop = some ⟨3, 5, ofStream, false⟩ ∧
    ofStream.seq < 3 ∧ ¬ (({ ofStream with seq := 3 } : Trap).seq < 3 ∨ (({ ofStream with seq := 3 } : Trap).seq = 3 ∧ 5 < 5)) := by decide +kernel

/-- Four elements of 1.0 divided by zero with the DZ trap enabled. -/
def dividing : State := staged (.vfdiv h1 ⟨1, .reg 2, some ⟨3, 3⟩, none⟩) (four.upd fun a => { a with fpen := 31, v := a.v.set 3 0x3FF0000000000000 })

theorem w_ClusterWritesItsOwnElements : (adding.clusterAt (headOf adding) 0 ∧ Instr.vdest (headOf adding).instr = some (1, 32) ∧
      Instr.barrier (headOf adding).instr = false ∧ (headOf adding).speculates = false ∧ (headOf adding).n * 32 ≤ 8192 ∧ (∀ h o, (headOf adding).instr ≠ .vmerge h o) ∧
      fpTrapping (headOf adding) (((adding.me.clusterElems 0 (headOf adding).n).filter fun i => (headOf adding).active i).map
        fun i => (i, (laneVal adding.me (headOf adding) i).flags)) = none) ∧
    (dividing.clusterAt (headOf dividing) 0 ∧ (headOf dividing).speculates = false ∧ dividing.me.life ≠ .exited ∧
      (fpTrapping (headOf dividing) (((dividing.me.clusterElems 0 (headOf dividing).n).filter fun i => (headOf dividing).active i).map
        fun i => (i, (laneVal dividing.me (headOf dividing) i).flags))).isSome = true) := by
  have h : (headOf adding).instr = .vadd h1 ⟨1, .reg 2, some ⟨0, 3⟩, none⟩ := by decide +kernel
  refine ⟨⟨by decide +kernel, by decide +kernel, by decide +kernel, by decide +kernel, by decide +kernel, ?_, by decide +kernel⟩, by decide +kernel⟩
  intro _ _
  rw [h]
  simp

/-- A compare, a predicate operation and cross-cluster entries past the address stage. -/
def comparing : State := staged (.vcmp h2 ⟨2, ⟨[2], 8⟩, ⟨0, 7⟩, none⟩) four
def plogging : State := staged (.plog h1 ⟨2, 1, 3, 0⟩) four

theorem w_ElementAndPredicateResults : (extSel (some ⟨3, 7⟩)).toNat ≤ 3 ∧ (comparing.clusterAt (headOf comparing) 0 ∧
      (headOf comparing).instr = .vcmp h2 ⟨2, ⟨[2], 8⟩, ⟨0, 7⟩, none⟩ ∧ (headOf comparing).n ≤ 1024 ∧ (2 : Reg4).toNat < 12 ∧
      fpTrapping (headOf comparing) (((comparing.me.clusterElems 0 (headOf comparing).n).filter fun i => (headOf comparing).active i).map
        fun i => (i, (lanePred comparing.me (headOf comparing) i).2)) = none) ∧
    (plogging.clusterAt (headOf plogging) 0 ∧ (headOf plogging).instr = .plog h1 ⟨2, 1, 3, 0⟩ ∧ plogging.me.cls ≤ 5) := by decide +kernel

/-- The entry that `i` leaves is cluster 0's next, and within a register. -/
def crosses (i : Instr) : Bool :=
  let s := staged i four
  decide (s.clusterAt (headOf s) 0) && decide ((headOf s).instr = i) && decide ((headOf s).n * Instr.vwidth (headOf s).instr ≤ 8192)
/-- That entry of four FP32 elements, whose values and traps are given; `p1` names the first two. -/
def fpCross (i : Instr) (v : BitVec 8192) (en : BitVec 5) : State := staged i (four.upd fun a => { a with fpen := en, v := a.v.set 2 v, p := a.p.set 1 3 })
/-- An infinity, its negative, 1.0 and a NaN in FP32. -/
def oneInf : BitVec 8192 := 0x7FC000003F800000FF8000007F800000

theorem w_ElementAndPredicateResults_more : (Fmt.fp32.val 0x7FC00000).isNan = true ∧ (Fmt.fp32.val 0x7FC00000).snan = false ∧ (Fmt.fp32.val 0x7F800001).snan = true ∧
    ((Fmt.fp32.val 0x3F800000).isNan = false ∧ cmpVal (Fmt.fp32.val 0x3F800000) (Fmt.fp32.val 0x7F800000) < 0) ∧
    (cmpVal (Fmt.fp32.val 0x80000000) (Fmt.fp32.val 0) = 0 ∧ (Fmt.fp32.val 0x80000000).isNeg = true ∧ (Fmt.fp32.val 0).isNeg = false) ∧
    (let i : Instr := .vsel h1 ⟨5, .reg 6, some ⟨2, 7⟩, some ⟨false, false, true, 2⟩⟩
     let s := staged i four
     crosses i = true ∧ (headOf s).n * 32 ≤ 8192 ∧ widthBits (extSel (some ⟨2, 7⟩)) ∈ [8, 16, 32, 64]) := by decide +kernel

theorem w_CrossClusterResults : ([.vredsum h1 ⟨1, 2, some ⟨3, 0⟩, none⟩, .vredmax h1 ⟨1, 2, some ⟨0, 0⟩, none⟩, .vredmin h1 ⟨1, 2, some ⟨1, 0⟩, none⟩,
      .vscan h1 ⟨1, 2, some ⟨1, 0⟩, mk false true 1⟩, .vcompress h1 ⟨1, 2, none, mk false true 1⟩, .vperm h1 ⟨1, .reg 2, some ⟨2, 3⟩, mk false true 1⟩,
      .vslide h1 ⟨1, im 1, ⟨2, 3⟩, none⟩, .vslide h1 ⟨1, .reg 3, ⟨2, 3⟩, mk false true 1⟩, .pcnt h1 ⟨1, 2, none⟩, .pfirst h1 ⟨1, 2, none⟩].all crosses) = true ∧
    (headOf (staged (.vscan h1 ⟨1, 2, some ⟨1, 0⟩, mk false true 1⟩) four)).zeroing = true := by decide +kernel

/-- A sum whose flags are not trapped and one whose flags are. -/
theorem w_CrossClusterResults_sums : (let i : Instr := .vfredsum h1 ⟨1, 2, some ⟨0, 0⟩, none⟩
      let r := fun (s : State) => treeSum .fp32 0 (headOf s).sp 2 fun j => if j < 4 then some (s.me.elem 2 32 j) else none
      let s := fpCross i oneInf 0
      let t := fpCross i oneInf 31
      crosses i = true ∧ s.clusterAt (headOf s) 0 ∧ (headOf s).n = 4 ∧ (4 ≤ 2 ^ 2 ∧ 2 ^ (2 - 1) < 4 ∧ 1 ≤ 2 ^ 0) ∧ (headOf s).en &&& (r s).2 = 0 ∧
        t.clusterAt (headOf t) 0 ∧ (headOf t).en &&& (r t).2 ≠ 0 ∧ 0 < (headOf t).n ∧ t.me.life ≠ .exited) := by decide +kernel

/-- The carries of a `vcvtef` of FP32 to E4M3. -/
def carries (s : State) : Nat → Nat
  | 0 => s.me.efc.toNat
  | k + 1 => (efStep .fp32 .e4m3 (headOf s).sp (s.me.elem 2 32 k) (carries s k)).2

theorem w_CrossClusterResults_conversions : (let i : Instr := .vcvtef h1 ⟨1, 2, 0, 3, none⟩
      let s := fpCross i oneInf 0
      s.clusterAt (headOf s) 0 ∧ (headOf s).instr = i ∧ (headOf s).actives = [0, 1, 2, 3] ∧ fmtOf 3 = .e4m3 ∧ carries s 0 = s.me.efc.toNat ∧
        ((List.range 4).all fun k => (headOf s).en &&& (efStep .fp32 .e4m3 (headOf s).sp (s.me.elem 2 32 k) (carries s k)).1.flags == 0) = true) ∧
    (let i : Instr := .vcvt h1 ⟨4, 2, 0, 5, mk false true 1⟩
     let s := fpCross i 0x3F8000003F800000 0
     s.clusterAt (headOf s) 0 ∧ (headOf s).instr = i ∧ fmtMx 5 = true ∧ (headOf s).en = 0 ∧ (headOf s).n ≤ (headOf s).vl ∧ (headOf s).vl ≤ 1024) ∧
    (let i : Instr := .vcvt h1 ⟨4, 2, 6, 0, none⟩
     let s := fpCross i 0x3F8000003F800000 0
     s.clusterAt (headOf s) 0 ∧ (headOf s).instr = i ∧ fmtMx 0 = false ∧ fmtMx 6 = true ∧ (headOf s).en = 0 ∧ (headOf s).n * 32 ≤ 8192) ∧
    (let i : Instr := .vcvt h1 ⟨2, 2, 0, 1, none⟩
     let s := staged i four
     crosses i = true ∧ Instr.vdest i = some (2, 16) ∧ Instr.barrier i = false ∧ Instr.selfWidth i = true ∧ (headOf s).src = none ∧ (headOf s).n * 16 ≤ 8192 ∧
       (headOf s).speculates = false ∧
       fpTrapping (headOf s) (((s.me.clusterElems 0 (headOf s).n).filter fun i => (headOf s).active i).map fun i => (i, (laneVal s.me (headOf s) i).flags)) = none) := by
  decide +kernel

theorem w_CrossClusterResults_scales : (∃ v ∈ [Fmt.fp32.val 0x3F800000, Fmt.fp32.val 0x7F800000], v.finite = false) ∧
    (∀ v ∈ [Fmt.fp32.val 0, Fmt.fp32.val 0x80000000], v.finite = true ∧ v.expo = none) ∧
    (let vs := [Fmt.fp32.val 0, Fmt.fp32.val 0x40800000, Fmt.fp32.val 0x3F800000]
     (vs.all fun v => v.finite && (v.expo.all fun n => decide (n ≤ 2))) = true ∧ ∃ v ∈ vs, v.expo = some 2) := by decide +kernel

/-- A region with a quota of one counted line, without and with that line. -/
def quota (n : Nat) (l : List Counted) : State :=
  { dx with regions := mapIf (fun _ => true) (fun r => { r with counted := n }) dx.regions, counted := l }
/-- The line at 0x200000, with a count. -/
def lineOf (count : Nat) : Counted := ⟨0, 0x200000 / 128, count, 0xFF00, 5, 0, (dx.via ⟨0, 0, 0⟩ 0xFF00).key⟩

/-- A list with tail 2 and slots from 0x201000 at 0x200000; one near the end of the mapped part; `vappend` of four elements to it, before its atomic step. -/
def listed : State := withX (withM four [(0x200000, 2), (0x200008, 0x201000), (0x200020, 0), (0x200028, 0x3FFFFFF8)]) [(12, 0x200001), (13, 0x200020), (14, 0x40000000)]
def appendOf (r : Reg) : Entry :=
  { listed.newEntry (.vappend h1 ⟨4, r, some ⟨3, 0⟩, none⟩) [listed.x r] 0 with n := 4, vl := 4, mask := 15 }
def appended (r : Reg) : State := staged (.vappend h1 ⟨4, r, some ⟨3, 0⟩, none⟩) listed

theorem w_CrossClusterResults_appends : ((appendOf 3).stepped = false ∧ (appendOf 3).actives = [0, 1, 2, 3] ∧ (appendOf 12).xs.getD 0 0 = 0x200001) ∧
    (listed.translate listed.mySpace 0x40000000 .write).1.isOk = false ∧
    okWith (listed.translate listed.mySpace 0x200000 .write) (fun q t => let u := t.reachHome q.2 (q.1 / 128)
      (u.counted? q.2.loc.mod (q.1 / 128)).isNone && !u.poisoned q.2.loc.mod (q.1 / 128) && (({ u with counted := [lineOf 1] } : State).counted? 0 (0x200000 / 128)).isSome) = true ∧
    (∀ a, listed.debugFor a = []) ∧
    (let e := { appendOf 3 with stepped := true, tok := 0x201000, aux := 2 }
     ((listed.upd fun a => a.putEntry e).probeSlots e (e.slots 8)).1.all (fun p => !p.bad) = true) ∧
    (let e := { appendOf 3 with stepped := true, tok := 0x3FFFFFF8, aux := 0 }
     (((listed.upd fun a => a.putEntry e).probeSlots e (e.slots 8)).1.find? Probe.bad).map Probe.i = some 1) := by
  refine ⟨by decide +kernel, by decide +kernel, by decide +kernel, fun a => ?_, by decide +kernel, by decide +kernel⟩
  have h : listed.tbufs = [] := by decide +kernel
  simp [State.debugFor, State.tbuf?, h]

theorem w_CrossClusterResults_stores : (appended 3).clusterAt (headOf (appended 3)) 0 ∧ (headOf (appended 3)).instr = .vappend h1 ⟨4, 3, some ⟨3, 0⟩, none⟩ ∧
    Memory.wf (appended 3).mem = true ∧ (headOf (appended 3)).lanes.length = 4 ∧ (appended 3).rdc = [] ∧
    ∀ l ∈ (headOf (appended 3)).lanes, l.place % 8 = 0 ∧ l.place < 2 ^ 52 ∧ (appended 3).lineKey (appended 3).me.loc.mod (l.place / 128) = l.key ∧
      (appended 3).homeDie (l.place / 128) = (appended 3).me.loc.die := by decide +kernel

/-- A merge with a recorded fault mask, with and without zeroing, and `vfault`; the other clusters past the entry. -/
def merging (i : Instr) (m : BitVec 1024) : State := (staged i four).upd fun a => { a with fmask := m }
def plainMerge : Instr := .vmerge h1 ⟨1, 2, none, none⟩
def zeroMerge : Instr := .vmerge h1 ⟨1, 2, none, mk false true 1⟩
def faultRead : Instr := .vfault h1 ⟨2⟩
def ahead (s : State) : State := s.upd fun a => { a with done := mapIf (fun _ => true) (· + 1) a.done |>.set 0 (a.done.getD 0 0), vfmcCount := 3 }
/-- The fault that the merge finds for cluster 0. -/
def faultOf (s : State) : Option Nat := (s.me.clusterElems 0 (headOf s).n).find? fun i => (headOf s).active i && (s.me.maskAt (headOf s).seq).getLsbD i
def logOf : List VfmcLog := [⟨1, 0, 2, 5, false, 6, 0⟩, ⟨4, 3, 1, 7, false, 8, 0⟩]

theorem w_DeferredFaultsOfSpeculation : (logOrdered logOf ∧ (⟨2, 5, 1, 5, true, 0, 4⟩ : VfmcLog).elem ≤ 1024) ∧
    ([(plainMerge, 2), (plainMerge, 0), (zeroMerge, 0), (faultRead, 2)].all fun q => let s := merging q.1 q.2
      decide (s.clusterAt (headOf s) 0) && decide ((headOf s).instr = q.1) && decide (logOrdered s.me.vfmcLog) && decide ((headOf s).n * 32 ≤ 8192)) = true ∧
    (faultOf (merging plainMerge 2) = some 1 ∧ (merging plainMerge 2).me.life ≠ .exited) ∧ faultOf (merging plainMerge 0) = none ∧
    (headOf (merging zeroMerge 0)).zeroing = true ∧ ((2 : Reg4).toNat < 12 ∧ (merging faultRead 2).me.cls ≤ 5) ∧
    (let s := ahead (merging faultRead 2)
     s.clusterAt (headOf s) 0 ∧ (s.me.queue.map Entry.seq).head? = some (headOf s).seq ∧
      ((List.range s.me.done.length).all fun c => c == 0 || decide ((headOf s).seq < s.me.done.getD c 0)) = true) := by decide +kernel

theorem w_CountedLinesFillAndDrain : dx.saved = [] ∧ dx.homeDie (0x200000 / 128) = homeVia.loc.die ∧
    ((quota 1 [lineOf 1]).counted? 0 (0x200000 / 128)).isSome = true ∧
    (let s := quota 0 []
     s.counted? 0 (0x200000 / 128) = none ∧ ((s.region? 0 homeVia.rid).map fun r => s.left r Region.counted).getD 0 ≤ (s.counted.filter fun c => c.ep == 0 && c.rid == homeVia.rid).length) ∧
    (let s := quota 1 []
     s.counted? 0 (0x200000 / 128) = none ∧ (s.counted.filter fun c => c.ep == 0 && c.rid == homeVia.rid).length < ((s.region? 0 homeVia.rid).map fun r => s.left r Region.counted).getD 0 ∧
       (s.pinWay homeVia 0 (0x200000 / 128)).isSome = true) ∧
    ((quota 1 [lineOf 2]).counted? 0 (0x200000 / 128) = some (lineOf 2) ∧ (lineOf 2).key = homeVia.key ∧ 1 < (lineOf 2).count ∧ (lineOf 1).count ≤ 1 ∧
      ∀ q ∈ [lineOf 2], ∀ r ∈ [lineOf 2], q.ep = r.ep → q.line = r.line → q = r) := by decide +kernel

/-- Operands of matrix instructions, with the slice of core 0 free. -/
def mats : State := withX da [(1, 0x11), (2, 0x200000), (3, 0x200040), (4, 7), (5, 1), (6, 0x200001), (7, 3), (8, 0x10000)]

theorem w_MatrixInstructions : (mats.slice? mats.me.loc = none ∧ (mats.takeSlice.slice? mats.me.loc).map Slice.holder = some (some mats.me.uid)) ∧
    mats.me.isHandler = false ∧ mats.sliceHeld mats.me.loc mats.me.uid = false ∧ mats.notPending [1] [] ∧ cfgLegal (mats.x 1) = true ∧
    cfgLegal (mats.x 4) = false ∧ ((mats.x 7).toNat < 2 ^ 16 ∧ (mats.x 7).getLsbD mats.me.loc.column = true ∧ contiguousRun 3 = true) ∧
    ¬ ((mats.x 8).toNat < 2 ^ 16) ∧ contiguousRun 5 = false ∧ mats.satSlot 0 ∧ attrBad (saPlain mats.me.sattr) false = false ∧
    mats.notPending [2, 2 + 1, 9] [] := by decide +kernel

/-- A handler, and a slice that another thread holds. -/
def matsHandler : State := mats.upd fun a => { a with kind := .handler 3 }
def matsHeld : State := { mats with slices := [⟨mats.me.loc, some 77, 0xFF00, Tile.zero, Tile.zero⟩] }

theorem w_MatrixInstructions_tiles : ((mats.x 2).toNat % 64 = 0 ∧ (mats.x 3).toNat % 64 = 0 ∧ mats.me.mgang = BitVec.ofNat 16 (2 ^ mats.me.loc.column)) ∧
    ((img 2).field 1 1 = 1 ∧ (img 1).field 1 1 = 0) ∧ mats.takesEntry ∧ 64 ≤ mats.me.mvl 32 ∧
    (matsHandler.me.isHandler = true ∧ matsHandler.notPending [1] [] ∧ matsHandler.notPending [2, 2 + 1, 9] []) ∧ matsHeld.sliceHeld mats.me.loc mats.me.uid = true := by decide +kernel

/-- A gang of columns 0 and 1: the first member arrives, and one that arrived before it on column 1, of the same and of another tile operation. -/
def ganging : State := mats.upd fun a => { a with mgang := 3 }
def arrived1 : State := after (.mma h1 ⟨9, img 1, ⟨0, 2⟩⟩) ganging
def ident1 : List Nat := gangIdent ganging.me (ganging.x 2) 1
def member (l : Loc) (i : List Nat) : Arrival := ⟨1, l, 0, i, ⟨1, 1, 0x11, 0, 0x200000, 0x200040, 3, 0, false, [], []⟩, h1, 9, 0, 262144⟩
def matesSame : State := { ganging with barrier := [member ⟨0, 0, 1⟩ ident1] }
def matesOther : State := { ganging with barrier := [member ⟨0, 0, 1⟩ (ident1.map fun n => n + 1)] }
/-- The mates of an arrival. -/
def matesOf (s : State) : List Arrival := (s.rowArrivals s.me).filter fun b => b.op.mgang &&& s.me.mgang != 0

/-- A tile operation of INT8 with one group done, a load of an accumulator begun, and a drain of two lines begun. -/
def tileOp : State := (after (.mma h1 ⟨9, img 6, ⟨0, 2⟩⟩) (mats.upd fun a => { a with mcfgv := 0x866 })).updSat 1 fun t => { t with begun := true, units := 1 }
def tileLoad : State := (after (.mldacc h1 ⟨9, img 0, ⟨0, 2⟩⟩) (withX mats [(3, 0x200)])).updSat 1 fun t => { t with begun := true }
def drainSat : State := (after (.mclr h1 ⟨9, img 0⟩) mats).updSat 1 fun t =>
  { t with begun := true, task := .mdrn 0 false 0x11 [⟨0, 0x200000, 0, 0, false, none⟩, ⟨1, 0x200004, 0, 0, false, none⟩, ⟨128, 0x200080, 0, 0, false, none⟩] [] [] }
/-- The only satellite. -/
def oneSat (s : State) : Sat := s.sats.headD (demo.satellite 0 0 .matrix true (.mclr 0))
/-- The operation of a tile satellite. -/
def opOf (t : Sat) : TileOp := match t.task with | .mma o => o | _ => ⟨0, 0, 0, 0, 0, 0, 0, 0, false, [], []⟩

theorem w_GangsAndTileWork : (ganging.me.mgang ≠ BitVec.ofNat 16 (2 ^ ganging.me.loc.column) ∧ matesOf ganging = [] ∧ ganging.satSlot 0 ∧
      arrivedColumns [member ganging.me.loc ident1] ≠ ganging.me.mgang.toNat) ∧
    (matesSame.satSlot 0 ∧ ((matesOf matesSame).map fun b => identDiff b.ident ident1) = [0] ∧
      arrivedColumns (matesOf matesSame ++ [member ganging.me.loc ident1]) = matesSame.me.mgang.toNat) ∧
    (matesOther.satSlot 0 ∧ ((matesOf matesOther).any fun b => identDiff b.ident ident1 != 0) = true) ∧
    ((arrived1.barrier.map Arrival.uid) = [1] ∧ (arrived1.agent? 1).isSome = true ∧
      (ticked arrived1 262144).cycle ⟨0, 0, 0⟩ = (arrived1.barrier.headD (member ⟨0, 0, 0⟩ [])).at_ + 262144 ∧
      arrived1.cycle ⟨0, 0, 0⟩ < (arrived1.barrier.headD (member ⟨0, 0, 0⟩ [])).at_ + 262144) ∧
    (let t := oneSat tileOp
     tileOp.satIs 1 t ∧ t.task = .mma (opOf t) ∧ t.begun = true ∧ t.terminal = false ∧ t.cancel = false ∧ t.units = 1 ∧
      tileOp.gangOf t (opOf t) = [(t, opOf t)] ∧ cfgAcc (opOf t).cfg = 8 ∧ okWith (tileOp.readA t (opOf t) 1) (fun _ u => okWith (u.readB t (opOf t) 1) fun _ _ => true) = true) ∧
    (let t := oneSat tileLoad
     tileLoad.satIs 1 t ∧ t.task = .mldacc 0 false tileLoad.me.mcfgv 0x200000 0x200 [] ∧ t.begun = true ∧ t.terminal = false ∧ t.cancel = false ∧
      rowFind (fun r => umod 64 ((0x200000 : Int) + 0x200 * r)) 512 64 0 t.units = some (0, 0) ∧
      okWith (tileLoad.vread (tileLoad.satSpace t .tile) ((0x200000 + (blockUnit 0x200000 512 0).1) % 2 ^ 64) (blockUnit 0x200000 512 0).2) (fun _ _ => true) = true ∧
      (rowFind (fun r => umod 64 ((0x200000 : Int) + 0x200 * r)) 512 64 0 1).isSome = true) ∧
    (let t := oneSat drainSat
     drainSat.satIs 1 t ∧ t.begun = true ∧ t.terminal = false ∧ t.cancel = false ∧ saReaders t.sattr = 0 ∧
      (match t.task with
        | .mdrn _ _ cfg els staged rows => match (drainCut false els).1.getLast? with
          | some last =>
            let new := (drainElems cfg false (drainCut false els).1 ((drainSat.tile t.loc 0).running rows)).1
            let here := (staged ++ new).filter fun b => b.line == last.line
            let moved := Tile.drained (drainSat.tile t.loc 0, drainRows rows new) here
            !(drainCut false els).2.isEmpty && okWith ((drainSat.updTile t.loc 0 fun _ => moved.1).drainPut { drainSat.via t.loc t.rid with key := last.key }
              (t.tag (last.val.getD 0 / 128 * 128)) last.line (lineImage here).1 (maskRuns (lineImage here).2)) fun _ _ => true
          | none => false
        | _ => false) = true) ∧
    (let e : Staged := ⟨0, [1], 5, 2, 0x3C000000, false⟩
     e.row < 64 ∧ (∀ r ∈ (Tile.drained (Tile.zero, [⟨5, 0, 0⟩]) [{ e with col := 1 }]).2, r.row = e.row → r.upto ≤ e.col) ∧ ∀ a ∈ [e], a.row ≠ 6) := by
  decide +kernel

/-- Operands of copies: x1 to x4 a count, an address, a scratchpad address and a count, in a region with 256 bytes of each lane. -/
def scr : State := { da with allocs := [⟨⟨0, 0, 0⟩, 0xFF00, 256⟩] }
def copies : State := withX scr [(1, 128), (2, 0x200000), (3, 0x80), (4, 4096), (5, 0x10000000000), (6, 0x200001), (7, 0xFFFFFFFFFF), (10, 0x200000), (11, 0x200080), (12, 0x200001)]
/-- The scratchpad operand at 0x80. -/
def scrOp : Scr := (copies.me.scrOperand 0x80).getD ⟨[], 0, 0, 0⟩
/-- A reduction in FP32; no satellite slot; a dependence on another region's token; lines already on their way. -/
def reducing : State := copies.upd fun a => { a with sattr := 0x1000 }
def noSlot : State := { copies with regions := mapIf (fun _ => true) (fun r => { r with satslots := 0 }) copies.regions }
def foreign : State := copies.upd fun a => { a with safter := 0x1234000000000000 }
def posted : State := withX (after (.cpypToScratch h1 ⟨8, .reg 1, ⟨0, 2⟩⟩) copies) [(1, 128), (2, 0x200000), (3, 0x80)]
/-- A key to 4096 bytes of this module's memory with given rights, and with it and its operands in k2 and x13 to x18. -/
def keyWith (rights kind : Nat) : Key := da.signed (keyOf (0xFF + 256 + kind * 2 ^ 48) 0x300000 (4096 + rights * 2 ^ 40 + da.myHolder * 2 ^ 48) 0)
def keyed (rights : Nat) : State := withX (scr.setK 2 (keyWith rights 0)) [(13, 3968), (14, 0x200000), (15, 128), (16, 3969), (17, 0x80), (18, 0x8000000000000080), (19, 0)]

theorem w_SatellitesAreCreated : copies.notPending (2 :: [2 + 1] ++ RegImm.regs (.reg 1) ++ [8]) [] ∧ (copies.val (.reg 5)).toNat = 2 ^ 40 ∧
    (copies.val (.reg 7)).toNat = 2 ^ 40 - 1 ∧ attrBad copies.me.sattr false = false ∧ attrBad copies.me.sattr true = false ∧
    redAligned copies.me.sattr [0x200000, 0x80, 128] = true ∧ (attrBad reducing.me.sattr false = false ∧ redAligned reducing.me.sattr [0x200001, 0x200000, 128] = false ∧
      redAligned reducing.me.sattr [0x200000, 0x200080, 128] = true) ∧
    (copies.me.scrOperand 0x80 = some scrOp ∧ scrOp.aligned 128 = true) ∧ ((copies.x 2).toNat % 64 = 0 ∧ (copies.x 6).toNat % 64 ≠ 0) ∧
    copies.satSlot 0 ∧ foreign.afterForeign = true ∧ (noSlot.afterForeign = false ∧ noSlot.freeSatSlot noSlot.me.loc noSlot.me.rid = none) ∧
    copies.postCauses copies.me.loc copies.me.rid (copies.postedLines copies.me.loc copies.me.rid scrOp 128) = none ∧
    (posted.satSlot 1 ∧ (posted.postCauses posted.me.loc posted.me.rid (posted.postedLines posted.me.loc posted.me.rid scrOp 128)).isSome = true) ∧
    (copies.notPending (2 :: [] ++ RegImm.regs (.reg 1) ++ [8]) [] ∧ (copies.x 2).toNat % 128 = 0 ∧ (copies.x 6).toNat % 128 ≠ 0 ∧ 129 % 128 ≠ 0) ∧
    (copies.depStatus ≠ some 0 ∧ copies.depStatus ≠ some 2 ∧ copies.depStatus ≠ some 3) ∧
    (let t := oneSat (after (.cpy h1 ⟨8, .reg 1, ⟨0, 2⟩⟩) copies)
     t.rid < 2 ^ 16 ∧ t.kind < 2 ^ 8 ∧ t.loc.die < 8 ∧ t.loc.core < 128 ∧ t.slot < 256 ∧ t.gen < 2 ^ 16) := by decide +kernel

theorem w_SatellitesAreCreated_keyed : (let s := keyed 7
      s.notPending [13, 13 + 1, 13 + 2, 12] [2] ∧ (s.x 15).toNat / 2 ^ 40 % 2 ^ 23 = 0 ∧ (s.x 15).toNat.testBit 63 = false ∧
      redAligned s.me.sattr [0x200000, 128, kBase (s.k 2) + 3968] = true ∧ (s.x 18).toNat.testBit 63 = true ∧ (s.x 18).toNat / 2 ^ 40 % 2 ^ 23 = 0 ∧
      s.me.scrOperand (s.x 17) = some scrOp ∧ scrOp.aligned 128 = true ∧ redAligned s.me.sattr [128, kBase (s.k 2) + 3968] = true ∧ attrBad s.me.sattr true = false ∧
      (kRouted (s.k 2) s.me.loc.mod = true ∧ kKind (s.k 2) < 2 ∧ kHas (s.k 2) 0 = true ∧ kHas (s.k 2) 1 = true) ∧
      (s.x 13).toNat + 128 = kLen (s.k 2) ∧ kLen (s.k 2) < (s.x 16).toNat + 128 ∧ s.satSlot 0 ∧ saRedop s.me.sattr = 0 ∧
      s.postCauses s.me.loc s.me.rid (s.postedLines s.me.loc s.me.rid scrOp 128) = none) ∧
    (kHas ((keyed 2).k 2) 0 = false ∧ kHas ((keyed 1).k 2) 1 = false) ∧ (2 ≤ kKind (keyWith 7 2) ∧ attrBad copies.me.sattr (kKind (keyWith 7 2) == 1) = false) :=
  by decide +kernel

/-- A copy whose token is in x8, with a foreign token and two times in x9 to x11; ended; without an owner; of another owner; reaped. -/
def copying : State := withX (after (.cpy h1 ⟨8, .reg 1, ⟨0, 2⟩⟩) copies) [(9, 0x1234000000000000), (10, 5), (11, 10 ^ 12)]
def ended : State := copying.updSat 1 fun t => { t with status := 0 }
def orphan : State := copying.updSat 1 fun t => { t with owner := none }
def others : State := copying.updSat 1 fun t => { t with owner := some 77 }
def reaped : State := { copying with sats := [] }
/-- The token in x8 names the satellite 1. -/
def live (s : State) : Bool := match s.named (s.x 8) with | .live t => decide (t = oneSat s) | _ => false
def stale (s : State) : Bool := match s.named (s.x 8) with | .stale => true | _ => false

theorem w_TokenInstructions : copying.notPending [8, 12] [] ∧ copying.notPending [8, 12, 12 + 1, 12 + 2, 12 + 3] [] ∧ copying.foreign (copying.x 8) = false ∧
    ([copying, ended, orphan, others].all live) = true ∧ (oneSat copying).terminal = false ∧ ((oneSat ended).terminal = true ∧ ended.satIs 1 (oneSat ended)) ∧
    copying.me.isHandler = false ∧ (reaped.foreign (reaped.x 8) = false ∧ stale reaped = true) ∧ copying.foreign (copying.x 9) = true ∧
    (oneSat orphan).owner = none ∧ (oneSat copying).owner = some copying.me.uid ∧ (oneSat others).owner = some 77 ∧
    (later copying 5).meridian 0 = copying.meridian 0 + 5 ∧ copying.meridian copying.me.loc.mod < (copying.x 11).toNat ∧
    ((later copying 5).x 10).toNat ≤ (later copying 5).meridian copying.me.loc.mod := by decide +kernel

theorem w_TokenInstructions_waits : (reaped.allTerminal reaped.me.uid = true ∧ reaped.me.isHandler = false) ∧
    copying.allTerminal copying.me.uid = false ∧ matsHandler.me.isHandler = true ∧ (⟨[0, 0, 0, 0x08], 0⟩ : Imm).word.toNat < 2 ^ 33 ∧
    2 ^ 33 ≤ (⟨[0xFF], 31⟩ : Imm).word.toNat := by decide +kernel

/-- The satellite with a change. -/
def satWith (f : Sat → Sat) : State := copying.updSat 1 f
/-- A collective at its first step, of action 2 and of a reserved action, and one that waits for its notice. -/
def collWith (w : Nat) (cs : CollState) : State := withM (satWith fun t => { t with begun := true, task := .coll 0x200000 0x200000 128 cs }) [(0x200020, w)]
def atStep : CollState := ⟨some [0, 0, 0, 1000], 0, none, 0, 0, 0, none, none, false⟩
def noticing : CollState := ⟨some [0, 0, 0, 1000], 0, some [1, 0, 0, 0], 0, 0, 0, some 0, some 10, false⟩

theorem w_SatelliteEvents : (copying.sats.find? fun q => q.sid == 2) = none ∧
    (let s := satWith fun t => { t with status := 5, launch := 0 }
     s.satIs 1 (oneSat s) ∧ (oneSat s).status = 5 ∧ (oneSat s).launch ≤ s.meridian 0) ∧
    (let s := satWith fun t => { t with status := 5, launch := 10 ^ 12 }
     s.meridian 0 < (oneSat s).launch) ∧
    (copying.satEligible (oneSat copying) = true ∧ copying.engineFree (oneSat copying) = true ∧ copying.servedNext (oneSat copying) = true) ∧
    (let s := satWith fun t => { t with task := .mclr 0, engine := .matrix }
     s.satEligible (oneSat s) = true ∧ s.engineFree (oneSat s) = true ∧ s.servedNext (oneSat s) = true) ∧
    (let s := satWith fun t => { t with begun := true }
     s.satEligible (oneSat s) = false) ∧
    (let s := ticked copying 16384
     (oneSat s).status = 1 ∧ (oneSat s).begun = false ∧ (oneSat s).after = 0 ∧ min 7 ((oneSat s).prio + (oneSat s).aged) < 7 ∧
      (oneSat s).waitFrom + 16384 = s.cycle ⟨0, 0, 0⟩) := by decide +kernel

theorem w_SatelliteEvents_promises : (let s := satWith fun t => { t with promise := some 0 }
      (oneSat s).promise = some 0 ∧ (oneSat s).terminal = false ∧ (oneSat s).missed = false ∧ 0 ≤ s.meridian 0 ∧ saPromise (oneSat s).sattr = false) ∧
    (let s := satWith fun t => { t with promise := some 0, sattr := 2 ^ 32 }
     saPromise (oneSat s).sattr = true ∧ (oneSat s).owner = some s.me.uid) := by decide +kernel

theorem w_SatelliteEvents_copies : (let s := satWith fun t => { t with begun := true }
      (oneSat s).terminal = false ∧ (oneSat s).req = none ∧ (oneSat s).cancel = false ∧ (oneSat s).task = .copy (.generic 0x200000) (.generic 0x80) 128 1 0 ∧
      copyUnitAt (.generic 0x80) 128 1 0 (oneSat s).units = some ⟨0, 0, 128, []⟩ ∧ s.outOfOrder (oneSat s) (.generic 0x80) 0 ⟨0, 0, 128, []⟩ = false ∧ okWith (s.vread (s.satSpace (oneSat s) .copy) 0x200000 128) (fun _ _ => true) = true ∧
      okWith (s.vread (s.satSpace (oneSat s) .copy) 0x40000000 128) (fun _ _ => true) = false) := by decide +kernel

theorem w_SatelliteEvents_collectives : (let s := collWith 2 { atStep with base := 10 ^ 12 }
      s.meridian 0 < 10 ^ 12) ∧
    (let s := collWith 2 atStep
     s.satIs 1 (oneSat s) ∧ (oneSat s).begun = true ∧ (oneSat s).terminal = false ∧ atStep.cur = none ∧ 0 ≤ s.meridian 0 ∧ (oneSat s).cancel = false ∧
      okWith (s.vread (s.satSpace (oneSat s) .coll) (0x200000 + 32) 32) (fun bs _ => let c := dwords 4 bs
        decide (stAction c = 2) && decide (bits (dw c 0) 24 40 = 0) && decide (bits (dw c 0) 4 4 = 0)) = true) ∧
    (let s := collWith 3 atStep
     okWith (s.vread (s.satSpace (oneSat s) .coll) (0x200000 + 32) 32) (fun bs _ => decide (3 ≤ stAction (dwords 4 bs))) = true) ∧
    (noticing.retryAt = some 10 ∧ noticing.cur = some [1, 0, 0, 0] ∧ noticing.waiting = false ∧ (let s := later (collWith 2 noticing) 1000000; 10 ≤ s.meridian 0 ∧ 0 + 1000000 ≤ s.meridian 0)) ∧
    ({ noticing with retryAt := none, noticeT := none, cur := some [2, 0, 0, 0] } : CollState).waiting = true ∧ noticing.noticeT = some 0 := by decide +kernel

/-- Threads parked on a time, on their satellites and at the gang barrier, with no trace buffer. -/
theorem w_SatelliteEvents_parks : copying.tbuf? 0 0 copying.me.rid = none ∧
    (copying.upd fun a => { a with life := .parked (.sleepu 0) }).me.life = .parked (.sleepu 0) ∧
    (copying.upd fun a => { a with life := .parked .swaitall }).me.life = .parked .swaitall ∧ arrived1.me.life = .parked .gang := by decide +kernel

/-- Keys in k2 to k5: of this holder; of kind 6; without the right to be given; with a path set; and values in x20 to x25. -/
def keys : State := withX ((((da.setK 2 (keyWith 0xFF 0)).setK 3 (keyWith 0xFF 6)).setK 4 (keyWith 0x1F 0)).setK 5
  (da.signed (keyOf (5 + 10 * 256 + 3 * 65536 + 7 * 2 ^ 24) 0x300000 (4096 + 0xFF * 2 ^ 40 + da.myHolder * 2 ^ 48) 0)))
  [(20, 64), (21, 4032), (22, 4033), (23, 0x10001), (24, 0x20000), (25, 0x020301), (26, 0x200020)]

theorem w_KeyInstructions : keys.notPending (ADR.regs ⟨2, .reg 26, none, none⟩) [keyReg 2] ∧ keys.addr ⟨2, .reg 26, none, none⟩ = 0x200020 ∧
    reachable keys 0x200020 32 .read (fun p t => !t.readBad p.2 p.1) ∧ reachable keys 0x200020 32 .write (fun _ _ => true) ∧ keys.notPending [] [2, 1] :=
  ⟨by decide +kernel, by decide +kernel, reachable_of (by decide +kernel), reachable_of (by decide +kernel), by decide +kernel⟩

theorem w_KeyInstructions_derive : keys.notPending [20, 20 + 1] [2, 1] ∧ keys.notPending [20] [2, 1] ∧ keys.tagOk (keys.k 7) = false ∧
    (let k := keys.signed (setField (keys.k 2) 176 16 7)
     keys.tagOk k = true ∧ kHolder k ≠ keys.myHolder) ∧ (keys.tagOk (keys.k 3) = true ∧ kHolder (keys.k 3) = keys.myHolder ∧ 5 < kKind (keys.k 3)) ∧
    (keys.tagOk (keys.k 2) = true ∧ kHolder (keys.k 2) = keys.myHolder ∧ kKind (keys.k 2) ≤ 5 ∧ 64 + 4032 = kLen (keys.k 2) ∧ kHas (keys.k 2) 5 = true) ∧
    (keys.x 20 = 64 ∧ keys.x 21 = 4032 ∧ keys.x 23 = 0x10001 ∧ 0x10001 % 2 ^ 16 ≠ 0xFFFF ∧ keys.x 24 = 2 ^ 17) ∧
    (keys.tagOk (keys.k 4) = true ∧ kHas (keys.k 4) 5 = false) ∧
    (keys.tagOk (keys.k 5) = true ∧ kHolder (keys.k 5) = keys.myHolder ∧ kEgr (keys.k 5) ≠ 255 ∧ keys.x 25 = 0x020301 ∧ 1 + (3 - 1) * 2 < kPaths (keys.k 5)) ∧
    kEgr (keys.k 2) = 255 := by decide +kernel

/-- A key in k6 to 4096 bytes of the vault of port 5, and a line that came through it, at offset 128. -/
def vaulted : State := keys.setK 6 (da.signed (keyOf (5 + 256 + 517 * 2 ^ 24) 0x300000 (4096 + 0xFF * 2 ^ 40 + da.myHolder * 2 ^ 48) 0))
def keptLine : State := vaulted.keyedKeep ⟨9, vaulted.me.loc, 0xFF00, 517, Packet.request vaulted.me.loc (vaulted.k 6) 128 1 0 0 [] [],
  0, 0, false, .result 1 0 64 false, true, some (0x300080 / 128), ((vaulted.lineBehind (vaulted.k 6) 128).map Prod.snd).getD 1⟩ 128 (natBytes 8 0x55)
/-- Offsets and counts: x20 = 0, x21 an offset over the end, x22 misaligned, x23 and x24 a count of 256 and of 255. -/
def remote : State := withX keptLine [(20, 128), (21, 4090), (22, 2), (23, 5), (24, 256), (25, 255)]

theorem w_RemoteAccesses : remote.notPending [20, 9] [2] ∧ remote.notPending [20, 24, 24 + 1] [2] ∧ remote.notPending [20] [2] ∧
    (kRouted (remote.k 2) remote.me.loc.mod = true ∧ kKind (remote.k 2) = 0 ∧ kHas (remote.k 2) 0 = true ∧ kHas (remote.k 2) 1 = true ∧ kHas (remote.k 2) 2 = true ∧
      128 + 8 ≤ kLen (remote.k 2) ∧ (kBase (remote.k 2) + 128) % 8 = 0 ∧ remote.unwatched) ∧
    remote.keyedHit remote.me.loc (remote.k 2) 128 8 = none ∧
    kKind (remote.k 3) ≠ 0 ∧ kLen (remote.k 2) < 4090 + 8 ∧ (kBase (remote.k 2) + 2) % 4 ≠ 0 ∧
    ((remote.x (24 + 1)).toNat < 256 ∧ (remote.x 24).toNat = 256 ∧ (remote.freeSlots remote.me.loc).head? = some 0) ∧
    remote.takesEntry ∧ kRouted (remote.k 7) remote.me.loc.mod = false := by decide +kernel

/-- No reply slot is free. -/
def noReply : State := { remote with rslots := (List.range 32).map fun n => ⟨⟨0, 0, 0⟩, n, 0, true, 1, 0xFF00, 0, false, none⟩ }

theorem w_RemoteAccesses_hit : remote.notPending [20, 9] [6] ∧ kRouted (remote.k 6) remote.me.loc.mod = true ∧ kKind (remote.k 6) = 0 ∧ kHas (remote.k 6) 0 = true ∧
      128 + 8 ≤ kLen (remote.k 6) ∧ (kBase (remote.k 6) + 128) % 8 = 0 ∧ kHas (remote.k 6) 4 = true ∧ remote.tagOk (remote.k 6) = true ∧
      kHolder (remote.k 6) = remote.myHolder ∧ (remote.keyedHit remote.me.loc (remote.k 6) 128 8).isSome = true := by decide +kernel

theorem w_RemoteAccesses_full : noReply.freeSlots noReply.me.loc = [] := by decide +kernel

/-- A collective waits, its notice table full; it waits with an entry of its own; and its notice goes out. -/
def parked (n : Nat) (full : Bool) (at_ : Nat) : State :=
  let s := later (collWith 2 { atStep with cur := some [2, 0x10000, 0, 0] }) at_
  { (s.updSat 1 fun t => { t with engine := .collective }) with notices := if full then (List.range 64).map fun k => ⟨⟨0, 0, 0⟩, 7, k, n⟩ else [] }
/-- After the WAITs of the core are tried: the satellite has not ended, and what its collective says. -/
def triedAs (s : State) (p : CollState → Bool) : Bool :=
  let u := s.collWaits ⟨0, 0, 0⟩
  decide (u.satIs 1 (oneSat u)) && !(oneSat u).terminal && (oneSat u).coll?.any p

theorem w_SatelliteEvents_notices : (oneSat (parked 1 true 1000000)).loc = ⟨0, 0, 0⟩ ∧
    triedAs (parked 1 true 1000000) (fun c => c.waiting && !c.took && decide (c.stepT + 1000000 ≤ (parked 1 true 1000000).meridian 0)) = true ∧
    triedAs (parked 1 false 5) (fun c => c.waiting && c.took && c.retryAt.isNone) = true ∧
    triedAs (later (collWith 2 noticing) 1000000) (fun c => !c.waiting && c.retryAt == some 10 && c.noticeT == some 0) = true ∧
    ((satWith fun t => { t with status := 0, task := .coll 0 0 128 atStep }).collWaits ⟨0, 0, 0⟩).sats.all Sat.terminal = true := by decide +kernel

/-- Keys to send by in k2 (VN0), k4 (VN1) and k6 (no right to send), a reply key of this core in k3, one of another kind in k5, and handler ids in x20 to x23. -/
def sendKey (rights kind holder : Nat) : Key := da.signed (keyOf (0xFF + 256 + kind * 2 ^ 48) 0x300000 (4096 + rights * 2 ^ 40 + holder * 2 ^ 48) 0)
def sends : State := withX (((((da.setK 2 (sendKey 0xFF 3 da.myHolder)).setK 3 (da.signed (keyOf (0xFF + 2 * 2 ^ 48) 0 (256 + 0xFF * 2 ^ 40 + da.myHolder * 2 ^ 48) 0))).setK 4
  (sendKey 0xFF 2 0xFFFF)).setK 5 (sendKey 0xFF 3 da.myHolder)).setK 6 (sendKey 0 3 da.myHolder)) [(20, 255), (21, 256), (22, 9), (23, 0)]
def sendsScalar : State := sends.upd fun a => { a with cls := 0 }
def sendsFull : State := sends.upd fun a => { a with queue := full.me.queue }
def sendsHandler : State := sends.upd fun a => { a with kind := .handler 3 }
/-- Every entry of both send queues of the core is used. -/
def noSend : State := { sends with sendq := (List.range 16).flatMap fun n => [⟨⟨0, 0, 0⟩, 0, n, 77, 0, true, none⟩, ⟨⟨0, 0, 0⟩, 1, n, 77, 0, true, none⟩] }

theorem w_MessagesAndTheHandlerTable_sends : sends.notPending [20] [2] ∧ sends.notPending [20] [2, 2 + 1] ∧ (sends.x 20).toNat < 256 ∧ 256 ≤ (sends.x 21).toNat ∧
    sends.me.isHandler = false ∧ sendsHandler.me.isHandler = true ∧ sendKeyCause (sends.k 2) 0 0 = none ∧ sendKeyCause (sends.k 4) 0 1 = none ∧
    sendKeyCause (sends.k 6) 0 0 = some 0x09 ∧ sends.attachCause (sends.k (2 + 1)) = none ∧ sends.attachCause (sends.k 5) = some 0x09 ∧ sends.takesEntry ∧
    sendsScalar.me.cls = 0 ∧ (sendsFull.me.cls ≠ 0 ∧ 64 ≤ sendsFull.me.queue.length) ∧ sends.freeSend sends.me.loc 0 = some 0 ∧ sends.freeSend sends.me.loc 1 = some 0 ∧
    noSend.freeSend noSend.me.loc 0 = none ∧ noSend.freeSend noSend.me.loc 1 = none := by decide +kernel

theorem w_MessagesAndTheHandlerTable_replies : (sends.freeSlots sends.me.loc).head? = some 0 ∧ noReply.freeSlots noReply.me.loc = [] ∧
    (({ sendsScalar with sendq := [⟨⟨0, 0, 0⟩, 0, 0, 1, sendsScalar.me.nextSeq, false, none⟩] } : State).reserved ⟨0, 0, 0⟩ sendsScalar.me.uid sendsScalar.me.nextSeq).isSome = true ∧
    (⟨[], 0⟩ : Imm).int = 0 ∧ (⟨[], 1⟩ : Imm).int = 1 ∧ (⟨[], 2⟩ : Imm).int = 2 := by decide +kernel

/-- Entry 9 of the handler table belongs to another region, and entry 22 to this one. -/
def table : State := { sends with htab := [⟨⟨0, 0, 0⟩, 9, 5, true, 0x4000⟩, ⟨⟨0, 0, 0⟩, 255, 0xFF00, true, 0x4000⟩] }

theorem w_MessagesAndTheHandlerTable_table : table.notPending (RegImm.regs (.reg 20)) [] ∧ table.notPending (RegImm.regs (.reg 20) ++ [23]) [] ∧
    256 ≤ table.hid (.reg 21) ∧ (table.hid (.reg 22) < 256 ∧ (table.hentry ⟨0, 0, 0⟩ (table.hid (.reg 22))).map HandlerEntry.rid = some 5 ∧ table.me.rid ≠ 5) ∧
    (table.hid (.reg 20) = 255 ∧ (table.hentry ⟨0, 0, 0⟩ (table.hid (.reg 20))).map HandlerEntry.rid = some table.me.rid) ∧
    (table.hid (im 5) = 5 ∧ table.hentry ⟨0, 0, 0⟩ 5 = none) ∧ table.x 23 = 0 ∧ ((table.x 22).getLsbD 0 = true ∧ table.x 22 ≠ 0) ∧
    ((table.x 21).getLsbD 0 = false ∧ 1 < (table.x 21).toNat) ∧ (table.x 23).toNat ≤ 1 := by decide +kernel

/-- A message for handler `hid` that waits since cycle `at_`, if it found its entry locked. -/
def waitFor (hid : Nat) (at_ : Option Nat) : Waiting := ⟨⟨0, 0, 0⟩, hid, ⟨hid, 5, 5, 0, ⟨0, 0, 1⟩, [1, 2, 3, 4], 0, 0, 0⟩, .inbox, at_⟩
def waits (hid : Nat) (at_ : Option Nat) : State := { table with waiting := [waitFor hid at_] }
/-- The entry is locked. -/
def lockedWait (at_ : Nat) : State := { table with waiting := [waitFor 255 (some at_)], htab := [⟨⟨0, 0, 0⟩, 255, 0xFF00, false, 0⟩] }
/-- A handler that runs since cycle 0, and one with a failure. -/
def runs : State := sendsHandler.upd fun a => { a with started := 0 }
def failing : State := runs.upd fun a => { a with failures := [⟨0, issueTrap 0x22 0 0 0, false⟩] }

theorem w_HandlersStartAndEnd : (waits 7 none).waiting[0]? = some (waitFor 7 none) ∧ (waits 7 none).hentry ⟨0, 0, 0⟩ 7 = none ∧
    (let s := waits 255 none
     (s.hentry ⟨0, 0, 0⟩ 255).map HandlerEntry.set = some true ∧ (s.core ⟨0, 0, 0⟩).hmask.getLsbD 255 = false ∧ s.running ⟨0, 0, 0⟩ 255 = false ∧
      s.firstWaiting 0 (waitFor 255 none) = true ∧ 7 ∈ s.handlerContexts ⟨0, 0, 0⟩ ∧ 0 ∈ s.handlerShares ⟨0, 0, 0⟩ ∧ 8 ∉ s.handlerContexts ⟨0, 0, 0⟩) ∧
    (waits 7 none).cycle ⟨0, 0, 0⟩ < 0 + 4096 ∧
    (let s := ticked (lockedWait 0) 4096
     s.waiting[0]? = some (waitFor 255 (some 0)) ∧ (s.hentry ⟨0, 0, 0⟩ 255).map HandlerEntry.set = some false ∧ 0 + 4096 ≤ s.cycle ⟨0, 0, 0⟩ ∧ (lockedWait 0).cycle ⟨0, 0, 0⟩ < 0 + 4096) ∧ (waitFor 7 none).wait = .inbox ∧
    ((runs.agent? 1).map Agent.isHandler = some true ∧ runs.me.placed = true ∧ runs.me.life ≠ .exited ∧ runs.cycle ⟨0, 0, 0⟩ ≤ runs.me.started + 65536) ∧
    (ticked runs 65537).me.started + 65536 < (ticked runs 65537).cycle ⟨0, 0, 0⟩ ∧
    (runs.me.inflight = [] ∧ runs.me.streamDone = true ∧ runs.nothingDue ∧ runs.ownSats runs.me.uid = []) ∧ sendsFull.me.streamDone = false ∧
    ((failing.deliverAll failing.me.uid).me.failures ≠ [] ∧ failing.me.inflight = [] ∧ failing.me.streamDone = true ∧ failing.me.isHandler = true) := by decide +kernel

/-- Entry addresses in x20 (odd) and x21, a join block at x3, and the root region with its thread limit. -/
def threads : State := withX (withM dx [(0x200000, 1), (0x200008, 0x5000), (0x200010, 0x77), (0x200018, 3)]) [(20, 0x200001), (21, 0x200100)]
def root : Region := (threads.region? 0 0xFF00).getD (placeVif.root 0)
/-- A new thread on its way to its queue, and in it. -/
def spawned : State := after (.spawn h3 ⟨5, 21, ⟨0, 4⟩⟩) threads
def settled : State := after (.spawnQueue ((spawned.deferred.map Deferred.id).headD 0)) spawned
/-- A decrement of the join block at x3. -/
def joining : State := after (.jdec h2 ⟨3⟩) threads
def joinOf (s : State) : Deferred := s.deferred.headD ⟨0, 0, ⟨0, 0, 0⟩, 0, 0, 0, false, 0, 0, 0, none, dx.storeTag 0⟩

theorem w_ThreadsFromCreationToExit : threads.notPending [21, 4] ((List.range 16).map (BitVec.ofNat 4)) ∧ 5 < (7 : BitVec 3).toNat ∧ (threads.x 20).getLsbD 0 = true ∧ (threads.x 21).getLsbD 0 = false ∧
    threads.myRegion = some root ∧ threads.freeTid root = some 1 ∧ ({ threads with regions := [{ root with tlimit := 1 }] } : State).freeTid { root with tlimit := 1 } = none ∧
    ((spawned.deferred.map fun d => (d.agent.isSome, d.join)) = [(true, false)] ∧ spawned.streamPast 1 (joinOf spawned).upto = true) ∧
    queued.streamPast 1 (queued.me.nextSeq) = false ∧ (matsHandler.me.isHandler = true ∧ threads.me.isHandler = false) ∧ queued.me.streamDone = false ∧
    (threads.me.streamDone = true ∧ threads.me.failures = [] ∧ threads.me.carried = [] ∧ threads.ownSats threads.me.uid = [] ∧
      threads.tbuf? threads.me.loc.mod threads.me.loc.die threads.me.rid = none) := by decide +kernel

theorem w_ThreadsFromCreationToExit_pending : (let s := threads.upd fun a => { a with pendK := 4 }
     s.notPending [21, 4] [] ∧ ((List.range 16).map (BitVec.ofNat 4)).find? (fun r : Reg4 => s.me.pendK.getLsbD r.toNat) = some 2) := by decide +kernel

theorem w_ThreadsFromCreationToExit_yield : (∃ q, settled.rqueue? 0 settled.me.loc.die 0xFF00 = some q ∧ (!(settled.queueThreads q).isEmpty) = true) ∧
    settled.freeContexts settled.me.loc ≠ [] ∧ threads.rqueue? 0 0 0xFF00 = none ∧
    (let s : State := { settled with others := settled.others ++ (List.range 6).map fun n => { settled.me with uid := 100 + n, tid := 100 + n, ctx := n + 1 } }
     s.freeContexts s.me.loc = [] ∧ ((s.rqueue? 0 s.me.loc.die 0xFF00).any fun q => !(s.queueThreads q).isEmpty) = true) :=
  ⟨some_of _ (by decide +kernel), by decide +kernel, by decide +kernel, by decide +kernel⟩

theorem w_ThreadsFromCreationToExit_joins : reachable threads (threads.x 3) 32 .write (fun _ _ => true) ∧ (threads.x 20).toNat % 32 ≠ 0 ∧
    ((threads.x 8).toNat % 32 = 0 ∧ (threads.translate threads.mySpace (threads.x 8).toNat .write).1 = .error 0x05) ∧
    (joining.deferred.map Deferred.join) = [true] ∧ joining.streamPast 1 (joinOf joining).upto = true ∧ joining.remotesAcked 1 = true ∧ joining.writesAcked 0 (joinOf joining).reqAt = true ∧
    (let s : State := { queued with deferred := joining.deferred.map fun d => { d with upto := queued.me.nextSeq } }
     (s.deferred.map Deferred.join) = [true] ∧ s.streamPast 1 (joinOf s).upto = false) ∧
    (let d := joinOf joining
     let u := joining.reachHome { joining.via d.loc d.rid with key := d.key } (d.pa / 128)
     u.counted? 0 (d.pa / 128) = none ∧ u.poisoned 0 (d.pa / 128) = false ∧ u.lineKey 0 (d.pa / 128) = d.key ∧
      bytesNat ((u.homeBytes 0 d.pa 32).take 8) = 1) ∧
    (let s := withM joining [(0x200000, 3)]
     let d := joinOf s
     bytesNat (((s.reachHome { s.via d.loc d.rid with key := d.key } (d.pa / 128)).homeBytes 0 d.pa 32).take 8) = 3) :=
  ⟨reachable_of (by decide +kernel), by decide +kernel, ⟨by decide +kernel, eq_of_failsWith (by decide +kernel)⟩, by decide +kernel, by decide +kernel,
    by decide +kernel, by decide +kernel, by decide +kernel⟩

/-- Values for the privileged instructions, in a thread of K, of S and of no level above. -/
def privs : State := withX da [(4, 0x200000), (5, 0x100), (6, 0x20000), (7, 0), (8, 15), (9, 0x40000), (10, 16), (11, 2 ^ 40), (12, 2 ^ 40 + 1), (13, 7)]
def atS : State := privs.upd fun a => { a with level := 1 }
def atTop : State := privs.upd fun a => { a with level := 3 }

theorem w_PrivilegedRegistersAndCaches : privs.me.level ≠ 0 ∧ privs.notPending [4] [] ∧ (prRead 0x100 = some 1 ∧ 1 ≤ privs.me.level ∧ (img 0x100).nat = 0x100) ∧
    (prRead 0x180 = some 3 ∧ atS.me.level < 3) ∧ prRead 0x200 = none ∧
    (img 0x104).nat = 0x104 ∧ (img 0x180).nat = 0x180 ∧ 3 ≤ atTop.me.level ∧ atTop.x 7 = 0 ∧ atTop.x 4 ≠ 0 ∧ privs.me.level < 3 ∧ privs.myRegion.isSome = true ∧
    privs.notPending [4, 5, 10] [] ∧ 2 ^ 18 ≤ (privs.x 9).toNat ∧ ((privs.x 6).toNat < 2 ^ 18 ∧ (privs.x 5).toNat < 2 ^ 18) ∧
    (privs.vifs.any fun v => v.mod == 0 && v.vif == 0 && decide (v.asidBase ≤ 0x100) && decide (0x100 < v.asidBase + v.asidCount)) = true ∧
    (privs.freeSatSlot privs.me.loc privs.me.rid = some 0) := by decide +kernel

/-- An interface that grants only address spaces 0 to 15; a shootdown begun; one that a thread still holds back. -/
def narrow : State := { privs with vifs := mapIf (fun _ => true) (fun v => { v with asidCount := 16 }) privs.vifs }
def shooting : State := (after (.tlbi h3 ⟨14, 4, ⟨0, 5⟩⟩) privs).updSat 1 fun t => { t with begun := true }

theorem w_PrivilegedRegistersAndCaches_caches : (narrow.vifs.any fun v => v.mod == 0 && v.vif == 0 && decide (v.asidBase ≤ 0x100) && decide (0x100 < v.asidBase + v.asidCount)) = false ∧
    noSlot.freeSatSlot noSlot.me.loc noSlot.me.rid = none ∧
    (shooting.satIs 1 (oneSat shooting) ∧ (oneSat shooting).task = .tlbi 0 0x100 0x200000 false false ∧ (oneSat shooting).terminal = false ∧ (oneSat shooting).cancel = false ∧
      (shooting.agents.all fun a => !shooting.holdsProbe 0 0 0x100 false a) = true) ∧
    queued.me.streamDone = false ∧ privs.me.streamDone = true ∧ privs.notPending [4, 12] [] ∧ (2 ^ 40 < (privs.x 12).toNat ∧ (privs.x 11).toNat ≤ 2 ^ 40 ∧ (privs.x 7).toNat = 0) ∧
    privs.notPending (RegImm.regs (.reg 8) ++ [14]) [] ∧ ((privs.x 10).toNat = 16 ∧ (privs.x 13).toNat = 7 ∧ (privs.x 8).toNat = 15) := by decide +kernel

/-- The shootdown of the space that the thread works in waits while a probed store of it is in the queue. -/
theorem w_PrivilegedRegistersAndCaches_probes :
    (storing.agents.any fun a => storing.holdsProbe 0 0 ((storing.myRegion.map Region.asid).getD 0) false a) = true := by decide +kernel

theorem w_PageSevenNeedsItsLevel : atU.me.level = 0 ∧ 3 ≤ (3 : BitVec 3).toNat ∧ (5 : BitVec 3).toNat ≤ 5 ∧ atU.me.uta = false ∧ atS.me.level ≠ 2 ∧ atS.me.level ≠ 0 ∧
    atS.me.uta = false := by decide +kernel

/-- A shootdown told to end, one that has not begun, and one while the probed store is in the queue. -/
def shootingWith (f : Sat → Sat) : State := shooting.updSat 1 f
def probing : State := { storing with sats := mapIf (fun _ => true) (fun t => { t with task := .tlbi 0 ((storing.myRegion.map Region.asid).getD 0) 0x200000 false false }) shooting.sats }
/-- The thread stopped in its `wfi`. -/
def waited : State := privs.upd fun a => { a with wfiFrom := some (a.pc, 1000) }

theorem w_PrivilegedRegistersAndCaches_again :
    (privs.vifs.any fun v => v.mod == 0 && v.vif == 0 && decide (v.asidBase ≤ (privs.x 9).toNat % 2 ^ 16) && decide ((privs.x 9).toNat % 2 ^ 16 < v.asidBase + v.asidCount)) = true ∧
    (let s : State := { privs with regions := mapIf (fun _ => true) (fun r => { r with satslots := 0 }) privs.regions }
     s.myRegion.isSome = true ∧ s.freeSatSlot s.me.loc s.me.rid = none ∧
      (s.vifs.any fun v => v.mod == 0 && v.vif == 0 && decide (v.asidBase ≤ 0x100) && decide (0x100 < v.asidBase + v.asidCount)) = true) ∧
    (oneSat shooting).begun = true ∧ (oneSat (shootingWith fun t => { t with cancel := true })).cancel = true ∧ (oneSat (shootingWith fun t => { t with begun := false })).begun = false ∧
    (probing.satIs 1 (oneSat probing) ∧ (oneSat probing).begun = true ∧
      (probing.agents.any fun a => probing.holdsProbe 0 0 ((storing.myRegion.map Region.asid).getD 0) false a) = true) ∧
    (shooting.sats.all fun d => !shooting.drainsProbe 0 0 0x100 false d) = true ∧
    ((shooting.deferred.all fun d => !shooting.joinsProbe 0 0 0x100 false d) = true ∧
      (joining.deferred.any fun d => joining.joinsProbe 0 0 ((joining.myRegion.map Region.asid).getD 0) false d) = true) ∧
    ((countedLine.counted? countedLine.me.loc.mod (0x200000 / 128)).isSome = true ∧ privs.counted? 0 (0x200000 / 128) = none) ∧
    privs.me.wfiFrom = none ∧ waited.me.wfiFrom = some (waited.me.pc, 1000) := by decide +kernel

theorem w_PageSevenNeedsItsLevel_elsewhere : (privs.upd fun a => { a with level := 2 }).me.level = 2 ∧
    (privs.module? privs.me.loc.mod).all (fun a => a.keywright != privs.me.loc.die) = true := by decide +kernel

/-- The block at 0x200000 of a region 5 with address space 0; one whose level is above its parent's; the root's thread about to bind them. -/
def binds : State := withX (withM da [(0x200000, 0x0005000500000100), (0x200008, 0x0001000400040004), (0x200100, 0x0006000600000300), (0x200108, 0x0001000400040004)])
  [(4, 0x200000), (5, 0x200100), (6, 0), (7, 1), (8, 2), (9, 3)]
def bytesAt (s : State) (a : Word) (n : Nat) : List Byte := match (s.vread s.mySpace a.toNat n).1 with | .ok bs => bs | .error _ => []
/-- The child bound. -/
def bound : State := after (.rgnbindBind h3 ⟨4, ⟨0, 6⟩⟩) binds
def parent : Region := (binds.region? 0 0xFF00).getD (placeVif.root 0)
def child : Region := (bound.region? 0 5).getD (placeVif.root 0)

theorem w_RegionsContextsAndKeywright_regions : binds.me.level ≠ 0 ∧ binds.notPending [4, 6] [] ∧ binds.myRegion = some parent ∧ (binds.x 4).toNat % 256 = 0 ∧
    okWith (binds.vread binds.mySpace 0x200000 256) (fun bs u => okWith (u.bindChild false parent 0x200000 bs) fun n _ => n == 5) = true ∧ binds.x 6 = 0 ∧
    okWith (binds.vread binds.mySpace 0x200100 256) (fun bs u => failsWith (u.bindChild false parent 0x200100 bs).1 0x24) = true ∧ bound.x 7 = 1 ∧ bound.x 8 = 2 ∧
    (bound.isDescendant 0 parent.rid 5 = true ∧ bound.region? 0 5 = some child ∧ bound.myRegion.isSome = true) ∧
    okWith (bound.vread bound.mySpace 0x200000 256) (fun bs u => decide (bits (wordAt bs 0) 48 16 = 5) && okWith (u.reloadRegion false child bs) fun _ _ => true) = true ∧
    binds.isDescendant 0 parent.rid 5 = false ∧ 3 ≤ (binds.x 9).toNat := by decide +kernel

/-- Selectors: of no descendant, of the thread itself, of a thread that is not there; and a thread saved and held. -/
def selects : State := withX plain [(4, 0x0005000000000000), (5, 0xFF00000000000000), (6, 0xFF00000000000007)]
def shelved : State := { selects with others := [{ selects.me with uid := 2, tid := 7, saved := true, hold := true, placed := false, life := .queued }] }
def imaged : State := (shelved.vwrite { shelved.space ⟨0, 0, 0⟩ .core 0xFF00 1 with level := 1 } .none (imageBase ((plain.region? 0 0xFF00).getD root) 7) (natBytes 8 (0x0901 * 2 ^ 32))).2

theorem w_RegionsContextsAndKeywright_contexts : selects.me.level ≠ 0 ∧ selects.notPending [4] [] ∧ failsWith (selects.selector (selects.x 4)) 0x06 = true ∧
    (match selects.selector (selects.x 5) with | .ok q => q == (0xFF00, 0) | .error _ => false) = true ∧
    (selects.threadOf 0 0xFF00 7).isNone = true ∧ ((selects.threadOf 0 0xFF00 0).map fun a => (a.saved, a.placed)) = some (false, true) ∧
    ((shelved.threadOf 0 0xFF00 7).map fun a => (a.saved, a.hold)) = some (true, true) := by decide +kernel

theorem w_RegionsContextsAndKeywright_images : (imaged.region? 0 0xFF00).any (fun r =>
      okWith (imaged.translateSpans { imaged.space imaged.me.loc .core r.rid 1 with level := 1 } .read (lineSpans 2 (imageBase r 7) 16)) fun l u =>
        decide (bits (wordAt (u.readVias (State.dumpVias r l)).1 0) 32 16 = 0x0901) && (u.badSpan (imageBase r 7) (State.dumpVias r l)).isNone) = true ∧
    (imaged.region? 0 0xFF00).any (fun r =>
      okWith (imaged.translateSpans { imaged.space imaged.me.loc .core r.rid 1 with level := 1 } .read (lineSpans 2 (imageBase r 7) 16)) fun l u =>
        (({ u with poison := l.map fun q => (0, q.1 / 128, 4) } : State).badSpan (imageBase r 7) (State.dumpVias r l)).isSome) = true ∧
    (shelved.region? 0 0xFF00).any (fun r =>
      okWith (shelved.translateSpans { shelved.space shelved.me.loc .core r.rid 1 with level := 1 } .read (lineSpans 2 (imageBase r 7) 16)) fun l u =>
        decide (bits (wordAt (u.readVias (State.dumpVias r l)).1 0) 32 16 ≠ 0x0901) && (u.badSpan (imageBase r 7) (State.dumpVias r l)).isNone) = true ∧
    (shelved.threadOf 0 0xFF00 0).any (fun a => !a.saved) = true ∧ (shelved.threadOf 0 0xFF00 8).isNone = true := by decide +kernel

/-- The queue of the root region on die 0, to be let go (x5 = 0), held (x6 = 256), and of a region that is none of its descendants (x7). -/
def maps : State := withX settled [(4, 0xFF00), (5, 7), (6, 263), (7, 5), (8, 256)]
/-- It is pinned already; sixteen queues are. -/
def pinnedQ : State := maps.pinQueue 0 0 0xFF00
def pinned16 : State := { maps with rqueues := maps.rqueues ++ (List.range 16).map fun n => ⟨0, 0, n + 1, [], 0, none, none, 0, true, none⟩ }

theorem w_RegionsContextsAndKeywright_queues : maps.me.level ≠ 0 ∧ maps.notPending [4, 5] [] ∧ maps.within 0 maps.me.rid 5 = false ∧
    maps.within 0 maps.me.rid 0xFF00 = true ∧ (maps.x 4).toNat < 2 ^ 16 ∧ (maps.x 5).toNat < 8 ∧ (256 ≤ (maps.x 6).toNat ∧ (maps.x 6).toNat < 264 ∧ (maps.x 8).toNat = 256) ∧
    (pinnedQ.rqueue? 0 0 0xFF00).any RQueue.pinned = true ∧ (maps.rqueue? 0 0 0xFF00).any RQueue.pinned = false ∧ maps.pinned 0 0 < 16 ∧ 16 ≤ pinned16.pinned 0 0 := by
  decide +kernel

/-- A trace descriptor at 0x200000 (buffer at 0x400000 of 64 KiB, region 0xFF00, die 0), one with a bad size, and control words in x5 (unbind), x6 (bind). -/
def traces : State := withX (withM da [(0x200000, 0x400000), (0x200008, 65536), (0x200020, 0xFF00000000000000), (0x200040, 0x400000), (0x200048, 1000),
  (0x200060, 0xFF00000000000000), (0x200080, 0x400000), (0x200088, 65536), (0x2000A0, 0x0005000000000000)]) [(4, 0x200000), (5, 0), (6, 1), (7, 0x200040), (8, 0x200080)]
/-- The doublewords of the descriptor at `a`. -/
def descOf (a : Word) : List Word := byteWords 8 (bytesAt traces a 64)

theorem w_RegionsContextsAndKeywright_traces : traces.me.level ≠ 0 ∧ traces.notPending [4, 6] [] ∧ (traces.x 4).toNat % 64 = 0 ∧
    ((traces.x 6).toNat &&& 0xFF0F = (traces.x 6).toNat ∧ (traces.x 6).toNat.testBit 0 = true ∧ (traces.x 5).toNat.testBit 0 = false) ∧
    okWith (traces.vread traces.mySpace 0x200000 64) (fun _ u => okWith (u.bindTrace ⟨0, 0, 0xFF00, traces.me.rid, 0x200000, false, descOf 0x200000, 1, 0, 0, 0, 0, 0, []⟩)
      fun _ _ => true) = true ∧ ((descOf 0x200000).getD 5 0).toNat = 0 ∧ traces.within 0 traces.me.rid 0xFF00 = true ∧ traces.within 0 traces.me.rid 5 = false ∧
    bits ((descOf 0x200080).getD 4 0).toNat 48 16 = 5 ∧ descriptorOk (descOf 0x200000) 1 = true ∧ descriptorOk (descOf 0x200040) 1 = false ∧
    (traces.tbufs.filter fun b => b.mod == 0 && b.die == 0).length < 8 := by decide +kernel

/-- Keywright requests at x4 (a key of kind 3), x5 (advance it), x6 (rotate) and x7 (neither), with and without a charter for every endpoint of module 0. -/
def keywright : State := withX { withM firmware [(0x200000, 0x00030000000001FF), (0x200008, 0), (0x200010, 0x0005FF0000001000), (0x200028, 0x00030000000001FF), (0x200040, 1), (0x200060, 2)] with
  charters := [⟨0, 0, [(0, 1023)], 255, 63, [(0, 0xFFFF)], [], 0⟩] } [(4, 0x200000), (5, 0x200020), (6, 0x200040), (7, 0x200060)]
def uncharted : State := { keywright with charters := [] }
/-- A rotation under way. -/
def rotating : State := { keywright with secret := { keywright.secret with next := some 1 } }
def asked : Key := keyOf 0x00030000000001FF 0 0x0005FF0000001000 0

theorem w_RegionsContextsAndKeywright_keys : keywright.onKeywright = true ∧ keywright.notPending [4] [1] ∧ (keywright.x 4).toNat % 32 = 0 ∧
    okWith (keywright.vread keywright.mySpace 0x200000 32) (fun bs u => decide (keyOf (wordAt bs 0) (wordAt bs 8) (wordAt bs 16) 0 = asked) &&
      decide (wordAt bs 24 = 0) && (u.claim asked).chartered 0 asked && !((u.claim asked).keyEndpoint asked).retired && (u.mint 0 asked).1.isOk) = true ∧ kRouted asked 0 = true ∧
    okWith (uncharted.vread uncharted.mySpace 0x200000 32) (fun _ u => !(u.claim asked).chartered 0 asked && failsWith (u.mint 0 asked).1 6) = true ∧
    (keywright.charters.any fun c => c.mod == 0 && keywright.endpointChartered c asked) = true ∧ uncharted.charters = [] ∧
    bits (wordAt (bytesAt keywright 0x200020 32) 0) 0 4 = 0 ∧ bits (wordAt (bytesAt keywright 0x200040 32) 0) 0 4 = 1 ∧ bits (wordAt (bytesAt keywright 0x200060 32) 0) 0 4 = 2 ∧
    (keywright.lowestUp = some 0 ∧ keywright.secret.old = none ∧ keywright.secret.next = none) ∧ rotating.secret.next ≠ none ∧
    ({ keywright with modules := [] } : State).lowestUp ≠ some 0 := by decide +kernel

/-- A key with a path of 145 nodes; one of a module that is not there, through a port; and the endpoint of `asked` retired. -/
def unrouted : Key := setField asked 0 16 (145 + 256)
def remoteAsked : Key := keyOf (5 + 256 + 7 * 2 ^ 24 + 3 * 2 ^ 48) 0 0x0005FF0000001000 0
def retiredKey : State := keywright.setEndpoint { keywright.keyEndpoint asked with retired := true }

theorem w_RegionsContextsAndKeywright_mints : kRouted unrouted 0 = false ∧ (kRouted asked 0 = true ∧ (uncharted.claim asked).chartered 0 asked = false) ∧
    (kRouted remoteAsked 0 = true ∧ (keywright.claim remoteAsked).chartered 0 remoteAsked = true ∧ (keywright.probeCause 0 remoteAsked).isSome = true) ∧
    ((keywright.claim asked).chartered 0 asked = true ∧ keywright.probeCause 0 asked = none ∧ ((keywright.claim asked).keyEndpoint asked).retired = false) ∧
    ((retiredKey.claim asked).chartered 0 asked = true ∧ retiredKey.probeCause 0 asked = none ∧ ((retiredKey.claim asked).keyEndpoint asked).retired = true) := by
  decide +kernel

/-- An advance that the Keywright has taken up. -/
def advancing : State := { keywright with advances := [⟨0, 0xFF00, 0x200020, asked, 1, 0x100000, 0⟩] }

theorem w_RegionsContextsAndKeywright_advance : advancing.advances = ⟨0, 0xFF00, 0x200020, asked, 1, 0x100000, 0⟩ :: [] := by decide +kernel

/-- A launch message of the host of interface 0, with these words. -/
def launchOf (ws : List Word) : Launch := ⟨0, 0, 0, 0xFF00, some 0, ws, [], [], false⟩
def launches (s : State) (ws : List Word) : State := { s with launches := [launchOf ws] }

theorem w_RegionsContextsAndKeywright_launches : (let q : Launch := { launchOf [0x00050002, 0, 0, 0] with src := 1 }
     let s : State := { binds with launches := [q] }
     s.launches[0]? = some q ∧ s.firstLaunch 0 q = true ∧ q.src ≠ q.mod) ∧
    (launchOf [0x00050002, 0, 0, 0]).src = (launchOf [0x00050002, 0, 0, 0]).mod ∧ (let s := launches binds [0x00050002, 0, 0, 0]
      s.launches[0]? = some (launchOf [0x00050002, 0, 0, 0]) ∧ s.firstLaunch 0 (launchOf [0x00050002, 0, 0, 0]) = true ∧
      (s.region? 0 (launchOf [0x00050002, 0, 0, 0]).actor).map Region.state = some .bound) ∧
    ((launchOf [0x00050002, 0, 0, 0]).formed = true ∧ (launchOf [0x00050002, 0, 0, 0]).op = 2 ∧ (launchOf [0x00050002, 0, 0, 0]).target = 5) ∧
    (launchOf [0x100, 0, 0, 0]).formed = false ∧ ((launchOf [4, 0, 0, 0]).formed = true ∧ (launchOf [4, 0, 0, 0]).op = 4) ∧
    bound.isDescendant 0 0xFF00 5 = true ∧ binds.isDescendant 0 0xFF00 5 = false ∧
    (let q := launchOf [0xFF000001, 0x4000, 9, 0x4003]
     q.formed = true ∧ q.op = 1 ∧ binds.within 0 0xFF00 q.target = true ∧ bits (q.word 3) 0 3 ≤ 5 ∧ bit (q.word 3) 14 = true ∧ bit (q.word 1) 0 = false ∧
      binds.freeTid parent = some 1) ∧
    (let q := launchOf [0, 0x200000, 0, 0]
     q.formed = true ∧ q.op = 0 ∧ q.word 1 % 256 = 0 ∧
      okWith (binds.vread { binds.space ⟨0, 0, 0⟩ .core 0xFF00 1 with level := 1 } 0x200000 256) (fun bs v => okWith (v.bindChild true parent 0x200000 bs) fun n t =>
        n == 5 && (t.mintAll 0 (((t.region? 0 n).map Region.holder).getD 0) q.keys).1.isOk &&
        failsWith (t.mintAll 0 (((t.region? 0 n).map Region.holder).getD 0) [(3, unrouted)]).1 1) = true) ∧
    (let q := launchOf [0x00050003, 0x200000, 0, 0]
     q.formed = true ∧ q.op = 3 ∧ q.target = 5 ∧
      okWith (bound.vread { bound.space ⟨0, 0, 0⟩ .core 0xFF00 1 with level := 1 } 0x200000 256) (fun bs v => decide (bits (wordAt bs 0) 48 16 = 5) &&
        v.isDescendant 0 0xFF00 5 && decide (v.region? 0 5 = some child) && okWith (v.reloadRegion true child bs) fun _ _ => true) = true) := by decide +kernel

/-- A remote load at its egress: by the loop port, of another holder, with a broken tag, behind another packet, stale, and by a port of a path key. -/
def loading : State := after (.rld h3 ⟨9, 2, ⟨3, 24⟩, none⟩) (withX remote [(24, 256)])
def flightOf (s : State) : Flight := s.flights.headD ⟨Packet.request ⟨0, 0, 0⟩ 0 0 0 0 0 [] [], .egress, 255⟩
def withKey (k : Key) : State := { loading with flights := loading.flights.map fun f => { f with pkt := { f.pkt with key := k } } }
def byPort : State := after (.rld h3 ⟨9, 5, ⟨3, 24⟩, none⟩)
  { remote with modules := remote.modules ++ remote.modules.map fun a => { a with mod := 7 } }
/-- At a vault node of the path set and at one outside it. -/
def atVault (s : State) (k : Nat) : State := { s with flights := s.flights.map fun f => { f with place := .vault k } }

theorem w_PacketsFromSourceToAnswer_egress : (loading.flights.map Flight.place) = [.egress] ∧ (flightOf loading).port = 255 ∧
    loading.stale 0 (flightOf loading).pkt = false ∧ (later loading 200000).stale 0 (flightOf loading).pkt = true ∧
    loading.tagOk (flightOf loading).pkt.key = true ∧ kHolder (flightOf loading).pkt.key = (flightOf loading).pkt.holder ∧ loading.behind 0 (flightOf loading).pkt = false ∧
    (loading.numbered (flightOf loading).pkt).isSome = true ∧ (let s := withKey (setField (flightOf loading).pkt.key 0 1 0)
     s.tagOk (flightOf s).pkt.key = false) ∧
    (let s := withKey (loading.signed (setField (flightOf loading).pkt.key 176 16 7))
     s.tagOk (flightOf s).pkt.key = true ∧ kHolder (flightOf s).pkt.key ≠ (flightOf s).pkt.holder ∧ (flightOf s).pkt.op ≠ 5) ∧
    ((flightOf byPort).place = .egress ∧ (flightOf byPort).port ≠ 255 ∧ byPort.stale 0 (flightOf byPort).pkt = false ∧ byPort.tagOk (flightOf byPort).pkt.key = true ∧
      byPort.uplink 0 (flightOf byPort).port (flightOf byPort).pkt = true ∧ (byPort.numbered (flightOf byPort).pkt).isSome = true) := by decide +kernel

/-- The same with a key of two paths, whose first port is down. -/
def twoPaths : State := { byPort with flights := byPort.flights.map fun f =>
  { f with pkt := { f.pkt with key := setField (setField f.pkt.key 8 8 2) 16 8 36 } } }
def firstDown : State := twoPaths.updPort 0 (flightOf byPort).port fun q => { q with up := false }

theorem w_PacketsFromSourceToAnswer_wayOut : byPort.wayOut (flightOf byPort) = (flightOf byPort).port ∧ loading.wayOut (flightOf loading) = 255 ∧
    (firstDown.port (flightOf firstDown).pkt.srcMod (flightOf firstDown).port).works = false ∧ (flightOf firstDown).port ≠ 255 ∧
    ((firstDown.reqs.find? fun q => q.req == (flightOf firstDown).pkt.req).any fun q =>
      (firstDown.choosePort (flightOf firstDown).pkt.srcMod (flightOf firstDown).pkt.key (flightOf firstDown).pkt.line q.resent).any fun w =>
        w != (flightOf firstDown).port) = true := by decide +kernel

theorem w_PacketsFromSourceToAnswer_vaults : (let s := atVault byPort (flightOf byPort).port
      (flightOf s).place = .vault (flightOf byPort).port ∧ (flightOf s).pkt.isAnswer = false ∧ s.stale (512 + (flightOf byPort).port) (flightOf s).pkt = false ∧
      s.tagOk (flightOf s).pkt.key = true ∧ inPathSet (flightOf s).pkt.key (flightOf byPort).port = true ∧ (flightOf s).pkt.target < 512 ∧
      (s.module? (flightOf s).pkt.target).isSome = true ∧ s.downlink (flightOf byPort).port (flightOf s).pkt.target (flightOf s).pkt = true) ∧
    inPathSet (flightOf byPort).pkt.key 143 = false := by decide +kernel

/-- The load numbered and at its target, whose bucket expects this number, one before, one after and one within the window behind. -/
def ingress : State := { after (.egressCheck 0) loading with endpoints := [⟨0, 0, 0, 0, 0, 0, false, false, some 0xFF00⟩] }
def bucketAt (n : Nat) : State := { ingress with buckets := [⟨0, (flightOf ingress).pkt.srcDie, (flightOf ingress).pkt.target, (flightOf ingress).pkt.bucket,
  ((flightOf ingress).pkt.seq + 65536 - n) % 65536, [], [], 0⟩] }
/-- How far ahead the load is there. -/
def aheadAt (n : Nat) : Nat := match (bucketAt n).bucket? (flightOf ingress).pkt with
  | some b => ((flightOf ingress).pkt.seq + 65536 - b.expect) % 65536 | none => 100000

theorem w_PacketsFromSourceToAnswer_order : (flightOf ingress).place = .ingress (flightOf ingress).pkt.target ∧
    ingress.stale (flightOf ingress).pkt.target (flightOf ingress).pkt = false ∧
    (aheadAt 0, aheadAt 1, aheadAt 31, aheadAt 65504, aheadAt 65535) = (0, 1, 31, 65504, 65535) ∧ (flightOf ingress).port = 255 ∧
    (ingress.ingressCause (flightOf ingress).pkt = none ∧ (ingress.targetRead (flightOf ingress).pkt.key (flightOf ingress).pkt.aux).1.isSome = true) ∧
    (flightOf ingress).pkt.op ∈ [1, 2, 3, 9] := by decide +kernel

/-- Messages, replies and notices at their target; the answer of the load back at its source. -/
def opAt (op : Nat) : State := { ingress with flights := ingress.flights.map fun f => { f with pkt := { f.pkt with op := op } } }
def answering : State := after (.ingressPacket 0) ingress
/-- The same request with the use of a message. -/
def messageUse (s : State) : State := { s with reqs := s.reqs.map fun q => { q with use := .message ⟨7, 5, 5, 1, ⟨0, 0, 0⟩, [], 0, 0, 0⟩ 0 } }

theorem w_PacketsFromSourceToAnswer_answers : (flightOf (opAt 4)).pkt.op = 4 ∧ (flightOf (opAt 4)).place = .ingress (flightOf (opAt 4)).pkt.target ∧ (flightOf (opAt 5)).pkt.op = 5 ∧
    (flightOf (opAt 8)).pkt.op = 8 ∧ ((flightOf answering).place = .back ∧ (flightOf answering).pkt.isAnswer = true ∧ (flightOf answering).pkt.op = 6) ∧
    ((answering.answered (flightOf answering).pkt).map Request.isMessage = some false ∧
      ((messageUse answering).answered (flightOf answering).pkt).map Request.isMessage = some true) ∧
    (let s := { answering with flights := answering.flights.map fun f => { f with pkt := { f.pkt with op := 7 } } }
     (flightOf s).pkt.isAnswer = true ∧ ((messageUse s).answered (flightOf s).pkt).map Request.isMessage = some true) := by decide +kernel

/-- A request that has waited, one that waits to be injected, and a bucket not used for 1 ms. -/
def reqNo (s : State) : Nat := (s.reqs.map Request.req).headD 0
def reqOf (s : State) : Request := s.reqs.headD ⟨0, ⟨0, 0, 0⟩, 0, 0, (flightOf loading).pkt, 0, 0, false, .unit 0, false, none, 0⟩

def allQueued (s : State) : State := { s with reqs := s.reqs.map fun q => { q with queued := true } }

theorem w_PacketsFromSourceToAnswer_times : (loading.reqs.find? (fun q => q.req == reqNo loading)) = some (reqOf loading) ∧ (reqOf loading).queued = false ∧
    (reqOf loading).resent < 3 ∧ (reqOf loading).first + resendAt 0 ≤ (later loading 8000).meridian 0 ∧ (loading.meridian 0 < (reqOf loading).first + resendAt 0) ∧
    loading.choosePort 0 (reqOf loading).pkt.key (reqOf loading).pkt.line 1 = some 255 ∧ (reqOf loading).first + 100000 ≤ (later loading 100000).meridian 0 ∧
    ((allQueued loading).reqs.find? (fun q => q.req == reqNo loading)).map Request.queued = some true ∧
    (let s := later (bucketAt 0) 1000000
     (s.buckets.all fun b => decide (b.last + 1000000 ≤ s.now)) = true) ∧ ((bucketAt 0).buckets.any fun b => decide ((bucketAt 0).now < b.last + 1000000)) = true ∧
    (dx.storeTag 0x200000).uid = dx.me.uid ∧ (dx.storeTag 0x200000).uid ≠ 0 ∧ dx.me.life ≠ .exited ∧
    ({ dx with reports := [⟨dx.storeTag 0x200000, 0x25⟩] } : State).reports[0]? = some ⟨dx.storeTag 0x200000, 0x25⟩ := by decide +kernel

/-- Reports of one vector entry, of element 5 and of element 3; of a satellite that runs; and one whose entry still has bytes in an RDC. -/
def entryTag (e : Nat) : StoreTag := { dx.storeTag 0x200000 with entry := true, elem := e }
def reported (l : List Report) : State := { copying with reports := l }
def lingering : State := { reported [⟨entryTag 5, 0x25⟩] with rdc := [⟨0, 1, 0, 0x4000, false, 0, 1, 1, [entryTag 9], false, 0, []⟩] }

theorem w_PacketsFromSourceToAnswer_reports : (reported [⟨entryTag 5, 0x25⟩, ⟨entryTag 3, 0x25⟩]).reports[0]? = some ⟨entryTag 5, 0x25⟩ ∧
    (reported [⟨entryTag 5, 0x25⟩]).entryDirty ⟨entryTag 5, 0x25⟩ = false ∧ (entryTag 5).sid = 0 ∧ lingering.entryDirty ⟨entryTag 5, 0x25⟩ = true ∧
    ((oneSat copying).tag 0x80).sid ≠ 0 ∧ ((reported []).sats.any fun t => t.sid == ((oneSat copying).tag 0x80).sid && !t.terminal) = true ∧
    ((entryTag 5).entry = true ∧ (entryTag 3).uid = (entryTag 5).uid ∧ (entryTag 3).order = (entryTag 5).order ∧ (dx.storeTag 0x200000).entry = false) := by decide +kernel

theorem w_PacketsFromSourceToAnswer_stale : (let s := later answering 200000
      (flightOf s).place = .back ∧ (flightOf s).pkt.isAnswer = true ∧ s.stale (flightOf s).pkt.srcMod (flightOf s).pkt = true ∧ s.flights[0]? = some (flightOf s)) ∧
    answering.stale (flightOf answering).pkt.srcMod (flightOf answering).pkt = false ∧
    (let s := { byPort with flights := byPort.flights.map fun f => { f with place := .vault 5 } }
     s.stale (512 + 5) (flightOf s).pkt = false ∧ (later s 200000).stale (512 + 5) (flightOf s).pkt = true) ∧
    (let s := { answering with flights := answering.flights.map fun f => { f with place := .vault 5 } }
     (flightOf s).place = .vault 5 ∧ (flightOf s).pkt.isAnswer = true ∧ s.stale (512 + 5) (flightOf s).pkt = false ∧ s.downlink 5 (flightOf s).pkt.srcMod (flightOf s).pkt = true) := by decide +kernel

/-- What the target answers to a packet, after what waits for its lines. -/
def answerOf (s : State) (p : Packet) : Option (Except Nat (List Byte)) :=
  let r := if kKind p.key = 0 then s.packetLines p p.ranges else ([], s)
  ((r.2.beforePacket p r.1).targetRead p.key p.aux).1

theorem w_PacketsFromSourceToAnswer_target : (flightOf ingress).pkt.op = 1 ∧ (match answerOf ingress (flightOf ingress).pkt with | some (.ok _) => true | _ => false) = true ∧
    (match answerOf ingress { (flightOf ingress).pkt with key := setField (flightOf ingress).pkt.key 64 64 0x40000000 } with | some (.ok _) => false | _ => true) = true := by
  decide +kernel

/-- The answer of a read through port 5 about to leave its target, and with the vault's end of the link down; an older packet before it at a vault; a vault whose
target is not attached. -/
def leaving : State := { answering with flights := byPort.flights.map fun f =>
  { f with pkt := { f.pkt with op := 6, target := 0, srcMod := 7 }, place := .egress, port := 5 } }
def cutOff : State := leaving.updPort (512 + 5) 0 fun q => { q with up := false }
def stacked : State := let s := atVault byPort 5; { s with flights := s.flights ++ s.flights }
def unattached : State := { atVault byPort 5 with modules := byPort.modules.filter fun a => a.mod != (flightOf byPort).pkt.target }

theorem w_PacketsFromSourceToAnswer_leaving : ((flightOf leaving).place = .egress ∧ (flightOf leaving).pkt.isAnswer = true ∧
      leaving.stale (flightOf leaving).pkt.target (flightOf leaving).pkt = false ∧ leaving.uplink (flightOf leaving).pkt.target 5 (flightOf leaving).pkt = true) ∧
    (later leaving 200000).stale (flightOf leaving).pkt.target (flightOf leaving).pkt = true ∧
    cutOff.uplink (flightOf leaving).pkt.target 5 (flightOf leaving).pkt = false ∧
    (stacked.buffered 1 5 (flightOf stacked).pkt = true ∧ stacked.buffered 0 5 (flightOf stacked).pkt = false) ∧
    (unattached.tagOk (flightOf unattached).pkt.key = true ∧ inPathSet (flightOf unattached).pkt.key 5 = true ∧ (flightOf unattached).pkt.target < 512 ∧
      unattached.module? (flightOf unattached).pkt.target = none) := by decide +kernel

/-- A packet of an unknown bucket behind an older one that is unanswered. -/
def overtaken : State := { ingress with reqs := ingress.reqs.map fun q => { q with pkt := { q.pkt with seq := (q.pkt.seq + 65535) % 65536, given := true } } }

theorem w_PacketsFromSourceToAnswer_window : (aheadAt 32, aheadAt 65503) = (32, 65503) ∧
    (ingress.bucket? (flightOf ingress).pkt = none ∧ overtaken.older (flightOf ingress).pkt = true ∧ ingress.older (flightOf ingress).pkt = false) := by decide +kernel

/-- A report of the vector entry that still stands in the queue; a port over which the interface's share has gone out. -/
def entryQueued : State := { storing with reports := [⟨{ entryTag 5 with order := (headOf storing).order, uid := storing.me.uid }, 0x25⟩] }
def portSpent : State := { byPort with inject := [⟨0, 5, 0, 0xFF00, byPort.meridian 0, 2 ^ 20⟩] }

theorem w_PacketsFromSourceToAnswer_waits : (entryQueued.reports.any entryQueued.entryRuns) = true ∧ (lingering.reports.all fun r => !lingering.entryRuns r) = true ∧
    byPort.mayInject 0 5 0xFF00 (reqOf byPort).pkt.size = true ∧ portSpent.mayInject 0 5 0xFF00 (reqOf portSpent).pkt.size = false ∧
    (byPort.choosePort 0 (reqOf byPort).pkt.key (reqOf byPort).pkt.line 1).isSome = true := by decide +kernel

/-- The CRC register after each 8 of the first 248 bytes of a flit with a payload of zeros: an idle flit's and a data flit's. -/
def idleRegs : List Nat :=
  [0xfcacbebd5931a992, 0x393ba92017037a68, 0xc931ed3dc8be9692, 0xcf3354c179e0a56c, 0xfeadae30e4066e0, 0xa59fb7fe4bce3d2, 0xcd5111e24132d8a7,
    0xbfdbf3975aa1d584, 0x4c785d5279978dc4, 0xc05652aa006ced89, 0xb12da785dd79b813, 0x53d1980d4dab3513, 0x79a20e4dd2477ce7, 0xf04b4f829be76060,
    0xaf2dcb7dc9ee8b6d, 0x34af5e948295e0c, 0xf5e4a78213f2c523, 0xdda16f0ab28bf4c0, 0xef224f97278c3f21, 0x34814754ff8c7de3, 0x17b6d0f11c2bd756,
    0x9afb1baa5b77a3c6, 0xf2996929e5d05cf9, 0x7897f76ff3a7e14a, 0x63f5ecb777229805, 0x40819ecae18ddfae, 0x57beefb00d2ba798, 0xa2d7c77c828595ed,
    0x24c02bd60cd219b8, 0xc7ca7aad3f71f882, 0x2adcc46f955032d2]
def dataRegs : List Nat :=
  [0x1930f24455d43ef9, 0xadddc2b50ff6e7db, 0xac1656a1331a1bf6, 0x65bde0fd47b6d1ee, 0xc4362ca365818d51, 0xc6cc36a238e83315, 0x3c20d91e51a48044,
    0xaab737b3bfe1cbda, 0xf07ddae3d399353, 0x56b9fec8d65e15ae, 0xb049077d8ebbdf29, 0x393bba25c1759ac0, 0x387eaecb8a6702f1, 0xd4d9ad749521cd9,
    0x2bd0edd521f6255c, 0xc04a7936b79addd5, 0x6f1d6e2c999d1cb0, 0x10bdd718d7312c59, 0x850486247e83c7db, 0x148ff98d2f4fa344, 0x16a641e72601f1c4,
    0xa7118242c0e51420, 0x7763b3eda34d30f9, 0xc6521d9bab5f95f0, 0xdfbb83e78038f148, 0x5d022790bd1d5ace, 0xdd78c2dc830e39b0, 0x617f01500b38d383,
    0xa9cb64c1c4f6134d, 0x6f602dc00128b4ac, 0xa73e715119835f41]
/-- Each 8 bytes take the register from one value to the next. -/
def links : Nat → List Byte → List Nat → Bool
  | _, [], [] => true
  | r, bs, q :: t => ((bs.take 8).foldl crc64Step r == q) && links q (bs.drop 8) t
  | _, _ :: _, [] => false
theorem links_foldl (l : List Nat) (r : Nat) (bs : List Byte) (h : links r bs l = true) : bs.foldl crc64Step r = l.getLast?.getD r := by
  induction l generalizing r bs with
  | nil => cases bs <;> simp_all [links]
  | cons q t ih =>
    have h2 : (bs.take 8).foldl crc64Step r = q ∧ links q (bs.drop 8) t = true := by cases bs <;> simpa [links] using h
    rw [← List.take_append_drop 8 bs, List.foldl_append, h2.1, ih _ _ h2.2]
    cases t <;> simp [List.getLast?_cons]
/-- A flit with that header word and payload zeros, which ends with its CRC. -/
def flitOf (ty crc : Nat) : Nat := ty * 2 ^ 32 + crc * 2 ^ 1984
def plainPort : Port := demo.port 0 5
def flitOk (f : Nat) : Prop := bytesNat ((natBytes 256 f).drop 248) = flitCrc plainPort.recvSeq (natBytes 256 f) ∧ bits f 32 8 < 3

theorem w_LinksTimeAndSecrets_idle : flitOk (flitOf 0 (0x2adcc46f955032d2 ^^^ (2 ^ 64 - 1))) ∧ bits (flitOf 0 (0x2adcc46f955032d2 ^^^ (2 ^ 64 - 1))) 32 8 = 0 :=
  ⟨⟨by rw [flitCrc, links_foldl idleRegs _ _ (by decide +kernel)]; decide +kernel, by decide +kernel⟩, by decide +kernel⟩
theorem w_LinksTimeAndSecrets_data : flitOk (flitOf 1 (0xa73e715119835f41 ^^^ (2 ^ 64 - 1))) ∧ bits (flitOf 1 (0xa73e715119835f41 ^^^ (2 ^ 64 - 1))) 32 8 = 1 :=
  ⟨⟨by rw [flitCrc, links_foldl dataRegs _ _ (by decide +kernel)]; decide +kernel, by decide +kernel⟩, by decide +kernel⟩
/-- The same port training, failed for good, with a flit outstanding, and after two failed trainings. -/
def trainingPort : Port := { plainPort with training := true, fails := [5, 7] }
def deadPort : Port := { plainPort with dead := true }
def onPort (q : Port) : State := { demo with ports := [q] }

theorem w_LinksTimeAndSecrets_flits : plainPort.works = true ∧ ¬ flitOk (flitOf 3 0) :=
  ⟨by decide +kernel, fun h => absurd h.2 (by decide +kernel)⟩

theorem w_LinksTimeAndSecrets_ports : (let s := later (onPort { plainPort with replay := [(0, [1])] }) 4000
      (s.port 0 5).works = true ∧ (s.port 0 5).replay ≠ [] ∧ (s.port 0 5).acked + 4000 ≤ s.timeAt 0) ∧ demo.timeAt 0 < (demo.port 0 5).acked + 4000 ∧
    (((onPort trainingPort).port 0 5).training = true ∧ ((onPort trainingPort).port 0 5).dead = false) ∧ ((onPort deadPort).port 0 5).dead = true ∧ plainPort.dead = false := by
  decide +kernel

/-- Module 0 is the reference; module 7 is not, and heard its last beacon at 0; module 8 is not up. -/
def moduleLike (n : Nat) (refr up : Bool) : Option ModuleState := (demo.module? 0).map fun a => { a with mod := n, refr := refr, up := up }
def meshed : State := { demo with modules := demo.modules ++ ((moduleLike 7 false true).toList ++ (moduleLike 8 false false).toList) }

theorem w_LinksTimeAndSecrets_time : (demo.module? 0).map (fun a => (a.refr, a.up, a.keywright != 9)) = some (true, true, true) ∧
    (meshed.module? 7).map (fun a => (a.refr, a.up)) = some (false, true) ∧ (meshed.module? 8).map ModuleState.up = some false ∧
    ((meshed.module? 7).any fun a => decide (a.beacon + 10000 ≤ (later meshed 10000).now)) = true ∧
    ((meshed.module? 7).any fun a => decide (a.beacon + 1000000 ≤ (later meshed 1000000).now)) = true ∧
    ((meshed.module? 7).any fun a => decide ((later meshed 999999).now < a.beacon + 1000000)) = true ∧ meshed.nextReference 0 = some 7 ∧
    (({ demo with modules := demo.modules.map fun a => { a with keywright := 9 } } : State).module? 0).map ModuleState.keywright = some 9 := by decide +kernel

/-- A rotation whose acknowledgements are outstanding, and a secret before the current one while its grace period runs to 100 ns. -/
def asker : Advance := ⟨0, 0xFF00, 0x200000, 0, 1, 0x100000, 0⟩
def turning : State := { demo with secret := { demo.secret with next := some 1, word3 := some asker } }
def graced : State := { demo with secret := { demo.secret with old := some 5, graceEnd := demo.now + 100 } }
def under (k : BitVec 128) : Key := setField 0 192 64 (tagOf k 0)

theorem w_LinksTimeAndSecrets_secrets : (turning.secret.next = some 1 ∧ turning.secret.word3 = some asker ∧ asker.mod = 0) ∧ demo.secret.next = none ∧
    (graced.secret.old.isSome = true ∧ graced.secret.graceEnd ≤ (later graced 100).now ∧ (later graced 99).now < graced.secret.graceEnd) ∧ demo.secret.old = none ∧
    (tagOf 5 (under 5) = kTag (under 5) ∧ graced.secret.old = some 5 ∧ under 5 ≠ 0) ∧ demo.secret.word3 = none ∧
    (let s : State := { demo with advances := [asker] }
     s.advances = [asker] ∧ asker.mod = 0 ∧ ∀ q ∈ s.advances, q.mod ≠ 3) := by decide +kernel

theorem w_LinksTimeAndSecrets_beacons : (meshed.modules.find? fun r => r.up && r.refr).map ModuleState.mod = some 0 ∧
    ((meshed.modules.find? fun r => r.up && r.refr).any fun r => (meshed.module? 7).any fun a => decide (beaconError 0 5 5 10 = a.offset - r.offset)) = true ∧
    ((meshed.modules.find? fun r => r.up && r.refr).any fun r => (meshed.module? 7).any fun a => decide (beaconError 0 15 5 10 ≠ a.offset - r.offset)) = true ∧
    meshed.linked 7 7 = true ∧ meshed.linked 0 7 = true ∧ (meshed.updPort 7 7 fun q => { q with up := false }).linked 7 7 = false := by
  decide +kernel

/-- A port with a flit outstanding that has been sent again 15 times, and 16 times. -/
def resent (n : Nat) : Port := { plainPort with replay := [(7, [1])], resends := n }

theorem w_LinksTimeAndSecrets_resends : (resent 15).replay = (7, [1]) :: [] ∧ (resent 15).resends < 16 ∧ 16 ≤ (resent 16).resends ∧
    ((resent 15).acknowledge 9 7 true).training = false ∧ ((resent 16).acknowledge 9 7 true).training = true := by decide +kernel

/-- The queue of the root region on die 0, which has a slot, with a thread that waits in it. -/
def slotted : State := settled.settleQueues 0 0
/-- The root's queue on die 0 has held a slot since 0; 63 more regions hold the others; region 5 has waited since 0, with a thread of its own. -/
def rivalled : State := { bound with
  regions := bound.regions ++ (List.range 63).map fun n => { child with rid := 100 + n },
  others := bound.others ++ { bound.me with uid := 99, rid := 5, placed := false, life := .queued } ::
    (List.range 63).map fun n => { bound.me with uid := 100 + n, rid := 100 + n },
  rqueues := [⟨0, 0, 0xFF00, [], 4, none, some 0, 0, false, none⟩, ⟨0, 0, 5, [99], 4, some 0, none, 0, false, none⟩] ++
    (List.range 63).map fun n => ⟨0, 0, 100 + n, [], 4, none, some 0, 0, false, none⟩ }
def crowd : State := rivalled.settleQueues 0 0
def queueOf (s : State) (r : Nat) : Option (Option Nat × Option Nat × Bool × Nat) := (s.rqueue? 0 0 r).map fun q => (q.slotAt, q.waitFrom, q.pinned, q.aged)

theorem w_SchedulersAndBudgets_slots : (queueOf crowd 0xFF00 = some (some 0, none, false, 0) ∧ crowd.meridian 0 < 0 + 100000) ∧
    (let t := (later rivalled 100000).settleQueues 0 0
     queueOf t 0xFF00 = some (some 0, none, false, 0) ∧ 0 + 100000 ≤ t.meridian 0 ∧ (t.nextMapped 0 0).map RQueue.rid = some 5) ∧
    (let t := (later slotted 100000).settleQueues 0 0
     queueOf t 0xFF00 = some (some 0, none, false, 0) ∧ 0 + 100000 ≤ t.meridian 0 ∧ t.nextMapped 0 0 = none) := by decide +kernel

theorem w_SchedulersAndBudgets_aging : (let t := (pinnedQ.settleQueues 0 0)
     (queueOf t 0xFF00).map (fun q => (q.1.isSome, q.2.2.1)) = some (true, true)) ∧
    (queueOf ((later rivalled 250000).settleQueues 0 0) 5).map (fun q => (q.1, q.2.1)) = some (none, some 0) ∧
    (queueOf crowd 5 = some (none, some 0, false, 0) ∧ (crowd.rqueue? 0 0 5).any crowd.hasWork = true) := by decide +kernel

/-- The queued thread; the same saved, as a member of a gang of columns 0 and 1. -/
def waiter (s : State) : Agent := (s.agent? 2).getD s.me
def rootOf (s : State) : Region := (s.region? 0 0xFF00).getD root
def rootQ (s : State) : RQueue := (s.rqueue? 0 0 0xFF00).getD ⟨0, 0, 0, [], 0, none, none, 0, false, none⟩
def gangs : State := slotted.updAgent 2 fun a => { a with mgang := 3, saved := true }
def placeable (s : State) (l : Loc) : Bool :=
  let t := s.settleQueues 0 0
  decide (t.region? 0 0xFF00 = some (rootOf s)) && decide (t.rqueue? 0 0 0xFF00 = some (rootQ t)) && decide ((waiter s).life = .queued) && !(waiter s).hold &&
    (waiter s).loc.die == l.die && (rootQ t).slotAt.isSome && t.hasWork (rootQ t) && t.isNext (rootOf s) (rootQ t) (waiter s) l && !t.gangWaits (rootQ t) l &&
    !t.takesFirst (rootQ t) l (t.openQueues l.mod l.die)

theorem w_SchedulersAndBudgets_places : placeable slotted ⟨0, 0, 1⟩ = true ∧ placeable gangs ⟨0, 0, 1⟩ = true ∧ (waiter slotted).saved = false ∧
    ((waiter gangs).saved = true ∧ 1 < (waiter gangs).columns.length) ∧
    (slotted.settleQueues 0 0).seatOk (rootOf slotted) (waiter slotted) ⟨0, 0, 1⟩ ⟨0, 0, 0⟩ = true ∧
    (slotted.settleQueues 0 0).seatOk (rootOf slotted) (waiter slotted) ⟨0, 0, 0⟩ ⟨slotted.me.ctx, 0, 0⟩ = false ∧
    (gangs.me.marked = false ∧ gangs.me.columns.length ≤ 1) := by decide +kernel

/-- The queued thread was saved at 0 and its save is not complete. -/
def draining : State := slotted.updAgent 2 fun a => { a with saved := true }
/-- A saved thread of class 0 whose second stage remains; the same with a satellite that copies. -/
def halfSaved : State := { plain with others := [{ plain.me with uid := 2, tid := 7, saved := true, placed := false, life := .queued }] }
def stillCopies : State := { copying with sats := copying.sats.map fun t => { t with owner := some 2 } }

theorem w_SchedulersAndBudgets_quantum : (slotted.me.isHandler = false ∧ slotted.me.placed = true ∧ slotted.me.life ≠ .exited ∧ (slotted.queueThreads (rootQ slotted)).length = 1 ∧
      slotted.me.started + 100000 ≤ (later slotted 100000).meridian 0) ∧
    (slotted.meridian 0 < slotted.me.started + 100000 ∧ slotted.inGangsWay slotted.me = false) ∧
    ((waiter draining).saved = true ∧ (waiter draining).life = .queued ∧ (waiter draining).complete = false ∧
      (waiter draining).saveTime + (rootOf draining).drainLimit ≤ (later draining (rootOf draining).drainLimit).meridian 0 ∧
      draining.meridian 0 < (waiter draining).saveTime + (rootOf draining).drainLimit) := by decide +kernel

theorem w_SchedulersAndBudgets_stage2 : ((waiter halfSaved).saved = true ∧ (waiter halfSaved).life = .queued ∧ (waiter halfSaved).complete = false ∧
      (halfSaved.ownSats 2).all Sat.terminal = true) ∧ (stillCopies.ownSats 2).all Sat.terminal = false ∧
    okWith (halfSaved.savePieces (rootOf halfSaved) (waiter halfSaved).loc (imageBase (rootOf halfSaved) 7) ((0xB000, (halfSaved.slotRecords (waiter halfSaved)).flatMap wordsBytes) ::
        (match halfSaved.sliceOf 2 with | some l => matrixPieces l | none => []))) (fun _ t =>
      okWith ((t.release (waiter halfSaved).loc 3).savePieces (rootOf halfSaved) (waiter halfSaved).loc (imageBase (rootOf halfSaved) 7) [(0, wordsBytes [headerWord0 true 7])])
        fun _ _ => true) = true := by decide +kernel

/-- Regions with a time budget of 5 in 10 ns, all of it used; a part of it used; with a lifetime budget used up; with an owed record of the host queue. -/
def timed (f : Region → Region) : State := { demo with regions := demo.regions.map f }
def budgetOf (s : State) : Option (Nat × Nat × Nat × Bool) := (s.region? 0 0xFF00).map fun r => (r.tperiod, r.tbudget, r.periodUsed, r.exhausted)
def spent : State := timed fun r => { r with tperiod := 10, tbudget := 5, periodUsed := 5 }
def unspent : State := timed fun r => { r with tperiod := 10, tbudget := 5, periodUsed := 4 }
def aged : State := timed fun r => { r with hardns := 5, used := 5 }
def owed : State := demo.setHostq { demo.hostq 0 0 0 with owed := true }

theorem w_SchedulersAndBudgets_budgets : (demo.region? 0 0xFF00).map Region.state = some .bound ∧ budgetOf spent = some (10, 5, 5, false) ∧
    budgetOf unspent = some (10, 5, 4, false) ∧ (rootOf spent).periodStart + 10 ≤ (later spent 10).meridian 0 ∧ spent.meridian 0 < (rootOf spent).periodStart + 10 ∧
    (budgetOf demo).map Prod.fst = some 0 ∧ (aged.region? 0 0xFF00).map (fun r => (r.hardns, r.used)) = some (5, 5) ∧ (demo.region? 0 0xFF00).map Region.hardns = some 0 ∧
    ((owed.hostq 0 0 0).owed = true ∧ (owed.hostq 0 0 0).entries.length < (owed.hostq 0 0 0).size) ∧ (demo.hostq 0 0 0).owed = false := by decide +kernel

/-- An allocation without lines on core 5, where the root has no thread, to core 6. -/
def moving : State := { demo with allocs := demo.allocs ++ [⟨⟨0, 0, 5⟩, 0xFF00, 0⟩] }
def noAlloc : State := ({ moving with allocs := moving.allocs.filter fun a => !(a.loc == ⟨0, 0, 5⟩ && a.rid == 0xFF00) } : State).passScratch ⟨0, 0, 5⟩

theorem w_SchedulersAndBudgets_moves : (∃ a ∈ moving.allocs, a.loc = ⟨0, 0, 5⟩ ∧ a.rid = 0xFF00) ∧ moving.sats = [] ∧
    (∀ a ∈ moving.agents, a.loc ≠ ⟨0, 0, 5⟩) ∧ (rootOf moving).allows 0 = true ∧ (∀ a ∈ moving.allocs, a.loc ≠ ⟨0, 0, 6⟩) ∧
    moving.laneUsed ⟨0, 0, 6⟩ + moving.laneBytes ⟨0, 0, 5⟩ 0xFF00 ≤ 16384 ∧
    okWith (noAlloc.saveBytes (rootOf moving) ⟨0, 0, 5⟩ (rootOf moving).spsave (noAlloc.scratchBytes ⟨0, 0, 5⟩ 0xFF00 (moving.laneBytes ⟨0, 0, 5⟩ 0xFF00 / 128))) (fun _ v =>
      okWith ((v.release ⟨0, 0, 5⟩ 3).loadBytes (rootOf moving) ⟨0, 0, 6⟩ (rootOf moving).spsave
        (64 * moving.laneBytes ⟨0, 0, 5⟩ 0xFF00 + moving.laneBytes ⟨0, 0, 5⟩ 0xFF00 / 2 * 8)) fun _ _ => true) = true := by decide +kernel

/-- The host queue is full: no entry of loss is written until the host takes one. -/
def owedFull : State := owed.setHostq { owed.hostq 0 0 0 with entries := List.replicate (owed.hostq 0 0 0).size [] }

theorem w_SchedulersAndBudgets_fullQueue : (owedFull.hostq 0 0 0).owed = true ∧ (owedFull.hostq 0 0 0).size ≤ (owedFull.hostq 0 0 0).entries.length := by decide +kernel

/-- A record waits in the trace unit of die 0; a power event and one of event 1 wait there, with no buffer bound; a capture runs to 50 µs. -/
def recorded : State := { demo with tqueue := [⟨0, 0, 0xFF00, 0, 0, [1, 2]⟩] }
def powered (ev : Nat) : State := demo.updDie 0 0 fun x => { x with power := [⟨ev, 0, 0, 1, 7, []⟩] }
def capturing : State := demo.updDie 0 0 fun x => { x with captureEnd := some 50000 }
def ceiling (n : Nat) : State := demo.updDie 0 0 fun x => { x with limited := decide (0 < n), limCeil := n }
def throttled : State := demo.updDie 0 0 fun x => { x with throttle := true }
def tripped : State := demo.updDie 0 0 fun x => { x with tripped := true }

theorem w_PlatformTraceAndReset_trace : (∃ q ∈ recorded.tqueue, q.mod = 0 ∧ q.die = 0) ∧ (∀ q ∈ demo.tqueue, ¬ (q.mod = 0 ∧ q.die = 0)) ∧
    (demo.die 0 0).power = [] ∧ ((powered 1).die 0 0).power = [⟨1, 0, 0, 1, 7, []⟩] ∧ ((powered 2).die 0 0).power = [⟨2, 0, 0, 1, 7, []⟩] ∧
    (∀ b ∈ (powered 1).tbufs, ¬ (b.mod = 0 ∧ b.die = 0)) ∧
    (((capturing.die 0 0).captureEnd = some 50000 ∧ 50000 ≤ (later capturing 50000).meridian 0) ∧ (demo.die 0 0).captureEnd = none) := by decide +kernel

/-- An event of which core 3 held a context of region 5 and core 0 none; a buffer that captures, and one that does not; accesses of the root on die 0. -/
def heldEvent : PowerEv := ⟨2, 0, 0, 1, 7, [⟨5, 3, 2, 0, 1⟩]⟩
def bufferOf (ctl : Nat) : TraceBuf := { watched.tbufs.headD ⟨0, 0, 0, 0, 0, false, [], 0, 0, 0, 0, 0, 0, []⟩ with ctl := ctl }
def accessed : State := { demo with accs := [⟨0, 0, 0xFF00, 3⟩] }

theorem w_PlatformTraceAndReset_energy : (demo.region? 0 0xFF00).map Region.state = some .bound ∧
    (accessed.accs.filter fun a => a.mod == 0 && a.die == 0 && (accessed.region? 0 a.rid).any fun g => g.state == .bound) = [⟨0, 0, 0xFF00, 3⟩] ∧
    ((∃ q ∈ heldEvent.held, q.rid = 5) ∧ ∀ q ∈ heldEvent.held, q.rid ≠ 0xFF00) ∧
    ((bufferOf 1).ctl.testBit 1 = false ∧ (bufferOf 6).ctl.testBit 2 = true ∧ heldEvent.ev ≠ 1 ∧ heldEvent.ev ≠ 3) ∧
    (countedLine.counted? 0 (0x200000 / 128)).isSome = true ∧ demo.counted? 0 (0x200000 / 128) = none := by decide +kernel

theorem w_PlatformTraceAndReset_power : (((ceiling 6).die 0 0).limCeil < 7 ∧ 0 < ((ceiling 6).die 0 0).limCeil) ∧ 7 ≤ ((ceiling 7).die 0 0).limCeil ∧
    ((ceiling 0).die 0 0).limCeil = 0 ∧ ((ceiling 1).die 0 0).limCeil = 1 ∧ (demo.die 0 0).throttle = false ∧ (throttled.die 0 0).throttle = true ∧
    demo.regionsOn 1 0 = [] ∧ (tripped.die tripped.me.loc.mod tripped.me.loc.die).tripped = true := by decide +kernel

/-- Module 1's memory holds a 1; module 0 is reset. -/
theorem w_PlatformTraceAndReset_reset : (let s : State := { demo with mem := Memory.set demo.mem (cellOf 1 0) 1 }
    Memory.wf s.mem = true ∧ Memory.get s.mem (cellOf 1 0) = 1) ∧ demo.me.loc.mod = 0 ∧ State.reset.me.loc.mod = 0 := by decide +kernel

/-- The word `li x5, #1` placed at reset. -/
def placedWord : State := State.reset.withFetchWord 16 0x2825
def goesOn (o : Host.Outcome State Fault Refusal) : Bool := match o with | .next _ => true | _ => false
theorem next_of {o : Host.Outcome State Fault Refusal} (h : goesOn o = true) : ∃ t, o = .next t := by
  cases o with
  | next t => exact ⟨t, rfl⟩
  | fault _ => cases h
  | refused _ => cases h

theorem w_EveryStepKeepsMemoryCanonical : Memory.wf placedWord.mem = true ∧ ∃ t, step placedWord = .next t := ⟨by decide +kernel, next_of (by decide +kernel)⟩

end Sys2Proof.Tests
end

section
/-! Bytes of a line: the halfword at an offset of a line made of bytes, and a byte read alone against the same byte of its whole line (spec/00 R4). -/

namespace Sys2Proof.Machine

/-! ### Little-endian numbers -/

theorem bytesNat_lt : ∀ bs : List Byte, bytesNat bs < 256 ^ bs.length
  | [] => Nat.one_pos
  | b :: bs => by
    have hb := b.isLt
    have ih := bytesNat_lt bs
    rw [bytesNat, List.length_cons, Nat.pow_succ']
    omega

/-- Digit `o` in base 256 of little-endian bytes is byte `o`; past the end both are zero. -/
theorem bytesNat_div_mod : ∀ (bs : List Byte) (o : Nat), bytesNat bs / 256 ^ o % 256 = (bs.getD o 0).toNat
  | [], o => congrArg (· % 256) (Nat.zero_div (256 ^ o))
  | b :: bs, 0 => by
    have hb := b.isLt
    rw [bytesNat, Nat.pow_zero, Nat.div_one, List.getD_cons_zero]
    omega
  | b :: bs, o + 1 => by
    have hb := b.isLt
    have tail : (b.toNat + 256 * bytesNat bs) / 256 = bytesNat bs := by omega
    rw [bytesNat, Nat.pow_succ', ← Nat.div_div_eq_div_mul, tail, List.getD_cons_succ, bytesNat_div_mod bs o]

/-- Two bytes put together, the second the low one. -/
theorem toNat_append_byte (hi lo : Byte) : (hi ++ lo : BitVec 16).toNat = 256 * hi.toNat + lo.toNat := by
  rw [BitVec.toNat_append, ← Nat.shiftLeft_add_eq_or_of_lt lo.isLt, Nat.shiftLeft_eq, Nat.mul_comm]

/-- A word as wide as its bytes holds their number. -/
theorem ofNat_bytesNat_toNat {w : Nat} {bs : List Byte} (h : 8 * bs.length = w) : (BitVec.ofNat w (bytesNat bs)).toNat = bytesNat bs := by
  have fits := bytesNat_lt bs
  rw [show 256 = 2 ^ 8 from rfl, ← Nat.pow_mul, h] at fits
  rw [BitVec.toNat_ofNat, Nat.mod_eq_of_lt fits]

theorem lineOf_toNat {bs : List Byte} (h : bs.length = 128) : (lineOf bs).toNat = bytesNat bs := ofNat_bytesNat_toNat (by rw [h])

/-- The halfword from byte `o` of a line is bytes `o` and `o + 1`, little-endian. -/
theorem getField_lineOf_half {bs : List Byte} (h : bs.length = 128) (o : Nat) :
    BitVec.ofNat 16 (getField (lineOf bs) (8 * o) 16) = (bs.getD (o + 1) 0 ++ bs.getD o 0 : BitVec 16) := by
  have low := bytesNat_div_mod bs o
  have high := bytesNat_div_mod bs (o + 1)
  rw [Nat.pow_succ, ← Nat.div_div_eq_div_mul] at high
  apply BitVec.eq_of_toNat_eq
  rw [toNat_append_byte, BitVec.toNat_ofNat, getField, lineOf_toNat h, Nat.pow_mul]
  simp only [Nat.reducePow]
  omega

/-! ### A byte alone and in its line -/

@[simp] theorem natBytes_length : ∀ n v, (natBytes n v).length = n
  | 0, _ => rfl
  | n + 1, v => congrArg (· + 1) (natBytes_length n (v / 256))

theorem natBytes_getD : ∀ {n i : Nat} (v : Nat), i < n → (natBytes n v).getD i 0 = BitVec.ofNat 8 (v / 256 ^ i)
  | n + 1, 0, v, _ => by rw [natBytes, List.getD_cons_zero, Nat.pow_zero, Nat.div_one]
  | n + 1, i + 1, v, h => by
    rw [natBytes, List.getD_cons_succ, natBytes_getD _ (Nat.lt_of_succ_lt_succ h), Nat.div_div_eq_div_mul, Nat.pow_succ']

@[simp] theorem lineBytes_length (d : BitVec 1024) (o n : Nat) : (lineBytes d o n).length = n := natBytes_length n _

theorem lineBytes_one (d : BitVec 1024) {o : Nat} (h : o < 128) : (lineBytes d o 1).headD 0 = (lineBytes d 0 128).getD o 0 := by
  rw [lineBytes, lineBytes, natBytes_getD _ h, Nat.pow_zero, Nat.div_one]
  rfl

@[simp] theorem Memory.read_length (m : List Host.Cell) : ∀ k n, (Memory.read m k n).length = n
  | _, 0 => rfl
  | k, n + 1 => congrArg (· + 1) (Memory.read_length m (k + 1) n)

theorem Memory.read_getD (m : List Host.Cell) : ∀ {n i : Nat} (k : Nat), i < n → (Memory.read m k n).getD i 0 = Memory.get m (k + i)
  | n + 1, 0, k, _ => rfl
  | n + 1, i + 1, k, h => by
    rw [Memory.read, List.getD_cons_succ, Memory.read_getD m _ (Nat.lt_of_succ_lt_succ h), Nat.add_right_comm, Nat.add_assoc]

/-- The cell of an address (52 bits, spec/05 R127) is as far from the cell of its line as the address is from its line. -/
theorem cellOf_line (ep : Nat) {pa : Nat} (h : pa < 2 ^ 52) : cellOf ep (pa / 128 * 128) + pa % 128 = cellOf ep pa := by
  unfold cellOf
  omega

@[simp] theorem State.homeBytes_length (s : State) (ep pa n : Nat) : (s.homeBytes ep pa n).length = n := by
  unfold State.homeBytes
  split
  · exact lineBytes_length ..
  · exact Memory.read_length ..

@[simp] theorem State.homeSeen_length (s : State) (ep key pa n : Nat) : (s.homeSeen ep key pa n).length = n := by
  unfold State.homeSeen
  split
  · exact s.homeBytes_length ..
  · exact lineBytes_length ..

theorem State.homeBytes_one (s : State) (ep : Nat) {pa : Nat} (h : pa < 2 ^ 52) :
    (s.homeBytes ep pa 1).headD 0 = (s.homeBytes ep (pa / 128 * 128) 128).getD (pa % 128) 0 := by
  have ho : pa % 128 < 128 := Nat.mod_lt _ (by decide)
  unfold State.homeBytes
  rw [Nat.mul_div_left _ (by decide), Nat.mul_mod_left]
  split
  · exact lineBytes_one _ ho
  · rw [Memory.read_getD _ _ ho, cellOf_line ep h]
    rfl

theorem State.homeSeen_one (s : State) (ep key : Nat) {pa : Nat} (h : pa < 2 ^ 52) :
    (s.homeSeen ep key pa 1).headD 0 = (s.homeSeen ep key (pa / 128 * 128) 128).getD (pa % 128) 0 := by
  unfold State.homeSeen
  rw [Nat.mul_div_left _ (by decide), Nat.mul_mod_left]
  split
  · exact s.homeBytes_one ep h
  · exact lineBytes_one _ (Nat.mod_lt _ (by decide))

@[simp] theorem State.readLine_length (s : State) (v : Via) (pa n : Nat) : (s.readLine v pa n).1.length = n := by
  unfold State.readLine
  dsimp only
  split
  · exact State.homeSeen_length ..
  · exact lineBytes_length ..

/-- A byte that an access reads is that byte of its line as the same access reads it whole: at the home, or in the die's RDC (spec/05 R129). -/
theorem State.byteAt_eq_readLine (s : State) (v : Via) {pa : Nat} (h : pa < 2 ^ 52) :
    s.byteAt v pa = (s.readLine v (pa / 128 * 128) 128).1.getD (pa % 128) 0 := by
  unfold State.byteAt State.readLine
  rw [Nat.mul_div_left _ (by decide), Nat.mul_mod_left]
  dsimp only
  split
  · exact State.homeSeen_one _ _ _ h
  · exact lineBytes_one _ (Nat.mod_lt _ (by decide))

end Sys2Proof.Machine
end

section
/-! Fetching a halfword through the core's instruction cache (spec/03 R91 to R93). -/

namespace Sys2Proof.Machine

/-- The line that a space fetches, as an agent of the die reads it. -/
def State.fetchedLine (s : State) (v : Via) (line : Nat) : BitVec 1024 := lineOf (s.readLine v (line * 128) 128).1

/-- A line just kept is the one that its core's instruction cache gives for its space. -/
theorem State.code?_keepCode (s : State) (sp : Space) (line : Nat) (d : BitVec 1024) :
    (s.keepCode ⟨sp.loc, sp.vif, sp.asid, sp.loc.mod, line, d⟩).code? sp line = some ⟨sp.loc, sp.vif, sp.asid, sp.loc.mod, line, d⟩ := by
  simp only [State.code?, State.keepCode]
  exact List.find?_cons_of_pos (by simp only [BEq.rfl, Bool.and_self])

@[simp] theorem State.codeSpace_loc (s : State) : s.codeSpace.loc = s.me.loc := by
  unfold State.codeSpace State.mySpace State.space
  split <;> rfl

/-- A halfword whose line is not in the instruction cache: the line is read as an agent of the die reads it, and kept. -/
theorem State.fetchHalf_miss {s t : State} {va : Word} {pa : Nat} {v : Via} (tr : s.translate s.codeSpace va.toNat .fetch = (.ok (pa, v), t))
    (miss : t.code? t.codeSpace (pa / 128) = none) (good : t.readBad v pa = false) :
    s.fetchHalf va =
      (.ok (BitVec.ofNat 16 (getField (t.fetchedLine v (pa / 128)) (8 * (pa % 128)) 16)),
        (t.readLine v (pa / 128 * 128) 128).2.keepCode
          ⟨t.codeSpace.loc, t.codeSpace.vif, t.codeSpace.asid, t.codeSpace.loc.mod, pa / 128, t.fetchedLine v (pa / 128)⟩) := by
  simp only [State.fetchHalf, tr, miss, good, Bool.false_eq_true, if_false, State.codeSpace_loc, State.fetchedLine]

/-- A halfword of a fetched line is its two bytes as the die reads them: an even address and the next are of one line. -/
theorem State.fetchedLine_half (s : State) (v : Via) {pa : Nat} (even : pa % 2 = 0) (h : pa < 2 ^ 52) :
    BitVec.ofNat 16 (getField (s.fetchedLine v (pa / 128)) (8 * (pa % 128)) 16) = (s.byteAt v (pa + 1) ++ s.byteAt v pa : BitVec 16) := by
  have sameLine : (pa + 1) / 128 = pa / 128 := by omega
  have nextByte : (pa + 1) % 128 = pa % 128 + 1 := by omega
  rw [State.byteAt_eq_readLine s v (by omega : pa + 1 < 2 ^ 52), State.byteAt_eq_readLine s v h, sameLine, nextByte, State.fetchedLine,
    getField_lineOf_half (s.readLine_length ..)]

/-- Settles O6: a miss keeps the line that `fetchHalf_miss` reads, and its halfword is the two bytes by `fetchedLine_half`. -/
theorem fetchReadsTheCodeBytes : Obligations.FetchReadsTheCodeBytes := by
  intro s t va pa v tr miss even inRange good
  rw [State.fetchHalf_miss tr miss good]
  exact ⟨congrArg Except.ok (t.fetchedLine_half v even inRange), Option.isSome_of_eq_some (State.code?_keepCode ..)⟩

end Sys2Proof.Machine
end

section
/-! Reading the halfwords of a chain back (spec/03 R68 to R71): the fields of a leading word (IMM, EXT, PAGE or MASK, R69) and of a base word,
and the parser on the words that the encoder writes. -/

namespace Sys2Proof

/-! ### Fields of a halfword -/

@[simp] theorem isPfx_pfxWord (k : BitVec 2) (p : Byte) : (pfxWord k p).isPfx = true := by
  revert k p
  decide +kernel

@[simp] theorem w_pfxWord (k : BitVec 2) (p : Byte) : (pfxWord k p).w = false := by
  revert k p
  decide +kernel

@[simp] theorem kind_pfxWord (k : BitVec 2) (p : Byte) : (pfxWord k p).kind = k := by
  revert k p
  decide +kernel

@[simp] theorem payload_pfxWord (k : BitVec 2) (p : Byte) : (pfxWord k p).payload = p := by
  revert k p
  decide +kernel

@[simp] theorem a_baseWord (w : Bool) (op b a : BitVec 5) : (baseWord w op b a).a = a :=
  BitVec.extractLsb'_append_eq_right (a := BitVec.ofBool w ++ op ++ b)

@[simp] theorem b_baseWord (w : Bool) (op b a : BitVec 5) : (baseWord w op b a).b = b := by
  change (BitVec.ofBool w ++ op ++ b ++ a : BitVec (1 + 5 + 5 + 5)).extractLsb' 5 5 = b
  rw [BitVec.extractLsb'_append_eq_of_le (by decide)]
  exact BitVec.extractLsb'_append_eq_right

@[simp] theorem op_baseWord (w : Bool) (op b a : BitVec 5) : (baseWord w op b a).op = op := by
  change (BitVec.ofBool w ++ op ++ b ++ a : BitVec (1 + 5 + 5 + 5)).extractLsb' 10 5 = op
  rw [BitVec.extractLsb'_append_eq_of_le (by decide), BitVec.extractLsb'_append_eq_of_le (by decide)]
  exact BitVec.extractLsb'_append_eq_right

@[simp] theorem w_baseWord (w : Bool) (op b a : BitVec 5) : (baseWord w op b a).w = w := by
  change (BitVec.ofBool w ++ op ++ b ++ a : BitVec (1 + 5 + 5 + 5)).getLsbD 15 = w
  rw [BitVec.getLsbD_append, BitVec.getLsbD_append, BitVec.getLsbD_append]
  exact BitVec.getLsbD_ofBool w 0

/-! ### The parser, word by word -/

/-- Fewer than four leading words so far, and one more: the parser goes on with it read. -/
theorem parseFrom_pfx {p p' : Pfx} {w : Half} (h : w.isPfx = true) (add : p.add w = .ok p') (l : List Half) :
    parseFrom p (w :: l) = parseFrom p' l := by
  rw [parseFrom, if_pos h, add]

theorem parseFrom_page {p : Pfx} (room : p.n < 4) (first : p.page = none) (g : Byte) (l : List Half) :
    parseFrom p (pfxWord 2 g :: l) = parseFrom { p with n := p.n + 1, page := some g } l :=
  parseFrom_pfx (isPfx_pfxWord ..) (by simp [Pfx.add, room, first]) l

theorem parseFrom_imm {p : Pfx} (room : p.n < 4) (b : Byte) (l : List Half) :
    parseFrom p (pfxWord 0 b :: l) = parseFrom { p with n := p.n + 1, ws := p.ws ++ [b] } l :=
  parseFrom_pfx (isPfx_pfxWord ..) (by simp [Pfx.add, room]) l

theorem parseFrom_imms : ∀ (ws : List Byte) {p : Pfx}, p.n + ws.length ≤ 4 → ∀ l : List Half,
    parseFrom p (ws.map (pfxWord 0) ++ l) = parseFrom { p with n := p.n + ws.length, ws := p.ws ++ ws } l
  | [], p, _, l => by simp
  | b :: ws, p, room, l => by
    rw [List.length_cons] at room
    rw [List.map_cons, List.cons_append, parseFrom_imm (by omega), parseFrom_imms ws (by simp only; omega)]
    simp [Nat.add_assoc, Nat.add_comm 1]

/-- The words of an optional part of a chain, none or one. -/
def optWords (kind : BitVec 2) (e : Option Byte) : List Half := e.toList.map (pfxWord kind)

theorem parseFrom_ext {p : Pfx} (e : Option Byte) (room : p.n + present e ≤ 4) (first : p.ext = none) (l : List Half) :
    parseFrom p (optWords 1 e ++ l) = parseFrom { p with n := p.n + present e, ext := e } l := by
  cases e with
  | none => cases p; cases first; rfl
  | some e => exact parseFrom_pfx (isPfx_pfxWord ..) (by simp [Pfx.add, show p.n < 4 from room, first, present]) l

theorem parseFrom_mask {p : Pfx} (m : Option Byte) (room : p.n + present m ≤ 4) (first : p.mask = none) (zero : ∀ b ∈ m, b.getLsbD 7 = false) (l : List Half) :
    parseFrom p (optWords 3 m ++ l) = parseFrom { p with n := p.n + present m, mask := m } l := by
  cases m with
  | none => cases p; cases first; rfl
  | some b =>
    have reserved : b[7] = false := zero b rfl
    exact parseFrom_pfx (isPfx_pfxWord ..) (by simp [Pfx.add, show p.n < 4 from room, first, present, reserved]) l

theorem parseFrom_base {p : Pfx} {op : BitVec 5} (h : op ≠ 31) (w : Bool) (b a : BitVec 5) (l : List Half) :
    parseFrom p (baseWord w op b a :: l) = .ok (p.close (baseWord w op b a)) := by
  rw [parseFrom, if_neg (by simpa [Half.isPfx] using h)]

end Sys2Proof
end

section
/-! A chain is what the parser reads from its halfwords (spec/03 R68 to R71, R97). -/

namespace Sys2Proof

/-- What the halfwords of a chain need in order to name it: a length that counts its leading words (R70, R71), an opcode that is not the mark of a
leading word (R69), and MASK [7] clear (R74). -/
def Chain.fits (c : Chain) : Prop := lenOk c.page.toNat c.plainPfx c.hdr = true ∧ c.op ≠ 31 ∧ ∀ m ∈ c.mask, m.getLsbD 7 = false

theorem Chain.halves_eq (c : Chain) : c.halves = (if c.hasPage then [pfxWord 2 c.page] else []) ++
    (c.ws.map (pfxWord 0) ++ (optWords 1 c.ext ++ (optWords 3 c.mask ++ [baseWord c.wait c.op c.b c.a]))) := by
  unfold Chain.halves
  cases c.ext <;> cases c.mask <;> simp [optWords]

/-- A chain without a PAGE word is of page 0. -/
theorem Chain.page_of_hasPage_false {c : Chain} (h : c.hasPage = false) : c.page = 0 := by
  simp only [Chain.hasPage, Bool.or_eq_false_iff, bne_eq_false_iff_eq] at h
  exact h.1

/-- The length of a chain that fits is that of its halfwords, of which all but one, and four at most, are leading words. -/
theorem Chain.fits.len_eq {c : Chain} (h : c.fits) : c.len = c.plainPfx + (if c.hasPage then 1 else 0) + 1 ∧ c.len ≤ 5 := by
  obtain ⟨hlen, -, -⟩ := h
  rw [lenOk, Bool.and_eq_true] at hlen
  obtain ⟨most, count⟩ := hlen
  refine ⟨?_, of_decide_eq_true most⟩
  have page0 : c.page.toNat = 0 ↔ c.page = 0 := ⟨fun h => BitVec.eq_of_toNat_eq h, fun h => by rw [h]; rfl⟩
  by_cases hp : c.page = 0
  · simp only [page0.mpr hp, if_true, Bool.or_eq_true, beq_iff_eq, Chain.hdr] at count
    by_cases two : c.len = c.plainPfx + 2 <;> simp [Chain.hasPage, hp, two]
    omega
  · simp only [mt page0.mp hp, if_false, beq_iff_eq, Chain.hdr] at count
    simp [Chain.hasPage, count]

/-- The parser reads the leading words other than PAGE and the base word of a chain, after a PAGE word or none. -/
theorem parseFrom_plain {c : Chain} (h : c.fits) {n : Nat} {g : Option Byte} (len : c.len = n + c.plainPfx + 1) (page : g.getD 0 = c.page) (rest : List Half) :
    parseFrom ⟨n, g, [], none, none⟩
      (c.ws.map (pfxWord 0) ++ (optWords 1 c.ext ++ (optWords 3 c.mask ++ (baseWord c.wait c.op c.b c.a :: rest)))) = .ok c := by
  have most := h.len_eq.2
  obtain ⟨-, hop, hmask⟩ := h
  unfold Chain.plainPfx at len
  rw [parseFrom_imms _ (by simp only; omega), parseFrom_ext _ (by simp only; omega) rfl, parseFrom_mask _ (by simp only; omega) rfl hmask,
    parseFrom_base hop]
  cases c
  simp_all [Pfx.close, Nat.add_assoc]

/-- The encoder's words of a chain that fits are read back as that chain, whatever follows them. -/
theorem parseChain_halves {c : Chain} (h : c.fits) (rest : List Half) : parseChain (c.halves ++ rest) = .ok c := by
  obtain ⟨len, -⟩ := h.len_eq
  rw [Chain.halves_eq, parseChain, Pfx.start]
  simp only [List.append_assoc, List.singleton_append]
  cases hp : c.hasPage
  case true =>
    rw [if_pos rfl, List.singleton_append, parseFrom_page (Nat.zero_lt_succ 3) rfl]
    rw [if_pos hp] at len
    exact parseFrom_plain (n := 1) (g := some c.page) h (by omega) rfl rest
  case false =>
    rw [if_neg (by decide), List.nil_append]
    rw [if_neg (by simp [hp])] at len
    exact parseFrom_plain (g := none) h (by omega) (Chain.page_of_hasPage_false hp).symm rest

end Sys2Proof
end

section
/-! The chain of a well-formed instruction fits its halfwords: what `Instr.wf` asks of the length of a row is what the leading words of its chain come to. -/

namespace Sys2Proof

@[simp] theorem present_none {α : Type} : present (none : Option α) = 0 := rfl

@[simp] theorem present_some {α : Type} (a : α) : present (some a) = 1 := rfl

@[simp] theorem present_map {α β : Type} (f : α → β) (o : Option α) : present (o.map f) = present o := by cases o <;> rfl

@[simp] theorem RegImm.length_ws (t : RegImm) : t.ws.length = t.words := by cases t <;> rfl

/-- MASK [7] is zero in what the encoder writes (R74). -/
@[simp] theorem Mask.byte_reserved (m : Mask) : m.byte[7] = false := by
  obtain ⟨s, z, i, p⟩ := m
  revert s z i p
  decide +kernel

theorem chainOf_fits {page : Byte} {op : BitVec 5} {h : Hdr} {ws : List Byte} {ext mask : Option Byte} (a b : BitVec 5)
    (len : lenOk page.toNat (ws.length + present ext + present mask) h = true) (hop : op ≠ 31) (zero : ∀ m ∈ mask, m[7] = false) :
    (chainOf page op h a b ws ext mask).fits := ⟨len, hop, zero⟩

/-- `udf` keeps its whole chain, and its own rule is that the chain fits (R186). -/
theorem udf_fits {c : Chain} (hw : (Instr.udf c).wf = true) : c.fits := by
  simp only [Instr.wf, Bool.and_eq_true, beq_iff_eq, decide_eq_true_eq] at hw
  obtain ⟨⟨⟨⟨⟨page, op⟩, least⟩, most⟩, pages⟩, reserved⟩ := hw
  have count : c.len = c.plainPfx + 1 ∨ c.len = c.plainPfx + 2 := by unfold Chain.plainPfx; omega
  refine ⟨?_, by rw [op]; decide, fun m hm => ?_⟩
  · simpa [lenOk, Chain.hdr, page, most] using count
  · rw [Option.mem_def.mp hm] at reserved
    exact Nat.testBit_lt_two_pow (of_decide_eq_true reserved)

/-- The chain of every row but `udf` is one of its operands' class, and its length is the first thing that `Instr.wf` asks for. -/
theorem Instr.chain_fits {i : Instr} {c : Chain} (hw : i.wf = true) (hc : i.chain = some c) : c.fits := by
  cases i
  all_goals cases hc
  case udf => exact udf_fits hw
  all_goals simp only [Instr.wf, Bool.and_eq_true] at hw
  all_goals refine chainOf_fits _ _ ?_ (by decide) ?_
  all_goals simp [hw]

end Sys2Proof
end

section
/-! Every well-formed instruction is read back from its encoding. -/

namespace Sys2Proof.Laws

open Encoding (Statement)

/-- The rows' lemmas put together: every well-formed instruction has a chain, and the chain decodes to the instruction's row. -/
theorem Encoding.every_row : ∀ i : Instr, Statement i
  | .add h o => Encoding.add h o | .sub h o => Encoding.sub h o | .and h o => Encoding.and h o | .or h o => Encoding.or h o | .xor h o => Encoding.xor h o
  | .sll h o => Encoding.sll h o | .srl h o => Encoding.srl h o | .sra h o => Encoding.sra h o | .slt h o => Encoding.slt h o
  | .sltu h o => Encoding.sltu h o | .li h o => Encoding.li h o | .lhi h o => Encoding.lhi h o | .ld h o => Encoding.ld h o | .st h o => Encoding.st h o
  | .beq h o => Encoding.beq h o | .bne h o => Encoding.bne h o | .blt h o => Encoding.blt h o | .bge h o => Encoding.bge h o
  | .bltu h o => Encoding.bltu h o | .bgeu h o => Encoding.bgeu h o | .jal h o => Encoding.jal h o | .jalr h o => Encoding.jalr h o
  | .fence h o => Encoding.fence h o | .fenceComplete n => Encoding.fenceComplete n | .mul h o => Encoding.mul h o | .addq h o => Encoding.addq h o
  | .la h o => Encoding.la h o | .mfcr h o => Encoding.mfcr h o | .mfcrStream h o => Encoding.mfcrStream h o | .mtcr h o => Encoding.mtcr h o
  | .mtcrVl h o => Encoding.mtcrVl h o | .mtcrEfc h o => Encoding.mtcrEfc h o | .mtcrFpcsr h o => Encoding.mtcrFpcsr h o
  | .mtcrSlip h o => Encoding.mtcrSlip h o | .mtcrSattr h o => Encoding.mtcrSattr h o | .mtcrGangto h o => Encoding.mtcrGangto h o
  | .brk h o => Encoding.brk h o | .ecall h o => Encoding.ecall h o | .udf c => Encoding.udf c | .mulh h o => Encoding.mulh h o
  | .mulhu h o => Encoding.mulhu h o | .div h o => Encoding.div h o | .divu h o => Encoding.divu h o | .rem h o => Encoding.rem h o
  | .remu h o => Encoding.remu h o | .clz h o => Encoding.clz h o | .ctz h o => Encoding.ctz h o | .popc h o => Encoding.popc h o
  | .rotl h o => Encoding.rotl h o | .bext h o => Encoding.bext h o | .bdep h o => Encoding.bdep h o | .min h o => Encoding.min h o
  | .max h o => Encoding.max h o | .minu h o => Encoding.minu h o | .maxu h o => Encoding.maxu h o | .amoadd h o => Encoding.amoadd h o
  | .amoswap h o => Encoding.amoswap h o | .amocas h o => Encoding.amocas h o | .amomax h o => Encoding.amomax h o | .amoor h o => Encoding.amoor h o
  | .amoand h o => Encoding.amoand h o | .fadd h o => Encoding.fadd h o | .fsub h o => Encoding.fsub h o | .fmul h o => Encoding.fmul h o
  | .fdiv h o => Encoding.fdiv h o | .fmadd h o => Encoding.fmadd h o | .fcmp h o => Encoding.fcmp h o | .fcvt h o => Encoding.fcvt h o
  | .fsqrt h o => Encoding.fsqrt h o | .rdtime h o => Encoding.rdtime h o | .vadd h o => Encoding.vadd h o | .vsub h o => Encoding.vsub h o
  | .vmul h o => Encoding.vmul h o | .vmulh h o => Encoding.vmulh h o | .vand h o => Encoding.vand h o | .vor h o => Encoding.vor h o
  | .vxor h o => Encoding.vxor h o | .vsll h o => Encoding.vsll h o | .vsrl h o => Encoding.vsrl h o | .vsra h o => Encoding.vsra h o
  | .vmin h o => Encoding.vmin h o | .vmax h o => Encoding.vmax h o | .vminu h o => Encoding.vminu h o | .vmaxu h o => Encoding.vmaxu h o
  | .vaddsat h o => Encoding.vaddsat h o | .vfadd h o => Encoding.vfadd h o | .vfsub h o => Encoding.vfsub h o | .vfmul h o => Encoding.vfmul h o
  | .vfdiv h o => Encoding.vfdiv h o | .vfma h o => Encoding.vfma h o | .vfmin h o => Encoding.vfmin h o | .vfmax h o => Encoding.vfmax h o
  | .vfsqrt h o => Encoding.vfsqrt h o | .vfexp2 h o => Encoding.vfexp2 h o | .vcmp h o => Encoding.vcmp h o | .vfcmp h o => Encoding.vfcmp h o
  | .vsel h o => Encoding.vsel h o | .vbcast h o => Encoding.vbcast h o | .vid h o => Encoding.vid h o | .vmerge h o => Encoding.vmerge h o
  | .vclass h o => Encoding.vclass h o | .vld h o => Encoding.vld h o | .vlds h o => Encoding.vlds h o | .vldx h o => Encoding.vldx h o
  | .vst h o => Encoding.vst h o | .vsts h o => Encoding.vsts h o | .vstx h o => Encoding.vstx h o | .vlsp h o => Encoding.vlsp h o
  | .vlspx h o => Encoding.vlspx h o | .vssp h o => Encoding.vssp h o | .vsspx h o => Encoding.vsspx h o | .vlspc h o => Encoding.vlspc h o
  | .vldc h o => Encoding.vldc h o | .vstc h o => Encoding.vstc h o | .vperm h o => Encoding.vperm h o | .vslide h o => Encoding.vslide h o
  | .vredsum h o => Encoding.vredsum h o | .vredmax h o => Encoding.vredmax h o | .vredmin h o => Encoding.vredmin h o
  | .vfredsum h o => Encoding.vfredsum h o | .vscan h o => Encoding.vscan h o | .vcompress h o => Encoding.vcompress h o
  | .vappend h o => Encoding.vappend h o | .vcvt h o => Encoding.vcvt h o | .vcvtef h o => Encoding.vcvtef h o | .plog h o => Encoding.plog h o
  | .pcnt h o => Encoding.pcnt h o | .pfirst h o => Encoding.pfirst h o | .setvl h o => Encoding.setvl h o | .vmvx h o => Encoding.vmvx h o
  | .vmvv h o => Encoding.vmvv h o | .vfault h o => Encoding.vfault h o | .vectorAddressStage n => Encoding.vectorAddressStage n
  | .clusterExecuteEntry n g b stall ns => Encoding.clusterExecuteEntry n g b stall ns | .mcfg h o => Encoding.mcfg h o | .mscl h o => Encoding.mscl h o
  | .mgrp h o => Encoding.mgrp h o | .mclr h o => Encoding.mclr h o | .mma h o => Encoding.mma h o | .gangStall n => Encoding.gangStall n
  | .mmaGroupStep n => Encoding.mmaGroupStep n | .mldacc h o => Encoding.mldacc h o | .mdrn h o => Encoding.mdrn h o | .mdrnx h o => Encoding.mdrnx h o
  | .drainLine n => Encoding.drainLine n | .mstat h o => Encoding.mstat h o | .mstclr h o => Encoding.mstclr h o | .cpy h o => Encoding.cpy h o
  | .cpy2 h o => Encoding.cpy2 h o | .cpypToScratch h o => Encoding.cpypToScratch h o | .cpypFromScratch h o => Encoding.cpypFromScratch h o
  | .cpykGet h o => Encoding.cpykGet h o | .cpykPut h o => Encoding.cpykPut h o | .copyUnit n => Encoding.copyUnit n | .coll h o => Encoding.coll h o
  | .collStepBegin n => Encoding.collStepBegin n | .collNoticeArrival n => Encoding.collNoticeArrival n
  | .collNoticeResend n => Encoding.collNoticeResend n | .collNoticeTimeout n => Encoding.collNoticeTimeout n | .swait h o => Encoding.swait h o
  | .stest h o => Encoding.stest h o | .scancel h o => Encoding.scancel h o | .sdetach h o => Encoding.sdetach h o | .sprio h o => Encoding.sprio h o
  | .sfault h o => Encoding.sfault h o | .sadopt h o => Encoding.sadopt h o | .swaitall h => Encoding.swaitall h | .sleepu h o => Encoding.sleepu h o
  | .spromise h o => Encoding.spromise h o | .sattr h o => Encoding.sattr h o | .cdrain h o => Encoding.cdrain h o | .parkWake n => Encoding.parkWake n
  | .satelliteLaunch n => Encoding.satelliteLaunch n | .satelliteBegin n => Encoding.satelliteBegin n
  | .satellitePriorityAging n => Encoding.satellitePriorityAging n | .promiseMiss n => Encoding.promiseMiss n | .kld h o => Encoding.kld h o
  | .kst h o => Encoding.kst h o | .kmov h o => Encoding.kmov h o | .knarrow h o => Encoding.knarrow h o | .krights h o => Encoding.krights h o
  | .kgive h o => Encoding.kgive h o | .kpaths h o => Encoding.kpaths h o | .kinfo h o => Encoding.kinfo h o | .rld h o => Encoding.rld h o
  | .rst h o => Encoding.rst h o | .ramoAdd h o => Encoding.ramoAdd h o | .ramoSwap h o => Encoding.ramoSwap h o | .ramoCas h o => Encoding.ramoCas h o
  | .ramoMax h o => Encoding.ramoMax h o | .ramoOr h o => Encoding.ramoOr h o | .ramoAnd h o => Encoding.ramoAnd h o
  | .ramoAddn h o => Encoding.ramoAddn h o | .rvld h o => Encoding.rvld h o | .rvst h o => Encoding.rvst h o | .send h o => Encoding.send h o
  | .sendR h o => Encoding.sendR h o | .sendr h o => Encoding.sendr h o | .hclr h o => Encoding.hclr h o | .hset h o => Encoding.hset h o
  | .hret h => Encoding.hret h | .hmask h o => Encoding.hmask h o | .sqfree h o => Encoding.sqfree h o | .spawn h o => Encoding.spawn h o
  | .spawnQueue n => Encoding.spawnQueue n | .exit h => Encoding.exit h | .yield h => Encoding.yield h | .jdec h o => Encoding.jdec h o
  | .rett h => Encoding.rett h | .mfpr h o => Encoding.mfpr h o | .mtpr h o => Encoding.mtpr h o | .mtprMchkClear h o => Encoding.mtprMchkClear h o
  | .tlbi h o => Encoding.tlbi h o | .icinv h => Encoding.icinv h | .cflush h o => Encoding.cflush h o | .ctxsave h o => Encoding.ctxsave h o
  | .ctxload h o => Encoding.ctxload h o | .rgnbindBind h o => Encoding.rgnbindBind h o | .rgnbindReload h o => Encoding.rgnbindReload h o
  | .rgnbindEnd h o => Encoding.rgnbindEnd h o | .qmap h o => Encoding.qmap h o | .trcctl h o => Encoding.trcctl h o | .kmint h o => Encoding.kmint h o
  | .krekeyAdvance h o => Encoding.krekeyAdvance h o | .krekeyRotate h o => Encoding.krekeyRotate h o | .wfi h => Encoding.wfi h
  | .pstateSet h o => Encoding.pstateSet h o | .pstateRead h o => Encoding.pstateRead h o | .longLatencyResult n o => Encoding.longLatencyResult n o
  | .storeHomeFailure n => Encoding.storeHomeFailure n | .eventBoundary n => Encoding.eventBoundary n | .messageAccept n => Encoding.messageAccept n
  | .handlerStart n c g => Encoding.handlerStart n c g | .handlerBusyTimeout n => Encoding.handlerBusyTimeout n
  | .handlerCycleLimit n => Encoding.handlerCycleLimit n | .sendAck n => Encoding.sendAck n | .messageReturn n => Encoding.messageReturn n
  | .replyAccept n => Encoding.replyAccept n | .remoteResponse n => Encoding.remoteResponse n | .ingressPacket n => Encoding.ingressPacket n
  | .egressCheck n => Encoding.egressCheck n | .vaultForward n => Encoding.vaultForward n | .retransmit n => Encoding.retransmit n
  | .endToEndFailure n => Encoding.endToEndFailure n | .streamStateRelease m d t => Encoding.streamStateRelease m d t
  | .flitReceive ep p f => Encoding.flitReceive ep p f | .ackTimeout ep p => Encoding.ackTimeout ep p
  | .linkRetrain ep p lanes => Encoding.linkRetrain ep p lanes | .beaconExchange m s1 a1 s2 a2 => Encoding.beaconExchange m s1 a1 s2 a2
  | .meridianFreeRun m => Encoding.meridianFreeRun m | .referenceFailover m => Encoding.referenceFailover m
  | .keywrightTakeover m => Encoding.keywrightTakeover m | .rotationAcknowledged => Encoding.rotationAcknowledged
  | .tagGraceExpiry => Encoding.tagGraceExpiry | .slotBoundary m d r => Encoding.slotBoundary m d r | .queueAging m d r => Encoding.queueAging m d r
  | .threadPlace n c x g q => Encoding.threadPlace n c x g q | .threadQuantum n => Encoding.threadQuantum n
  | .timeBudgetSpent m r => Encoding.timeBudgetSpent m r | .timePeriodBegin m r => Encoding.timePeriodBegin m r
  | .lifetimeBudget m r n => Encoding.lifetimeBudget m r n | .contextSaveStage2 n => Encoding.contextSaveStage2 n
  | .drainLimitExpiry n => Encoding.drainLimitExpiry n | .scratchpadMove m r d c d2 c2 => Encoding.scratchpadMove m r d c d2 c2
  | .launchBind n => Encoding.launchBind n | .launchCreateThread n => Encoding.launchCreateThread n | .launchEndRegion n => Encoding.launchEndRegion n
  | .launchReload n => Encoding.launchReload n | .hostQueueWrite m v q => Encoding.hostQueueWrite m v q | .traceSample m d r => Encoding.traceSample m d r
  | .traceFlush m d => Encoding.traceFlush m d | .powerEvent m d temp watts => Encoding.powerEvent m d temp watts
  | .captureEnd m d => Encoding.captureEnd m d | .energyMeter m d c r nj => Encoding.energyMeter m d c r nj
  | .powerLimitStep m d up => Encoding.powerLimitStep m d up | .thermalThrottle m d on => Encoding.thermalThrottle m d on
  | .thermalTrip m d => Encoding.thermalTrip m d | .scrub m => Encoding.scrub m
  | .uncorrectableError m d c unit pa who => Encoding.uncorrectableError m d c unit pa who | .reset m stop fail => Encoding.reset m stop fail
  | .attestationRequest m nonce => Encoding.attestationRequest m nonce | .joinDecrement n => Encoding.joinDecrement n | .tlbiDone n => Encoding.tlbiDone n
  | .mldaccLine n => Encoding.mldaccLine n | .injectionRelease n => Encoding.injectionRelease n | .portReset ep p => Encoding.portReset ep p
  | .hostInterfaceTakeover m => Encoding.hostInterfaceTakeover m

/-- Settles O1: the parser reads the chain back from its halfwords by `parseChain_halves`, and the row's lemma decodes the chain. -/
theorem decodeOfEncodeIsTheInstruction : Obligations.DecodeOfEncodeIsTheInstruction := by
  intro i rest hw
  obtain ⟨c, hc, decodes⟩ := Encoding.every_row i hw
  have halves : encode i = c.halves := by rw [encode, hc]
  rw [decodeHalves, halves, parseChain_halves (Instr.chain_fits hw hc)]
  exact decodes

end Sys2Proof.Laws
end

section
/-! What the decoder gives is the first row of its opcode (log entry 11): no builder of the opcode map (spec/03 R83 to R85) gives one of the four rows that a
run-time operand alone tells from another. -/

namespace Sys2Proof

theorem mfcrRow_first (h : Hdr) (o : CRN) : (mfcrRow h o).decodedRow = mfcrRow h o := by unfold mfcrRow; split <;> rfl

theorem mtcrRow_first (h : Hdr) (o : CRN) : (mtcrRow h o).decodedRow = mtcrRow h o := by unfold mtcrRow; split <;> rfl

theorem mtprRow_first (h : Hdr) (o : CRN) : (mtprRow h o).decodedRow = mtprRow h o := by unfold mtprRow; split <;> rfl

theorem cpypRow_first (h : Hdr) (o : SCP) : (cpypRow h o).decodedRow = cpypRow h o := by unfold cpypRow; split <;> rfl

theorem cpykRow_first (h : Hdr) (o : SKY) : (cpykRow h o).decodedRow = cpykRow h o := by unfold cpykRow; split <;> rfl

theorem sendRow_first (h : Hdr) (o : MSG) : (sendRow h o).decodedRow = sendRow h o := by unfold sendRow; split <;> rfl

theorem ramoRow_first (h : Hdr) (o : RMT) : (ramoRow h o).map Instr.decodedRow = ramoRow h o := by unfold ramoRow; split <;> rfl

/-- Each entry of the opcode map builds one constructor from the operands of its class, or picks a row by a field of the chain. -/
theorem opEntry_first {page op : Nat} {e : OpEntry} (h : opEntry page op = some e) (c : Chain) : (e.2 c).map Instr.decodedRow = e.2 c := by
  unfold opEntry page0 page1 page2 page3 page4 page5 page6 page7 at h
  split at h
  case h_9 => cases h
  all_goals split at h
  all_goals cases h
  all_goals
    simp only [Option.map_some, Option.map_map, Option.map_bind, Function.comp_def, mfcrRow_first, mtcrRow_first, mtprRow_first, cpypRow_first,
      cpykRow_first, sendRow_first, ramoRow_first]
  all_goals rfl

theorem chainEntry_eq_ok {c : Chain} {e : OpEntry} (h : chainEntry c = .ok e) : opEntry c.page.toNat c.op.toNat = some e := by
  unfold chainEntry at h
  split at h
  · cases h
  · split at h <;> cases h
    assumption

/-- What step 6 of spec/03 R75 lets through is well formed and comes from the entry's builder. -/
theorem entryDecode_eq_ok {e : OpEntry} {c : Chain} {i : Instr} (h : entryDecode e c = .ok i) : e.2 c = some i ∧ i.wf = true := by
  unfold entryDecode at h
  split at h
  · cases h
  · split at h
    · cases h
    · split at h <;> cases h
      exact ⟨‹_›, ‹_›⟩

theorem chainDecode_eq_ok {c : Chain} {i : Instr} (h : chainDecode c = .ok i) : ∃ e, chainEntry c = .ok e ∧ entryDecode e c = .ok i := by
  unfold chainDecode at h
  split at h
  · cases h
  · exact ⟨_, ‹_›, h⟩

theorem decodeHalves_eq_ok {hs : List Half} {i : Instr} (h : decodeHalves hs = .ok i) : ∃ c, parseChain hs = .ok c ∧ chainDecode c = .ok i := by
  unfold decodeHalves at h
  split at h
  · cases h
  · exact ⟨_, ‹_›, h⟩

/-- Settles O2: the last check of the decoder is `Instr.wf`, and the opcode map builds first rows only. -/
theorem decodedInstructionIsWellFormed : Obligations.DecodedInstructionIsWellFormed := by
  intro hs i h
  obtain ⟨c, -, hc⟩ := decodeHalves_eq_ok h
  obtain ⟨e, he, hi⟩ := chainDecode_eq_ok hc
  obtain ⟨built, wf⟩ := entryDecode_eq_ok hi
  have first := opEntry_first (chainEntry_eq_ok he) c
  rw [built, Option.map_some] at first
  exact ⟨wf, Option.some.inj first⟩

end Sys2Proof
end

section
/-! What a trace record changes (spec/19 R449 to R456): the queues, buffers, capture rings and TIME marks of the trace units, and nothing else. -/

namespace Sys2Proof.Machine

/-- Nothing differs but what the trace units of the dies keep. -/
def State.sameButTrace (s t : State) : Prop := ∃ q b c d, t = { s with tqueue := q, tbufs := b, tcapture := c, dies := d }

theorem State.sameButTrace.refl (s : State) : s.sameButTrace s := ⟨_, _, _, _, rfl⟩

theorem State.sameButTrace.trans {s t u : State} : s.sameButTrace t → t.sameButTrace u → s.sameButTrace u := by
  rintro ⟨_, _, _, _, rfl⟩ ⟨_, _, _, _, rfl⟩
  exact ⟨_, _, _, _, rfl⟩

theorem State.sameButTrace.ite {s t u : State} {p : Prop} [Decidable p] (ht : s.sameButTrace t) (hu : s.sameButTrace u) :
    s.sameButTrace (if p then t else u) := by
  split
  · exact ht
  · exact hu

theorem State.sameButTrace.me {s t : State} : s.sameButTrace t → t.me = s.me := by rintro ⟨_, _, _, _, rfl⟩; rfl

theorem State.sameButTrace.mem {s t : State} : s.sameButTrace t → t.mem = s.mem := by rintro ⟨_, _, _, _, rfl⟩; rfl

theorem State.sameButTrace.others {s t : State} : s.sameButTrace t → t.others = s.others := by rintro ⟨_, _, _, _, rfl⟩; rfl

theorem State.updTbuf_frame (s : State) (m d r : Nat) (f : TraceBuf → TraceBuf) : s.sameButTrace (s.updTbuf m d r f) := ⟨_, _, _, _, rfl⟩

theorem State.updDie_frame (s : State) (m d : Nat) (f : DieState → DieState) : s.sameButTrace (s.updDie m d f) := ⟨_, _, _, _, rfl⟩

theorem State.traceQueue_frame (s : State) (r : TraceRec) : s.sameButTrace (s.traceQueue r) := .ite ⟨_, _, _, _, rfl⟩ (s.updTbuf_frame ..)

theorem State.traceKeep_frame (s : State) (l : Loc) (r : TraceRec) : s.sameButTrace (s.traceKeep l r) := .ite ⟨_, _, _, _, rfl⟩ ⟨_, _, _, _, rfl⟩

/-- A record, with the TIME record that may have to come before it. -/
theorem State.traceWrite_frame (s : State) (l : Loc) (rid time made head : Nat) (w1 w2 w3 : Word) :
    s.sameButTrace (s.traceWrite l rid time made head w1 w2 w3) :=
  .trans (.ite (.refl s) (.trans (s.traceQueue_frame _) (State.updDie_frame ..))) (State.traceQueue_frame ..)

/-- A record is discarded, written, or kept in the capture ring. -/
theorem State.trace_frame (s : State) (l : Loc) (ctx rid ty time : Nat) (w1 w2 w3 : Word) : s.sameButTrace (s.trace l ctx rid ty time w1 w2 w3) := by
  unfold State.trace
  split
  · exact .refl s
  · exact .ite (.refl s) (.ite (.refl s) (.ite (.ite (s.traceWrite_frame ..) (.ite (s.traceKeep_frame ..) (.refl s))) (s.traceWrite_frame ..)))

/-- Where no buffer watches the region, nothing is recorded. -/
theorem State.trace_of_no_buffer {s : State} {l : Loc} {rid : Nat} (h : s.tbuf? l.mod l.die rid = none) (ctx ty time : Nat) (w1 w2 w3 : Word) :
    s.trace l ctx rid ty time w1 w2 w3 = s := by rw [State.trace, h]

theorem State.watches_frame (a : Agent) (addr : Word) (elem : Nat) : ∀ (l : List DebugEntry) (s : State), s.sameButTrace (s.watches a addr elem l)
  | [], _ => .refl _
  | _ :: l, _ => .trans (State.trace_frame ..) (State.watches_frame a addr elem l _)

end Sys2Proof.Machine
end

section
/-! From a step to the instruction at the program counter (spec/03 R75, spec/02 R35). -/

namespace Sys2Proof.Machine

/-! ### The turn of the agent whose turn it is -/

theorem State.focus_me (s : State) : s.focus s.me.uid = s := if_pos rfl

theorem State.agent?_me (s : State) : s.agent? s.me.uid = some s.me := by simp [State.agent?, State.agents]

theorem State.turn_me (s : State) : s.turn s.me.uid = s.myTurn := by rw [State.turn, State.agent?_me, State.focus_me]

/-- An agent that issues, to which the round robin of its core has come, and for which no event is pending, runs its chain (spec/15 R377, spec/02 R35). -/
theorem State.myTurn_issues {s : State} (runs : (s.die s.me.loc.mod s.me.loc.die).tripped = false) (quiet : s.nextEvent = none)
    (issues : s.me.issues = true) (turn : s.robin = true) : s.myTurn = (s.issuedBy s.me.loc s.me.ctx).watchCode.runChain := by
  simp [State.myTurn, runs, quiet, issues, turn]

theorem step_turn {s : State} {m : List Move} (h : s.schedule = .turn s.me.uid :: m) : step s = ({ s with schedule := m } : State).myTurn := by
  rw [step, h]
  exact State.turn_me { s with schedule := m }

/-! ### What the front end gives -/

/-- A chain at or above its level is decoded as its halfwords alone say. -/
theorem Agent.decode_eq_ok {a : Agent} {hs : List Half} {c : Chain} {i : Instr} (parsed : parseChain hs = .ok c) (level : a.lacksLevel c = false)
    (h : decodeHalves hs = .ok i) : a.decode hs = .ok i := by
  obtain ⟨d, hd, decoded⟩ := decodeHalves_eq_ok h
  cases parsed.symm.trans hd
  obtain ⟨e, entry, body⟩ := chainDecode_eq_ok decoded
  simp [Agent.decode, parsed, entry, level, body]

/-- A chain that is fetched and decoded runs, with its halfwords latched. -/
theorem State.runChain_instr {s t : State} {hs : List Half} {i : Instr} (fetched : State.fetchChain 5 s s.me.pc [] = (.ok hs, t))
    (decoded : t.me.decode hs = .ok i) : s.runChain = afterwards (State.settled s.me) (exec i (t.upd fun a => { a with ir := hs })) := by
  simp [State.runChain, State.fetch, fetched, decoded]

/-- WATCH records leave the program counter alone. -/
theorem State.watchCode_pc (s : State) : s.watchCode.me.pc = s.me.pc := by
  unfold State.watchCode
  split
  · rfl
  · dsimp only
    split
    · rfl
    · have same := (State.watches_frame s.me s.me.pc 0 (s.codeMatches.filter DebugEntry.watch) s).me
      rw [State.upd_me, same]

/-- Settles O4: the turn of an agent that issues is `runChain`, and its front end decodes what `decodeHalves` does. -/
theorem stepRunsTheDecodedInstruction : Obligations.StepRunsTheDecodedInstruction := by
  intro s t m hs c i sched runs quiet issues turn u fetched parsed level decoded
  have pc : u.me.pc = s.me.pc := State.watchCode_pc _
  rw [step_turn sched, State.myTurn_issues (s := { s with schedule := m }) runs quiet issues turn]
  exact State.runChain_instr (pc ▸ fetched) (Agent.decode_eq_ok parsed level decoded)

end Sys2Proof.Machine
end

section
/-! A fetch leaves the agents alone: every access to memory, and every walk that comes before it, changes memory, its caches and the reports of stores, and no
agent's record. -/

namespace Sys2Proof.Machine

/-! ### At the home -/

theorem foldl_me {α : Type} {g : State → α → State} (hg : ∀ s a, (g s a).me = s.me) : ∀ (l : List α) (s : State), (l.foldl g s).me = s.me
  | [], _ => rfl
  | a :: l, s => (foldl_me hg l (g s a)).trans (hg s a)

@[simp] theorem State.foundError_me (s : State) (l : Loc) (unit pa : Nat) : (s.foundError l unit pa).me = s.me := rfl

@[simp] theorem State.storeError_me (s : State) (tag : StoreTag) (unit pa : Nat) : (s.storeError tag unit pa).me = s.me := by
  unfold State.storeError
  split <;> rfl

@[simp] theorem State.rekey_me (s : State) (ep line key : Nat) : (s.rekey ep line key).me = s.me := by
  unfold State.rekey
  split
  · rfl
  · rw [State.setLineKey_me, State.poke_me]

@[simp] theorem State.pokeAs_me (s : State) (ep key pa : Nat) (bs : List Byte) : (s.pokeAs ep key pa bs).me = s.me := s.rekey_me ..

@[simp] theorem State.homeStore_me (s : State) (tag : StoreTag) (ep key pa : Nat) (bs : List Byte) : (s.homeStore tag ep key pa bs).me = s.me := by
  unfold State.homeStore
  split
  · rfl
  · split
    · split <;> simp
    · simp

@[simp] theorem State.touchL2_me (s : State) (v : Via) (ep line : Nat) : (s.touchL2 v ep line).me = s.me := by
  unfold State.touchL2
  dsimp only
  split
  · split <;> rfl
  · split
    · rfl
    · dsimp only
      split <;> rfl

/-! ### In the remote-data cache -/

@[simp] theorem State.writeBack_me (s : State) (l : RdcLine) (m : BitVec 128) : (s.writeBack l m).me = s.me := by
  unfold State.writeBack
  dsimp only
  split
  · rfl
  · split
    · rfl
    · split
      · exact (foldl_me (by simp) ..).trans (foldl_me (by simp) ..)
      · exact foldl_me (by simp) ..

@[simp] theorem State.evictRdc_me (s : State) (mod die ep line : Nat) : (s.evictRdc mod die ep line).me = s.me := by
  unfold State.evictRdc
  split
  · rfl
  · exact s.writeBack_me ..

@[simp] theorem State.rdcRoom_me (s : State) (mod die line : Nat) : (s.rdcRoom mod die line).me = s.me := by
  unfold State.rdcRoom
  split
  · split <;> simp
  · rfl

@[simp] theorem State.rdcAdd_me (s : State) (l : RdcLine) : (s.rdcAdd l).me = s.me := s.rdcRoom_me ..

@[simp] theorem State.underRdc_me (s : State) (mod die ep line key : Nat) : (s.underRdc mod die ep line key).me = s.me := by
  unfold State.underRdc
  split
  · split <;> simp
  · rfl

@[simp] theorem State.setRdc_me (s : State) (l : RdcLine) : (s.setRdc l).me = s.me := rfl

@[simp] theorem State.rdcFill_me (s : State) (mod die ep line key : Nat) : (s.rdcFill mod die ep line key).2.me = s.me := by
  unfold State.rdcFill
  dsimp only
  split
  · split <;> simp
  · simp

@[simp] theorem State.readLine_me (s : State) (v : Via) (pa n : Nat) : (s.readLine v pa n).2.me = s.me := by
  unfold State.readLine
  dsimp only
  split
  · exact State.touchL2_me ..
  · rw [State.rdcFill_me]
    split
    · rfl
    · exact State.touchL2_me ..

/-! ### Translation and fetch -/

@[simp] theorem State.walkError_me (s : State) (sp : Space) (cause pa : Nat) : (s.walkError sp cause pa).me = s.me := by
  unfold State.walkError
  split <;> rfl

@[simp] theorem State.touchWalk_me (s : State) (sp : Space) (va root : Nat) : (s.touchWalk sp va root).me = s.me := foldl_me (by simp) ..

@[simp] theorem State.keepLeaves_me (s : State) (sp : Space) (t : TlbEntry) : (s.keepLeaves sp t).me = s.me := by
  unfold State.keepLeaves
  dsimp only
  split <;> rfl

@[simp] theorem State.walkFor_me (s : State) (sp : Space) (va : Nat) (acc : Acc) : (s.walkFor sp va acc).2.me = s.me := by
  unfold State.walkFor
  split
  · simp
  · dsimp only
    split
    · simp
    · split
      · rw [State.keepLeaves_me]
        split <;> simp
      · simp

@[simp] theorem State.translate_me (s : State) (sp : Space) (va : Nat) (acc : Acc) : (s.translate sp va acc).2.me = s.me := by
  unfold State.translate
  split
  · rfl
  · split
    · rfl
    · exact s.walkFor_me ..

@[simp] theorem State.fetchHalf_me (s : State) (va : Word) : (s.fetchHalf va).2.me = s.me := by
  have walked := s.translate_me s.codeSpace va.toNat .fetch
  unfold State.fetchHalf
  split
  case h_1 e => rwa [e] at walked
  case h_2 e =>
    rw [e] at walked
    dsimp only
    split
    · exact walked
    · split
      · exact walked
      · exact (State.readLine_me ..).trans walked

theorem State.fetchChain_me : ∀ (n : Nat) (s : State) (va : Word) (acc : List Half), (State.fetchChain n s va acc).2.me = s.me
  | 0, _, _, _ => rfl
  | n + 1, s, va, acc => by
    have half := s.fetchHalf_me va
    unfold State.fetchChain
    split
    case h_1 e => rwa [e] at half
    case h_2 e =>
      rw [e] at half
      split
      · exact (State.fetchChain_me n ..).trans half
      · exact half

end Sys2Proof.Machine
end

section
/-! The checks of spec/03 R75 in their order. -/

namespace Sys2Proof.Machine

/-- The front end gives a trap: it is taken in the state after the fetch, and the step adds what it adds to every chain. -/
theorem State.runChain_trap {s t : State} {q : Trap} (h : s.fetch = .trap q t) : s.runChain = .next ((t.takeTrap q).settled s.me) := by
  rw [State.runChain, h]

/-- Halfwords that cannot be fetched: step 1 of R75. -/
theorem State.fetch_error {s t : State} {cause : Nat} {va : Word} (h : State.fetchChain 5 s s.me.pc [] = (.error (cause, va), t)) :
    s.fetch = .trap (issueTrap cause s.me.pc va 0) t := by
  have same : t.me = s.me := by simpa [h] using s.fetchChain_me 5 s.me.pc []
  simp [State.fetch, h, same]

/-- Halfwords that are fetched and fail a later check of R75. -/
theorem State.fetch_refused {s t : State} {hs : List Half} {cause : Nat} (h : State.fetchChain 5 s s.me.pc [] = (.ok hs, t))
    (refused : t.me.decode hs = .error cause) : s.fetch = .trap (issueTrap cause s.me.pc 0 0) t := by
  have same : t.me = s.me := by simpa [h] using s.fetchChain_me 5 s.me.pc []
  rw [same] at refused
  simp [State.fetch, h, same, refused]

/-- Settles O5: what `Agent.decode` answers at each check, and the trap that a refusal of the front end is. -/
theorem chainChecksTrapInOrder : Obligations.ChainChecksTrapInOrder := by
  intro s t r c e hs
  refine ⟨fun cause va h => State.runChain_trap (State.fetch_error h), fun h => ⟨fun parse => ?_, fun parse entry => ?_, fun parse entry level => ?_,
    fun parse entry level body => ?_⟩⟩
  all_goals refine State.runChain_trap (State.fetch_refused h ?_)
  · simp [Agent.decode, parse]
  · simp [Agent.decode, parse, entry]
  · simp [Agent.decode, parse, entry, level]
  · simp [Agent.decode, parse, entry, level, body]

end Sys2Proof.Machine
end

section
/-! Pending registers (spec/03 R87). -/

namespace Sys2Proof.Machine

/-- The first pending register among the `x` registers of an instruction is the one that it names. -/
theorem Agent.hazard_x {a : Agent} {n : Needs} {r : Reg} (h : (n.xr ++ n.xw).find? (fun r => a.pendX.getLsbD r.toNat) = some r) :
    a.hazard n = some r.toNat := by
  rw [Agent.hazard, h]

/-- Where no `x` register of an instruction is pending, it names the first pending `k` register, with bit 5 set. -/
theorem Agent.hazard_k {a : Agent} {n : Needs} {r : Reg4} (hx : (n.xr ++ n.xw).find? (fun r => a.pendX.getLsbD r.toNat) = none)
    (hk : (n.kr ++ n.kw).find? (fun r => a.pendK.getLsbD r.toNat) = some r) : a.hazard n = some (32 + r.toNat) := by
  rw [Agent.hazard, hx, hk]
  rfl

/-- An instruction that issues with these needs takes cause 0x03 for the register that its hazard names. -/
theorem State.traps_of_hazard {s : State} {i : Instr} {h : Hdr} {n : Needs} {body : State → Res} {r : Nat} (issues : exec i s = s.issue h n body)
    (hz : s.me.hazard n = some r) : s.traps i 0x03 0 (BitVec.ofNat 64 r) :=
  issues.trans (State.issue_hazard hz)

/-- Settles O17: what each form reads comes before what it writes in its `Needs`, and `State.issue` checks them first. -/
theorem pendingRegisterTraps : Obligations.PendingRegisterTraps := by
  intro s h o m b q r
  refine ⟨fun pending => ?_, fun pending => ?_, fun pending => ?_, fun pending => ?_, fun pending => ?_, fun read written => ?_⟩
  · have hz : s.me.hazard (needsRRI o) = some r.toNat := Agent.hazard_x pending
    exact ⟨State.traps_of_hazard (show exec (.add h o) s = rri _ h o s from rfl) hz,
      State.traps_of_hazard (show exec (.div h o) s = rriDiv _ h o s from rfl) hz,
      State.traps_of_hazard (show exec (.sll h o) s = rriShift _ h o s from rfl) hz⟩
  · have hz : s.me.hazard { xr := ADR.regs m, xw := [m.a] } = some r.toNat := Agent.hazard_x pending
    exact ⟨State.traps_of_hazard (show exec (.ld h m) s = execLd h m s from rfl) hz,
      State.traps_of_hazard (show exec (.jalr h m) s = execJalr h m s from rfl) hz⟩
  · have hz : s.me.hazard { xr := m.a :: ADR.regs m } = some r.toNat := Agent.hazard_x (by rwa [List.append_nil])
    exact State.traps_of_hazard (show exec (.st h m) s = execSt h m s from rfl) hz
  · have hz : s.me.hazard { xr := [b.a, b.b] } = some r.toNat := Agent.hazard_x pending
    exact State.traps_of_hazard (show exec (.beq h b) s = branch _ h b s from rfl) hz
  · have hz : s.me.hazard { kr := [q.b], kw := [q.a] } = some (32 + q.b.toNat) := Agent.hazard_k rfl (List.find?_cons_of_pos pending)
    exact State.traps_of_hazard (show exec (.kmov h q) s = execKmov h q s from rfl) hz
  · have hz : s.me.hazard { kr := [q.b], kw := [q.a] } = some (32 + q.a.toNat) :=
      Agent.hazard_k rfl ((List.find?_cons_of_neg (by simp [read])).trans (List.find?_cons_of_pos written))
    exact State.traps_of_hazard (show exec (.kmov h q) s = execKmov h q s from rfl) hz

end Sys2Proof.Machine
end

section
/-! `mfcr` (spec/06 R182, spec/03 R66, R67). -/

namespace Sys2Proof.Machine

/-! ### The dispatch queue (spec/02 R39) -/

theorem State.dispatch_room {s : State} {e : Entry} {k : State → State} (h : s.me.queue.length < 64) :
    s.dispatch e k = .ok (k (s.upd fun a => a.enqueued e)) := by
  simp [State.dispatch, Agent.queueFull, h]

theorem State.dispatch_full {s : State} {e : Entry} {k : State → State} (h : 64 ≤ s.me.queue.length) : s.dispatch e k = .hold s := by
  simp [State.dispatch, Agent.queueFull, h]

/-! ### The two rows of `mfcr` -/

/-- What the body of `mfcr` gives for a register that is not read in stream order (R182). -/
def mfcrBody (o : CRN) (s : State) : Res :=
  if !crListed o.i.nat then s.fail 0x01
  else if 0x70 ≤ o.i.nat then
    if s.observes then .ok (s.postX o.a (Inflight.known ((s.counterWord s.me o.i.nat).setWidth 256))) else s.fail 0x06
  else .ok (s.setX o.a (s.crWord o.i.nat))

theorem exec_mfcr (h : Hdr) (o : CRN) (s : State) : exec (.mfcr h o) s = s.issue h { xw := [o.a] } (mfcrBody o) := rfl

/-- What the body of `mfcr` gives for a register that is read in stream order (R67). -/
def mfcrStreamBody (h : Hdr) (o : CRN) (s : State) : Res :=
  if s.me.cls = 0 then .ok (s.postX o.a (Inflight.known ((s.me.streamWord o.i.nat).setWidth 256)))
  else s.dispatch { s.newEntry (.mfcrStream h o) [] 0 with aux := s.me.fpflags.toNat } fun t => t.postX o.a (Inflight.ofEntry s.me.nextSeq)

theorem exec_mfcrStream (h : Hdr) (o : CRN) (s : State) : exec (.mfcrStream h o) s = s.issue h { xw := [o.a] } (mfcrStreamBody h o) := rfl

/-- Settles O32: `mfcrBody` and `mfcrStreamBody` case by case, and what `State.issue` makes of each. -/
theorem controlRegisterReads : Obligations.ControlRegisterReads := by
  intro s h o free
  have hz : s.me.hazard { xw := [o.a] } = none := free.hazard rfl rfl
  refine ⟨fun listed plain => ?_, fun listed counter right => ?_, fun listed counter right => ?_, fun unlisted => ?_, fun scalar => ?_, fun takes => ?_,
    fun vector full => ?_⟩
  · have body : mfcrBody o s = .ok (s.setX o.a (s.crWord o.i.nat)) := by simp [mfcrBody, listed, Nat.not_le.mpr plain]
    exact State.writesX_of ((exec_mfcr h o s).trans (State.issue_ok hz body))
  · have body : mfcrBody o s = .ok (s.postX o.a (Inflight.known ((s.counterWord s.me o.i.nat).setWidth 256))) := by
      simp [mfcrBody, listed, counter, right]
    exact (exec_mfcr h o s).trans (State.issue_ok hz body)
  · have body : mfcrBody o s = .trap (issueTrap 0x06 s.me.pc 0 0) := by simp [mfcrBody, listed, counter, right, State.fail]
    exact (exec_mfcr h o s).trans (State.issue_trap hz body)
  · have body : mfcrBody o s = .trap (issueTrap 0x01 s.me.pc 0 0) := by simp [mfcrBody, unlisted, State.fail]
    exact (exec_mfcr h o s).trans (State.issue_trap hz body)
  · have body : mfcrStreamBody h o s = .ok (s.postX o.a (Inflight.known ((s.me.streamWord o.i.nat).setWidth 256))) := if_pos scalar
    exact (exec_mfcrStream h o s).trans (State.issue_ok hz body)
  · obtain ⟨vector, room⟩ := takes
    have body : mfcrStreamBody h o s = _ := (if_neg vector).trans (State.dispatch_room room)
    exact (exec_mfcrStream h o s).trans (State.issue_ok hz body)
  · have body : mfcrStreamBody h o s = .hold s := (if_neg vector).trans (State.dispatch_full full)
    exact (exec_mfcrStream h o s).trans (State.issue_hold hz body)

end Sys2Proof.Machine
end

section
/-! The wait marker (spec/03 R88) and the arrival of a long-latency result (R86, R90). -/

namespace Sys2Proof.Machine

/-! ### What the marker waits for -/

/-- A result in flight that no dispatch-queue entry has still to give is one that a wait marker waits for. -/
theorem Agent.markerWaits_of {a : Agent} (h : ∃ i ∈ a.inflight, i.entry = none) : a.markerWaits = true := by
  obtain ⟨i, hi, he⟩ := h
  exact List.any_eq_true.mpr ⟨i, hi, by rw [he]⟩

theorem Agent.markerWaits_nil {a : Agent} (h : a.inflight = []) : a.markerWaits = false := by rw [Agent.markerWaits, h]; rfl

/-- With nothing in flight the pending set is emptied whole. -/
theorem Agent.clearPending_nil {a : Agent} (h : a.inflight = []) : a.clearPending.pendX = 0 ∧ a.clearPending.pendK = 0 := by
  simp [Agent.clearPending, Agent.keptPending, h]

/-! ### The end of a chain -/

theorem Agent.retireChain_parks {a : Agent} (h : ∃ i ∈ a.inflight, i.entry = none) : (a.retireChain true).life = .parked .marker := by
  have waits : ({ a with issued := (a.issued + 1) % 2 ^ 64, order := a.order + 1 } : Agent).markerWaits = true := Agent.markerWaits_of h
  simp only [Agent.retireChain, waits, Bool.not_true, Bool.false_eq_true, if_false, if_true]

theorem Agent.retireChain_goes_on {a : Agent} (h : a.inflight = []) :
    (a.retireChain true).life = a.life ∧ (a.retireChain true).pendX = 0 ∧ (a.retireChain true).pendK = 0 := by
  have waits : ({ a with issued := (a.issued + 1) % 2 ^ 64, order := a.order + 1 } : Agent).markerWaits = false := Agent.markerWaits_nil h
  simp only [Agent.retireChain, waits, Bool.not_true, Bool.false_eq_true, if_false]
  exact ⟨rfl, Agent.clearPending_nil h⟩

/-- `add` completes with its sum, whatever its wait marker. -/
theorem exec_add_ends {s : State} {h : Hdr} {o : RRI} (free : s.notPending (firstReg o.ext o.a :: (RegImm.regs o.t ++ [o.a])) []) :
    exec (.add h o) s = .next (s.ended h (s.setX o.a (s.x (firstReg o.ext o.a) + s.val o.t))) :=
  (show exec (.add h o) s = rri _ h o s from rfl).trans (State.issue_ok (free.hazard rfl rfl) rfl)

/-- The wait marker decides what the end of a chain makes of the thread and its pending set. -/
theorem Agent.retireChain_marker (a : Agent) (w : Bool) :
    (w = false → (a.retireChain w).life = a.life ∧ (a.retireChain w).pendX = a.pendX ∧ (a.retireChain w).pendK = a.pendK) ∧
    (w = true → a.inflight = [] → (a.retireChain w).life = a.life ∧ (a.retireChain w).pendX = 0 ∧ (a.retireChain w).pendK = 0) ∧
    (w = true → (∃ i ∈ a.inflight, i.entry = none) → (a.retireChain w).life = .parked .marker) := by
  refine ⟨?_, ?_, ?_⟩
  · rintro rfl
    exact ⟨rfl, rfl, rfl⟩
  · rintro rfl
    exact Agent.retireChain_goes_on
  · rintro rfl
    exact Agent.retireChain_parks

/-! ### The arrival of a result -/

/-- The register write of a result, unless a failure keeps the register (R90). -/
def Agent.delivered (a : Agent) (i : Inflight) : Agent :=
  if i.keep then a
  else if i.isK then a.setK (BitVec.ofNat 4 i.reg) i.val
  else a.setX (BitVec.ofNat 5 i.reg) (i.val.setWidth 64)

theorem Agent.delivered_toX {a : Agent} {i : Inflight} {r : Reg} (x : i.isK = false) (written : i.keep = false) (reg : i.reg = r.toNat) :
    a.delivered i = a.setX r (i.val.setWidth 64) := by simp [Agent.delivered, x, written, reg]

theorem Agent.delivered_toK {a : Agent} {i : Inflight} {r : Reg4} (k : i.isK = true) (written : i.keep = false) (reg : i.reg = r.toNat) :
    a.delivered i = a.setK r i.val := by simp [Agent.delivered, k, written, reg]

theorem Agent.delivered_x {a : Agent} {i : Inflight} (h : i.isK = true ∨ i.keep = true) : (a.delivered i).x = a.x := by
  unfold Agent.delivered
  obtain h | h := h
  · rw [h]; split <;> rfl
  · rw [h]; rfl

theorem Agent.delivered_k {a : Agent} {i : Inflight} (h : i.isK = false ∨ i.keep = true) : (a.delivered i).k = a.k := by
  unfold Agent.delivered
  obtain h | h := h
  · rw [h]
    split
    · rfl
    · exact Agent.setX_k ..
  · rw [h]; rfl

/-- What is in flight plays no part in the write of a result, which changes nothing but `x` and `k` registers. -/
theorem Agent.delivered_with_inflight (a : Agent) (i : Inflight) (l : List Inflight) :
    ({ a with inflight := l } : Agent).delivered i = { a with x := (a.delivered i).x, k := (a.delivered i).k, inflight := l } := by
  unfold Agent.delivered
  split
  · rfl
  · split
    · rfl
    · unfold Agent.setX
      split <;> rfl

/-- A result leaves the set in flight and is written, its flags are raised when its era is current, its failure is recorded, and nothing else changes. -/
theorem Agent.receive_eq (a : Agent) (i : Inflight) :
    a.receive i =
      { a with
        x := (a.delivered i).x, k := (a.delivered i).k
        inflight := a.inflight.filter fun j => !(j.order == i.order && j.isK == i.isK && j.reg == i.reg)
        fpflags := if i.era = a.fpera then a.fpflags ||| i.flags else a.fpflags
        failures := i.fail.elim a.failures fun f => addFailure ⟨i.order, f, false⟩ a.failures } := by
  have written := a.delivered_with_inflight i (a.inflight.filter fun j => !(j.order == i.order && j.isK == i.isK && j.reg == i.reg))
  unfold Agent.delivered at written
  unfold Agent.receive
  dsimp only
  rw [written]
  by_cases raised : i.era = a.fpera
  · simp only [raised, if_true]
    cases i.fail <;> rfl
  · simp only [raised, if_false]
    cases i.fail <;> rfl

theorem Agent.not_mem_receive (a : Agent) (i : Inflight) : i ∉ (a.receive i).inflight := by simp [Agent.receive_eq]

/-! ### The end of a park -/

/-- The end of a park changes nothing of an agent but whether it runs, its pending set, the mark and which failures are due. -/
theorem Agent.endMarker_eq (a : Agent) :
    a.endMarker = { a with life := a.endMarker.life, pendX := a.endMarker.pendX, pendK := a.endMarker.pendK, marked := a.endMarker.marked,
                           failures := a.endMarker.failures } := by
  unfold Agent.endMarker
  split <;> rfl

theorem Agent.endMarker_of_life {a : Agent} (h : a.life ≠ .parked .marker) : a.endMarker = a := by simp [Agent.endMarker, h]

theorem Agent.endMarker_of_waits {a : Agent} (h : a.markerWaits = true) : a.endMarker = a := by simp [Agent.endMarker, h]

theorem Agent.endMarker_ends {a : Agent} (parked : a.life = .parked .marker) (h : a.inflight = []) :
    a.endMarker.life = .ready ∧ a.endMarker.pendX = 0 ∧ a.endMarker.pendK = 0 := by
  simp only [Agent.endMarker, parked, Agent.markerWaits_nil h, decide_true, Bool.not_false, Bool.and_self, if_true]
  exact ⟨trivial, Agent.clearPending_nil h⟩

/-- The failures recorded are the same after the end of a park: only which of them are due changes. -/
theorem Agent.endMarker_failures (a : Agent) : a.endMarker.failures.map Failure.trap = a.failures.map Failure.trap := by
  unfold Agent.endMarker
  split
  · simp [Agent.clearPending]
  · rfl

/-- An agent after a result has arrived. -/
def Agent.resumed (a : Agent) (i : Inflight) : Agent := (a.receive i).endMarker

/-- What the arrival of a result and the end of the park do to an agent: everything but the pending set, the mark, whether it runs and which failures are due
is as the result alone leaves it. -/
theorem Agent.resumed_eq (a : Agent) (i : Inflight) :
    a.resumed i =
      { a.receive i with life := (a.resumed i).life, pendX := (a.resumed i).pendX, pendK := (a.resumed i).pendK, marked := (a.resumed i).marked,
                         failures := (a.resumed i).failures } := (a.receive i).endMarker_eq

theorem Agent.resumed_x (a : Agent) (i : Inflight) : (a.resumed i).x = (a.delivered i).x := by rw [Agent.resumed_eq, Agent.receive_eq]

theorem Agent.resumed_k (a : Agent) (i : Inflight) : (a.resumed i).k = (a.delivered i).k := by rw [Agent.resumed_eq, Agent.receive_eq]

theorem Agent.resumed_inflight (a : Agent) (i : Inflight) : (a.resumed i).inflight = (a.receive i).inflight := by rw [Agent.resumed_eq]

/-- A failure that arrives where none is recorded is the one recorded. -/
theorem Agent.resumed_failures {a : Agent} {i : Inflight} {f : Trap} (fails : i.fail = some f) (none : a.failures = []) :
    (a.resumed i).failures.map Failure.trap = [f] := by
  rw [Agent.resumed, Agent.endMarker_failures, Agent.receive_eq, fails, none]
  rfl

/-- An agent that is not parked at a wait marker goes on as it was. -/
theorem Agent.resumed_running {a : Agent} (i : Inflight) (h : a.life ≠ .parked .marker) : a.resumed i = a.receive i :=
  Agent.endMarker_of_life (by rwa [Agent.receive_eq])

/-- A park goes on while a result is in flight that no dispatch-queue entry has still to give. -/
theorem Agent.resumed_waits {a : Agent} {i : Inflight} (h : ∃ j ∈ (a.resumed i).inflight, j.entry = none) : a.resumed i = a.receive i :=
  Agent.endMarker_of_waits (Agent.markerWaits_of (a.resumed_inflight i ▸ h))

/-- A park ends with nothing pending when the last result has arrived. -/
theorem Agent.resumed_ends {a : Agent} {i : Inflight} (parked : a.life = .parked .marker) (last : (a.resumed i).inflight = []) :
    (a.resumed i).life = .ready ∧ (a.resumed i).pendX = 0 ∧ (a.resumed i).pendK = 0 :=
  Agent.endMarker_ends (by rwa [Agent.receive_eq]) (a.resumed_inflight i ▸ last)

/-! ### The event -/

/-- The STATE record that comes before the wake of the agent, which goes on as `b`. -/
def State.wakeRecord (s : State) (b : Agent) : State := if s.me.life == .parked .marker && b.life == .ready then s.traceState s.me 2 0 else s

theorem State.wakeRecord_frame (s : State) (b : Agent) : s.sameButTrace (s.wakeRecord b) := .ite (State.trace_frame ..) (.refl s)

/-- There is no record where the agent is not woken or nothing watches its region. -/
theorem State.wakeRecord_none {s : State} {b : Agent} (h : s.me.life ≠ .parked .marker ∨ s.tbuf? s.me.loc.mod s.me.loc.die s.me.rid = none) :
    s.wakeRecord b = s := by
  obtain running | unwatched := h
  · simp [State.wakeRecord, running]
  · rw [State.wakeRecord, State.traceState, State.trace_of_no_buffer unwatched, ite_self]

theorem State.updAgent_me {s u : State} (same : u.me = s.me) (f : Agent → Agent) : u.updAgent s.me.uid f = { u with me := f s.me } := by
  rw [State.updAgent, if_pos (by rw [same]), same]

/-- The arrival of a ready result of the agent whose turn it is: the agent goes on as the result leaves it. -/
theorem exec_longLatencyResult {s : State} {n : Nat} {i : Inflight} (h : (s.me.inflight.find? fun j => j.order == n && j.ready) = some i) :
    exec (.longLatencyResult s.me.uid n) s = .next { s.wakeRecord (s.me.resumed i) with me := s.me.resumed i } := by
  show execLongLatencyResult s.me.uid n s = _
  simp only [execLongLatencyResult, State.agent?_me, h]
  exact congrArg Host.Outcome.next (State.updAgent_me (s.wakeRecord_frame (s.me.resumed i)).me _)

end Sys2Proof.Machine

namespace Sys2Proof
open Machine

/-- Settles O18: the end of a chain and the arrival of a result, each by what it does to the agent, and outside the agent by the frame of a trace record. -/
theorem waitMarkerParksUntilResultsArrive : Obligations.WaitMarkerParksUntilResultsArrive := by
  unfold Obligations.WaitMarkerParksUntilResultsArrive
  refine ⟨fun s h o free => ⟨_, exec_add_ends free, ?_⟩, fun s n i found => ?_⟩
  · have marker := Agent.retireChain_marker { s.me.setX o.a (s.x (firstReg o.ext o.a) + s.val o.t) with pc := s.pcAfter h } h.wait
    simpa only [State.ended, State.setX_me, Agent.setX_life, Agent.setX_pendX, Agent.setX_pendK, Agent.setX_inflight] using marker
  · have frame := s.wakeRecord_frame (s.me.resumed i)
    refine ⟨_, exec_longLatencyResult found, frame.mem, frame.others, ?_, ?_, ?_, ?_, ?_, ?_, ?_, ?_, ?_, ?_, ?_, ?_, ?_, ?_, ?_⟩
    · intro quiet
      rw [State.wakeRecord_none quiet]
      rfl
    · intro r x written reg
      have reads : ∀ q, (s.me.resumed i).getX q = (s.me.setX r (i.val.setWidth 64)).getX q := fun q => by
        simp only [Agent.getX, Agent.resumed_x, Agent.delivered_toX x written reg]
      exact ⟨(reads r).trans (by simp [wrote]), fun q other => (reads q).trans (by simp [other, State.x])⟩
    · intro r k written reg
      have reads : ∀ q, State.k { s.wakeRecord (s.me.resumed i) with me := s.me.resumed i } q = (s.setK r i.val).k q := fun q => by
        simp only [State.k, Agent.resumed_k, Agent.delivered_toK k written reg, State.setK_me]
      exact ⟨(reads r).trans (by simp), fun q other => (reads q).trans (by simp [other])⟩
    · exact fun h => (s.me.resumed_x i).trans (Agent.delivered_x h)
    · exact fun h => (s.me.resumed_k i).trans (Agent.delivered_k h)
    · rw [Agent.resumed_eq, Agent.receive_eq]
    · rw [Agent.resumed_eq, Agent.receive_eq]
    · rw [Agent.resumed_eq, Agent.receive_eq]
    · rw [Agent.resumed_eq, Agent.receive_eq]
    · exact s.me.resumed_inflight i ▸ s.me.not_mem_receive i
    · rw [Agent.resumed_eq, Agent.receive_eq]
    · exact fun f => Agent.resumed_failures
    · intro running
      simp only [Agent.resumed_running i running, Agent.receive_eq]
      trivial
    · intro parked waits
      simp only [Agent.resumed_waits waits, Agent.receive_eq]
      exact ⟨parked, trivial, trivial⟩
    · exact fun parked => Agent.resumed_ends parked

end Sys2Proof
end

section
/-! Rounding of a value that the format represents (spec/04 R103, R112, R114). -/

namespace Sys2Proof.Machine

/-! ### The fields of a pattern (R103) -/

/-- The exponent field of a pattern. -/
def Fmt.expField (t : Fmt) (x : Nat) : Nat := Machine.bits x t.f t.e

/-- The fraction field of a pattern. -/
def Fmt.fracField (t : Fmt) (x : Nat) : Nat := Machine.bits x 0 t.f

theorem Fmt.expField_lt (t : Fmt) (x : Nat) : t.expField x < 2 ^ t.e := Nat.mod_lt _ (Nat.two_pow_pos _)
theorem Fmt.fracField_lt (t : Fmt) (x : Nat) : t.fracField x < 2 ^ t.f := Nat.mod_lt _ (Nat.two_pow_pos _)

/-- A pattern is its sign, its exponent field and its fraction field. -/
theorem Fmt.sign_add_fields {t : Fmt} {x : Nat} (h : x < 2 ^ t.bits) :
    t.sign (bit x (t.e + t.f)) + (t.expField x * 2 ^ t.f + t.fracField x) = x := by
  have low : x / 2 ^ t.f * 2 ^ t.f + x % 2 ^ t.f = x := Nat.div_add_mod' x (2 ^ t.f)
  have high := Nat.div_add_mod' (x / 2 ^ t.f) (2 ^ t.e)
  have top : x / 2 ^ t.f / 2 ^ t.e = x / 2 ^ (t.e + t.f) := by rw [Nat.div_div_eq_div_mul, ← Nat.pow_add, Nat.add_comm t.f]
  have one : x / 2 ^ (t.e + t.f) < 2 := Nat.div_lt_of_lt_mul (by rwa [Fmt.bits, Nat.add_assoc, Nat.add_comm, Nat.pow_succ] at h)
  have sign : t.sign (bit x (t.e + t.f)) = x / 2 ^ (t.e + t.f) * 2 ^ t.e * 2 ^ t.f := by
    rw [Fmt.sign, bit, Nat.testBit_eq_decide_div_mod_eq, Nat.mod_eq_of_lt one, Nat.mul_assoc, ← Nat.pow_add]
    obtain zero | one : x / 2 ^ (t.e + t.f) = 0 ∨ x / 2 ^ (t.e + t.f) = 1 := Nat.le_one_iff_eq_zero_or_eq_one.mp (Nat.le_of_lt_succ one)
    · rw [zero, Nat.zero_mul, if_neg (by decide)]
    · rw [one, Nat.one_mul, if_pos (by decide)]
  rw [sign, Fmt.expField, Fmt.fracField, Machine.bits, Machine.bits, Nat.pow_zero, Nat.div_one, ← Nat.add_assoc, ← Nat.add_mul, ← top, high, low]

section
variable {t : Fmt} {ex fr : Nat} (hfr : fr < 2 ^ t.f)
include hfr

theorem Fmt.fracField_mk : t.fracField (ex * 2 ^ t.f + fr) = fr := by
  rw [Fmt.fracField, Machine.bits, Nat.pow_zero, Nat.div_one, Nat.mul_add_mod', Nat.mod_eq_of_lt hfr]

variable (hex : ex < 2 ^ t.e)
include hex

theorem Fmt.expField_mk : t.expField (ex * 2 ^ t.f + fr) = ex := by
  rw [Fmt.expField, Machine.bits, Nat.add_comm, Nat.add_mul_div_right _ _ (Nat.two_pow_pos _), Nat.div_eq_of_lt hfr, Nat.zero_add,
    Nat.mod_eq_of_lt hex]

theorem Fmt.signBit_mk : bit (ex * 2 ^ t.f + fr) (t.e + t.f) = false := by
  refine Nat.testBit_lt_two_pow ?_
  calc ex * 2 ^ t.f + fr < (ex + 1) * 2 ^ t.f := by rw [Nat.add_one_mul]; omega
    _ ≤ 2 ^ t.e * 2 ^ t.f := Nat.mul_le_mul_right _ hex
    _ = 2 ^ (t.e + t.f) := (Nat.pow_add ..).symm

end

/-! ### The finite values, and the largest (R103) -/

/-- The exponent field of the largest finite value: an IEEE format keeps the top one for NaN and infinity. -/
def Fmt.maxExp (t : Fmt) : Nat := if t.top = 0 then 2 ^ t.e - 2 else 2 ^ t.e - 1

/-- The fraction field of the largest finite value: E4M3 keeps all ones for NaN. -/
def Fmt.maxFrac (t : Fmt) : Nat := if t.top = 1 then 2 ^ t.f - 2 else 2 ^ t.f - 1

/-- Fields of a finite value. -/
def Fmt.FiniteFields (t : Fmt) (ex fr : Nat) : Prop := ex < t.maxExp ∨ ex = t.maxExp ∧ fr ≤ t.maxFrac

/-- The magnitude of a finite value in units of its quantum: with the hidden bit where the exponent field is not zero. -/
def Fmt.units (t : Fmt) (ex fr : Nat) : Nat := if ex = 0 then fr else 2 ^ t.f + fr

/-- The exponent of the quantum of a finite value: that of the smallest normal where the exponent field is zero. -/
def Fmt.quantum (t : Fmt) (ex : Nat) : Int := (max ex 1 : Nat) - (t.bias : Int) - t.f

section
variable {t : Fmt} (he : 0 < t.e) (hf : 0 < t.f)
include he hf

/-- A pattern has a finite value just where its fields are those of one, and the value is then read off the fields. -/
theorem Fmt.val_eq_fin_iff {x m : Nat} {neg : Bool} {e : Int} : t.val x = .fin neg m e ↔
    t.FiniteFields (t.expField x) (t.fracField x) ∧ bit x (t.e + t.f) = neg ∧ t.units (t.expField x) (t.fracField x) = m ∧ t.quantum (t.expField x) = e := by
  have hex := t.expField_lt x
  have hfr := t.fracField_lt x
  have e2 : 2 ≤ 2 ^ t.e := Nat.le_self_pow (Nat.ne_of_gt he) 2
  have f2 : 2 ≤ 2 ^ t.f := Nat.le_self_pow (Nat.ne_of_gt hf) 2
  unfold Fmt.val
  unfold Fmt.expField Fmt.fracField at *
  generalize Machine.bits x t.f t.e = ex, Machine.bits x 0 t.f = fr at *
  simp only [Bool.and_eq_true, decide_eq_true_eq]
  split
  case isTrue special =>
    obtain ⟨top, ieee⟩ := special
    have none : ¬ t.FiniteFields ex fr := by simp only [Fmt.FiniteFields, Fmt.maxExp, if_pos ieee]; omega
    split <;> simp [none]
  case isFalse =>
  split
  case isTrue special =>
    obtain ⟨⟨top, e4m3⟩, ones⟩ := special
    have none : ¬ t.FiniteFields ex fr := by simp only [Fmt.FiniteFields, Fmt.maxExp, Fmt.maxFrac, if_pos e4m3]; split <;> omega
    simp [none]
  case isFalse =>
  have finite : t.FiniteFields ex fr := by unfold Fmt.FiniteFields Fmt.maxExp Fmt.maxFrac; grind
  split
  case isTrue zero =>
    subst zero
    simp [finite, Fmt.units, Fmt.quantum]
  case isFalse zero => simp [finite, Fmt.units, Fmt.quantum, zero, Nat.max_eq_left (Nat.one_le_iff_ne_zero.mpr zero)]

theorem Fmt.maxPat_eq : t.maxPat = t.maxExp * 2 ^ t.f + t.maxFrac := by
  have e2 : 2 * 2 ^ t.f ≤ 2 ^ t.e * 2 ^ t.f := Nat.mul_le_mul_right _ (Nat.le_self_pow (Nat.ne_of_gt he) 2)
  have f2 : 2 ≤ 2 ^ t.f := Nat.le_self_pow (Nat.ne_of_gt hf) 2
  unfold Fmt.maxPat Fmt.maxExp Fmt.maxFrac
  split
  case h_1 ieee => simp only [ieee, Nat.sub_mul, if_true, Nat.zero_ne_one, if_false]; omega
  case h_2 e4m3 => simp only [e4m3, Nat.sub_mul, Nat.pow_add, if_true, Nat.one_ne_zero, if_false]; omega
  case h_3 nieee ne4m3 => simp only [if_neg nieee, if_neg ne4m3, Nat.sub_mul, Nat.pow_add]; omega

theorem Fmt.val_maxPat : t.val t.maxPat = .fin false (t.units t.maxExp t.maxFrac) (t.quantum t.maxExp) := by
  have hex : t.maxExp < 2 ^ t.e := by have := Nat.two_pow_pos t.e; unfold Fmt.maxExp; split <;> omega
  have hfr : t.maxFrac < 2 ^ t.f := by have := Nat.two_pow_pos t.f; unfold Fmt.maxFrac; split <;> omega
  rw [Fmt.maxPat_eq he hf, Fmt.val_eq_fin_iff he hf, Fmt.expField_mk hfr hex, Fmt.fracField_mk hfr, Fmt.signBit_mk hfr hex]
  exact ⟨.inr ⟨rfl, Nat.le_refl _⟩, rfl, rfl, rfl⟩

/-- No finite value is beyond the largest: in the same binade by the fraction field, and in a lower one because every binade ends below the next. -/
theorem Fmt.over_eq_false {ex fr : Nat} (h : t.FiniteFields ex fr) (hfr : fr < 2 ^ t.f) : t.over (t.units ex fr) (t.quantum ex) = false := by
  have le : t.quantum ex ≤ t.quantum t.maxExp := by unfold Fmt.quantum; obtain h | ⟨h, -⟩ := h <;> omega
  rw [Fmt.over, Fmt.val_maxPat he hf]
  simp only [if_pos le, decide_eq_false_iff_not, Nat.not_lt]
  obtain lower | ⟨same, frac⟩ := h
  · have hidden : 2 ^ t.f ≤ t.units t.maxExp t.maxFrac := by rw [Fmt.units, if_neg (by omega)]; omega
    by_cases zero : ex = 0
    · rw [Fmt.units, if_pos zero]
      exact Nat.le_trans (Nat.le_of_lt hfr) (Nat.le_trans hidden <| Nat.le_mul_of_pos_right _ (Nat.two_pow_pos _))
    · have apart : (t.quantum t.maxExp - t.quantum ex).toNat ≠ 0 := by unfold Fmt.quantum; omega
      calc t.units ex fr ≤ 2 ^ t.f * 2 := by rw [Fmt.units, if_neg zero]; omega
        _ ≤ _ := Nat.mul_le_mul hidden (Nat.le_self_pow apart 2)
  · rw [same, Int.sub_self, Int.toNat_zero, Nat.pow_zero, Nat.mul_one]
    unfold Fmt.units
    split <;> omega

end

/-! ### Rounding what needs none (R112) -/

theorem roundAt_self (rm : Nat) (neg : Bool) (m : Nat) (e : Int) : roundAt rm neg m e e = (m, false) := by
  simp [roundAt]

theorem Fmt.log2_units {t : Fmt} {ex fr : Nat} (normal : ex ≠ 0) (hfr : fr < 2 ^ t.f) : (t.units ex fr).log2 = t.f := by
  rw [Fmt.units, if_neg normal]
  exact (Nat.log2_eq_iff (by omega)).mpr ⟨by omega, by omega⟩

/-- The quantum that rounding chooses for a finite value is the value's own. -/
theorem Fmt.round_quantum {t : Fmt} {ex fr : Nat} (hfr : fr < 2 ^ t.f) (h : t.units ex fr ≠ 0) :
    max (t.quantum ex + (t.units ex fr).log2) t.emin - t.f = t.quantum ex := by
  by_cases normal : ex = 0
  · subst normal
    have small : (t.units 0 fr).log2 < t.f := (Nat.log2_lt h).mpr hfr
    unfold Fmt.quantum Fmt.emin
    omega
  · rw [Fmt.log2_units normal hfr]
    unfold Fmt.quantum Fmt.emin
    omega

theorem Fmt.pack_units {t : Fmt} {ex fr : Nat} (hfr : fr < 2 ^ t.f) (neg : Bool) :
    t.pack neg (t.units ex fr) (t.quantum ex) = t.sign neg + (ex * 2 ^ t.f + fr) := by
  by_cases normal : ex = 0
  · simp [Fmt.pack, Fmt.units, normal, hfr]
  · have field : (t.quantum ex + t.f + t.bias).toNat = ex := by unfold Fmt.quantum; omega
    have big : ¬ t.units ex fr < 2 ^ t.f := by rw [Fmt.units, if_neg normal]; omega
    simp only [Fmt.pack, if_neg big, Fmt.log2_units normal hfr, field]
    simp only [Fmt.units, if_neg normal, Nat.le_refl, if_true, Nat.sub_self, Nat.pow_zero]
    omega

/-- Rounding a finite value gives the pattern of its fields, and no flag. -/
theorem Fmt.round_units {t : Fmt} {ex fr : Nat} (he : 0 < t.e) (hf : 0 < t.f) (h : t.FiniteFields ex fr) (hfr : fr < 2 ^ t.f) (rm : Nat) (sp neg : Bool) :
    t.round rm sp neg (t.units ex fr) (t.quantum ex) = ⟨t.sign neg + (ex * 2 ^ t.f + fr), 0⟩ := by
  rw [← Fmt.pack_units hfr]
  by_cases zero : t.units ex fr = 0
  · simp [Fmt.round, Fmt.pack, zero]
  · simp [Fmt.round, zero, Fmt.round_quantum hfr zero, roundAt_self, Fmt.over_eq_false he hf h hfr]

theorem formats_have_fields : ∀ t ∈ [Fmt.fp64, Fmt.fp32, Fmt.bf16, Fmt.fp16, Fmt.e5m2, Fmt.e4m3, Fmt.e2m1], 0 < t.e ∧ 0 < t.f := by decide

/-- Settles O31: the value is that of the pattern's fields, and rounding gives their pattern by `Fmt.round_units`. -/
theorem roundingKeepsRepresentableValues : Obligations.RoundingKeepsRepresentableValues := by
  intro t ht x rm sp neg m e hx hval
  obtain ⟨he, hf⟩ := formats_have_fields t ht
  obtain ⟨finite, rfl, rfl, rfl⟩ := (Fmt.val_eq_fin_iff he hf).mp hval
  rw [Fmt.round_units he hf finite (t.fracField_lt x), Fmt.sign_add_fields hx]

end Sys2Proof.Machine
end

section
/-! The matrix slice and the page-4 instructions that take it (spec/09 R238, R242 to R247, R259 to R261, R265). -/

namespace Sys2Proof.Machine

/-! ### Taking the slice (R238) -/

/-- A search by what a change of entries keeps finds the entry that it found before, changed. -/
theorem find?_mapIf {α : Type} {c p : α → Bool} {f : α → α} (keeps : ∀ a, c a = true → p (f a) = p a) (l : List α) :
    (mapIf c f l).find? p = (l.find? p).map fun a => if c a then f a else a := by
  have same : (p ∘ fun a => if c a then f a else a) = p := by
    funext a
    by_cases h : c a = true
    · simp only [Function.comp_apply, h, if_true, keeps a h]
    · simp only [Function.comp_apply, h, Bool.false_eq_true, if_false]
  rw [mapIf, List.find?_map, same]

/-- Taking the slice changes the list of slices and nothing else. -/
theorem State.takeSlice_eq (s : State) : s.takeSlice = { s with slices := s.takeSlice.slices } := by
  unfold State.takeSlice
  dsimp only
  split
  · split <;> rfl
  · rfl

@[simp] theorem State.takeSlice_me (s : State) : s.takeSlice.me = s.me := by rw [State.takeSlice_eq]

@[simp] theorem State.takeSlice_mem (s : State) : s.takeSlice.mem = s.mem := by rw [State.takeSlice_eq]

@[simp] theorem State.takeSlice_sats (s : State) : s.takeSlice.sats = s.sats := by rw [State.takeSlice_eq]

/-- The slice of its core as an agent takes it: of its region, with both tiles zero. -/
def Agent.newSlice (a : Agent) : Slice := ⟨a.loc, some a.uid, a.rid, Tile.zero, Tile.zero⟩

/-- A slice that the agent has already stays as it is. -/
theorem State.takeSlice_of_mine {s : State} {q : Slice} (found : s.slice? s.me.loc = some q) (mine : q.holder = some s.me.uid) : s.takeSlice = s := by
  simp only [State.takeSlice, found, mine, if_true]

/-- A slice that another agent or none has is replaced by a new one. -/
theorem State.takeSlice_of_found {s : State} {q : Slice} (found : s.slice? s.me.loc = some q) (other : q.holder ≠ some s.me.uid) :
    s.takeSlice = { s with slices := mapIf (fun q => q.loc == s.me.loc) (fun _ => s.me.newSlice) s.slices } := by
  simp only [State.takeSlice, found, if_neg other, Agent.newSlice]

theorem State.takeSlice_of_none {s : State} (none : s.slice? s.me.loc = none) : s.takeSlice = { s with slices := s.slices ++ [s.me.newSlice] } := by
  simp only [State.takeSlice, none, Agent.newSlice]

/-- The slice record of any core after the record of the agent's core has been replaced. -/
theorem State.slice?_replaced (s : State) (l : Loc) :
    ({ s with slices := mapIf (fun q => q.loc == s.me.loc) (fun _ => s.me.newSlice) s.slices } : State).slice? l =
      (s.slice? l).map fun q => if q.loc == s.me.loc then s.me.newSlice else q :=
  find?_mapIf (fun q h => by rw [eq_of_beq h]; rfl) s.slices

theorem Slice.loc_of_slice? {s : State} {l : Loc} {q : Slice} (h : s.slice? l = some q) : q.loc = l :=
  eq_of_beq (List.find?_some (p := fun q : Slice => q.loc == l) h)

/-- An agent that did not have its slice has a new one. -/
theorem State.slice?_takeSlice {s : State} (other : ∀ q, s.slice? s.me.loc = some q → q.holder ≠ some s.me.uid) :
    s.takeSlice.slice? s.me.loc = some s.me.newSlice := by
  cases found : s.slice? s.me.loc with
  | none =>
    have absent : s.slices.find? (fun q => q.loc == s.me.loc) = none := found
    rw [State.takeSlice_of_none found, State.slice?, List.find?_append, absent, Option.none_or]
    exact List.find?_cons_of_pos BEq.rfl
  | some q =>
    rw [State.takeSlice_of_found found (other q found), State.slice?_replaced, found, Option.map_some, Slice.loc_of_slice? found, if_pos BEq.rfl]

/-- The slices of other cores stay as they are. -/
theorem State.slice?_takeSlice_other {s : State} {l : Loc} (h : l ≠ s.me.loc) : s.takeSlice.slice? l = s.slice? l := by
  have elsewhere {q : Slice} (at_ : q.loc = l) : (q.loc == s.me.loc) = false := by rw [at_]; exact beq_false_of_ne h
  cases found : s.slice? s.me.loc with
  | none =>
    have notHere : [s.me.newSlice].find? (fun q => q.loc == l) = none := List.find?_cons_of_neg (by simpa [Agent.newSlice] using Ne.symm h)
    rw [State.takeSlice_of_none found, State.slice?, List.find?_append, notHere, Option.or_none]
    rfl
  | some q =>
    by_cases mine : q.holder = some s.me.uid
    · rw [State.takeSlice_of_mine found mine]
    · rw [State.takeSlice_of_found found mine, State.slice?_replaced]
      cases there : s.slice? l with
      | none => rfl
      | some r => rw [Option.map_some, elsewhere (Slice.loc_of_slice? there), if_neg Bool.false_ne_true]

/-! ### Who may run a page-4 instruction (R238, R239) -/

theorem State.notPending.subset {s : State} {xs ys : List Reg} {ks : List Reg4} (h : s.notPending xs ks) (sub : ys ⊆ xs) : s.notPending ys ks :=
  ⟨fun r hr => h.1 r (sub hr), h.2⟩

/-- The agent whose turn it is is a thread, and the slice of its core is its own or free. -/
abbrev State.mayTakeSlice (s : State) : Prop := s.me.isHandler = false ∧ s.sliceHeld s.me.loc s.me.uid = false

theorem State.page4_of_may {s : State} (may : s.mayTakeSlice) (k : State → Res) : s.page4 k = k s := by
  obtain ⟨thread, free⟩ := may
  simp only [State.page4, thread, free, Bool.or_self, Bool.false_eq_true, if_false]

/-- Where the agent may take the slice, a page-4 instruction completes as its body does. -/
theorem State.page4_completes {s t : State} {i : Instr} {h : Hdr} {n : Needs} {k : State → Res}
    (issues : exec i s = s.issue h n fun s => s.page4 k) (hz : s.me.hazard n = none) (may : s.mayTakeSlice) (body : k s = .ok t) : s.completes i h t :=
  issues.trans (State.issue_ok hz ((State.page4_of_may may k).trans body))

/-- Where the agent may take the slice, a page-4 instruction traps as its body does. -/
theorem State.page4_traps {s : State} {i : Instr} {h : Hdr} {n : Needs} {k : State → Res} {cause : Nat}
    (issues : exec i s = s.issue h n fun s => s.page4 k) (hz : s.me.hazard n = none) (may : s.mayTakeSlice) (body : k s = s.fail cause) :
    s.traps i cause 0 0 :=
  issues.trans (State.issue_trap hz ((State.page4_of_may may k).trans body))

/-- In a handler, or while another agent has the slice, a page-4 instruction takes cause 0x01. -/
theorem State.page4_refused {s : State} {i : Instr} {h : Hdr} {n : Needs} {k : State → Res} (issues : exec i s = s.issue h n fun s => s.page4 k)
    (busy : s.me.isHandler = true ∨ s.sliceHeld s.me.loc s.me.uid = true) (hz : s.me.hazard n = none) : s.traps i 0x01 0 0 := by
  have refused : (s.me.isHandler || s.sliceHeld s.me.loc s.me.uid) = true := (Bool.or_eq_true ..).mpr busy
  exact issues.trans (State.issue_trap hz (by rw [State.page4, if_pos refused]; rfl))

/-! ### The satellite of an instruction (spec/02 R53, R57) -/

/-- Creation in a free slot, with no scratchpad lines to fill. -/
theorem State.newSat_ok {s : State} {slot : Nat} (free : s.satSlot slot) (rd : Reg) (kind : Nat) (engine : Engine) (ready : Bool) (task : Task) :
    s.newSat rd kind engine ready none task = .ok (s.withSat rd slot kind engine ready [] task) := by
  obtain ⟨own, found⟩ := free
  simp only [State.newSat, own, found, Bool.false_eq_true, if_false]
  rfl

/-- The satellite of a drain and its entry (R261): the entry holds the token and the handle of the satellite. -/
theorem drain_completes {s : State} {i : Instr} {indexed carry : Bool} {h : Hdr} {o : MTL} {slot : Nat} (issues : exec i s = drain i indexed carry h o s)
    (may : s.mayTakeSlice) (free : s.satSlot slot) (attr : attrBad (saPlain s.me.sattr) false = false) (takes : s.takesEntry)
    (wide : indexed = true → 64 ≤ s.me.mvl 32) (idle : s.notPending (o.ext.c :: (if indexed then [] else [o.ext.c + 1]) ++ [o.a]) []) :
    let t := s.withSat o.a slot 3 .drain false [] (.mdrn (o.i.field 0 1) carry s.me.mcfgv [] [] [])
    s.completes i h (t.takeSlice.upd fun a => a.enqueued
      { t.newEntry i ((o.ext.c :: (if indexed then [] else [o.ext.c + 1])).map s.x) 0 with
        tok := ((t.sats.find? fun q => q.sid == s.nextSid).map Sat.token).getD 0, aux := s.nextSid }) := by
  obtain ⟨vector, room⟩ := takes
  have rows : (indexed && decide (s.me.mvl 32 < 64)) = false := by
    cases indexed
    · rfl
    · simpa using wide rfl
  refine State.page4_completes issues (idle.hazard rfl rfl) may ?_
  simp only [vector, decide_false, rows, Bool.or_self, attr, Agent.queueFull, Nat.not_le.mpr room, Bool.false_eq_true, if_false, State.newSat_ok free]
  rfl

end Sys2Proof.Machine
end

section
/-! The page-4 instructions, row by row. -/

namespace Sys2Proof.Machine

/-! ### Configuration (R242 to R247) -/

section
variable {s : State} {h : Hdr} {o : XB} (may : s.mayTakeSlice) (idle : s.notPending [o.b] [])
include may idle

theorem mcfg_completes (legal : cfgLegal (s.x o.b) = true) : s.completes (.mcfg h o) h (s.takeSlice.upd fun a => { a with mcfgv := s.x o.b }) :=
  State.page4_completes rfl (idle.hazard rfl rfl) may (if_pos legal)

theorem mcfg_traps (illegal : cfgLegal (s.x o.b) = false) : s.traps (.mcfg h o) 0x01 0 0 :=
  State.page4_traps rfl (idle.hazard rfl rfl) may (if_neg (by simp [illegal]))

theorem mscl_completes : s.completes (.mscl h o) h (s.takeSlice.upd fun a => { a with msbase := s.x o.b }) :=
  State.page4_completes rfl (idle.hazard rfl rfl) may rfl

/-- `mgrp` takes a run of columns that its own is one of, and no other word. -/
theorem mgrp_completes (small : (s.x o.b).toNat < 2 ^ 16) (own : (s.x o.b).getLsbD s.me.loc.column = true) (run : contiguousRun (s.x o.b).toNat = true) :
    s.completes (.mgrp h o) h (s.takeSlice.upd fun a => { a with mgang := BitVec.ofNat 16 (s.x o.b).toNat }) := by
  refine State.page4_completes rfl (idle.hazard rfl rfl) may (if_neg ?_)
  have own' : (s.x o.b).toNat.testBit s.me.loc.column = true := own
  simpa [run, own'] using small

theorem mgrp_traps (bad : ¬ ((s.x o.b).toNat < 2 ^ 16 ∧ (s.x o.b).getLsbD s.me.loc.column = true ∧ contiguousRun (s.x o.b).toNat = true)) :
    s.traps (.mgrp h o) 0x01 0 0 := by
  refine State.page4_traps rfl (idle.hazard rfl rfl) may (if_pos ?_)
  rw [Bool.or_eq_true, Bool.or_eq_true, decide_eq_true_eq, Bool.not_eq_true', Bool.not_eq_true']
  refine Decidable.byContradiction fun ok => ?_
  obtain ⟨⟨small, own⟩, run⟩ := by simpa only [not_or] using ok
  exact bad ⟨Nat.not_le.mp small, (Bool.not_eq_false _).mp own, (Bool.not_eq_false _).mp run⟩

end

/-! ### Counters and satellites of a tile (R259, R260, R265) -/

section
variable {s : State} {h : Hdr} (may : s.mayTakeSlice)
include may

theorem mstat_completes {o : MIM} (idle : s.notPending [o.a] []) :
    s.completes (.mstat h o) h (s.takeSlice.setX o.a (s.takeSlice.tile s.me.loc (o.i.field 0 1)).counters) :=
  State.page4_completes rfl (idle.hazard rfl rfl) may (by dsimp only; rw [State.takeSlice_me])

theorem mstclr_completes (o : MIM) :
    s.completes (.mstclr h o) h (s.takeSlice.updTile s.me.loc (o.i.field 0 1) fun t => { t with ovf := 0, nanp := 0, inval := 0 }) :=
  State.page4_completes (n := {}) rfl rfl may (by dsimp only; rw [State.takeSlice_me])

variable {slot : Nat} (free : s.satSlot slot) (attr : attrBad (saPlain s.me.sattr) false = false)
include free attr

theorem mclr_completes {o : MIM} (idle : s.notPending [o.a] []) :
    s.completes (.mclr h o) h (s.withSat o.a slot 2 .matrix true [] (.mclr (o.i.field 0 1))).takeSlice :=
  State.page4_completes rfl (idle.hazard rfl rfl) may (by simp only [attr, State.newSat_ok free, Bool.false_eq_true, if_false])

theorem mldacc_completes {o : MTL} (idle : s.notPending [o.ext.c, o.ext.c + 1, o.a] []) (base : (s.x o.ext.c).toNat % 4 = 0)
    (stride : o.i.field 1 1 = 1 ∨ (s.x (o.ext.c + 1)).toNat % 4 = 0) :
    s.completes (.mldacc h o) h
      (s.withSat o.a slot 2 .matrix true []
        (.mldacc (o.i.field 0 1) (o.i.field 1 1 == 1) s.me.mcfgv (s.x o.ext.c) (s.x (o.ext.c + 1)) [])).takeSlice := by
  have aligned : ((s.x o.ext.c).toNat % 4 != 0 || !(o.i.field 1 1 == 1) && (s.x (o.ext.c + 1)).toNat % 4 != 0) = false := by
    obtain carry | rows := stride
    · simp [base, carry]
    · simp only [base, rows, bne_self_eq_false, Bool.and_false, Bool.or_self]
  refine State.page4_completes rfl (idle.hazard rfl rfl) may ?_
  simp only [attr, aligned, State.newSat_ok free, Bool.false_eq_true, if_false]

end

end Sys2Proof.Machine
end

section
/-! `mma` at issue (spec/09 R247, R250, R251). -/

namespace Sys2Proof.Machine

/-! ### What an arrival is made of -/

/-- What an `mma` has to pass before it takes the slice, and the slot found for its satellite. -/
abbrev State.mmaPasses (s : State) (o : MTL) (slot : Nat) : Prop :=
  s.mayTakeSlice ∧ attrBad (saPlain s.me.sattr) false = false ∧ (s.x o.ext.c).toNat % 64 = 0 ∧ (s.x (o.ext.c + 1)).toNat % 64 = 0 ∧ s.satSlot slot

/-- The tile operation of an `mma` (R247). -/
def State.tileOp (s : State) (o : MTL) : TileOp :=
  ⟨o.i.field 0 1, o.i.field 1 8 + 1, s.me.mcfgv, s.me.msbase, s.x o.ext.c, s.x (o.ext.c + 1), s.me.mgang, s.nextSid, true, [], []⟩

/-- The identity fields of an `mma` (R250). -/
def State.mmaIdent (s : State) (o : MTL) : List Nat := gangIdent s.me (s.x o.ext.c) (s.tileOp o).groups

/-- The arrival of an `mma` at the barrier of its row (R250). -/
def State.arrival (s : State) (h : Hdr) (o : MTL) (slot : Nat) : Arrival :=
  ⟨s.me.uid, s.me.loc, s.cycle s.me.loc, s.mmaIdent o, s.tileOp o, h, o.a.toNat, slot, s.me.gangto⟩

/-- The arrivals of the row whose gangs have a column in common with the agent's gang. -/
def State.gangMates (s : State) : List Arrival := (s.rowArrivals s.me).filter fun b => b.op.mgang &&& s.me.mgang != 0

/-- The identity fields in which some of the arrivals differ from a new one, as bits. -/
def identsDiff (mates : List Arrival) (ident : List Nat) : Nat := mates.foldl (fun n b => n ||| identDiff b.ident ident) 0

theorem foldl_or_eq_zero {α : Type} (f : α → Nat) : ∀ (l : List α) (n : Nat), l.foldl (fun n a => n ||| f a) n = 0 ↔ n = 0 ∧ ∀ a ∈ l, f a = 0
  | [], n => by simp
  | a :: l, n => by rw [List.foldl_cons, foldl_or_eq_zero f l, Nat.or_eq_zero_iff, List.forall_mem_cons, and_assoc]

theorem identsDiff_eq_zero {mates : List Arrival} {ident : List Nat} : identsDiff mates ident = 0 ↔ ∀ b ∈ mates, identDiff b.ident ident = 0 :=
  (foldl_or_eq_zero (fun b : Arrival => identDiff b.ident ident) mates 0).trans (by simp only [true_and])

/-- The word that names the differing fields above the columns that have arrived (R251) has the columns as its low halfword. -/
theorem columns_of_info (diff columns : Nat) : (BitVec.ofNat 64 (diff * 2 ^ 16 + columns)).toNat % 2 ^ 16 = columns % 2 ^ 16 := by
  rw [BitVec.toNat_ofNat]
  omega

/-- What `uinfo` holds for an arrival that differs (R251). -/
def State.mmaInfo (s : State) (h : Hdr) (o : MTL) (slot : Nat) : Word :=
  BitVec.ofNat 64 (identsDiff s.gangMates (s.mmaIdent o) * 2 ^ 16 + arrivedColumns (s.arrival h o slot :: s.gangMates))

/-- The slice taken, and the arrival recorded. -/
def State.arrived (s : State) (b : Arrival) : State := { s.takeSlice with barrier := s.barrier ++ [b] }

/-! ### The outcomes -/

section
variable {s : State} {h : Hdr} {o : MTL} {slot : Nat} (passes : s.mmaPasses o slot) (idle : s.notPending [o.ext.c, o.ext.c + 1, o.a] [])
include passes idle

/-- An `mma` of the agent's own column alone makes its satellite at once. -/
theorem mma_alone (alone : s.me.mgang = BitVec.ofNat 16 (2 ^ s.me.loc.column)) :
    s.completes (.mma h o) h (s.takeSlice.withSat o.a slot 2 .matrix true [] (.mma (s.tileOp o))) := by
  obtain ⟨⟨thread, free⟩, attr, ra, rb, after, found⟩ := passes
  refine (show exec (.mma h o) s = execMma h o s from rfl).trans (State.issue_ok (idle.hazard rfl rfl) ?_)
  rw [State.takeSlice_eq]
  simp only [thread, free, attr, ra, rb, after, found, bne_self_eq_false, Bool.or_self, Bool.false_eq_true, if_false, if_pos alone]
  rfl

/-- An `mma` of more columns takes the slice and meets the arrivals of its row: it traps with them where an identity field differs, starts the gang where it is
the last to come, and waits otherwise. -/
theorem mma_joins (gang : s.me.mgang ≠ BitVec.ofNat 16 (2 ^ s.me.loc.column)) :
    exec (.mma h o) s = .next (
      if identsDiff s.gangMates (s.mmaIdent o) ≠ 0 then
        (s.takeSlice.barrierTrap s.gangMates 0x17 (s.mmaInfo h o slot)).takeTrap (issueTrap 0x17 s.me.pc 0 (s.mmaInfo h o slot))
      else if arrivedColumns (s.gangMates ++ [s.arrival h o slot]) = s.me.mgang.toNat then
        (s.arrived (s.arrival h o slot)).startGang (s.gangMates ++ [s.arrival h o slot])
      else (s.arrived (s.arrival h o slot)).upd fun a => { a with life := .parked .gang }) := by
  obtain ⟨⟨thread, free⟩, attr, ra, rb, after, found⟩ := passes
  have hz : s.me.hazard { xr := [o.ext.c, o.ext.c + 1], xw := [o.a] } = none := idle.hazard rfl rfl
  refine (show exec (.mma h o) s = execMma h o s from rfl).trans ?_
  simp only [execMma, State.issue, hz, thread, free, attr, ra, rb, after, found, bne_self_eq_false, Bool.or_self, Bool.false_eq_true, if_false, if_neg gang]
  unfold State.arrived
  rw [State.takeSlice_eq]
  refine congrArg Host.Outcome.next ?_
  by_cases same : identsDiff s.gangMates (s.mmaIdent o) = 0
  · have agree : ¬ identsDiff s.gangMates (s.mmaIdent o) ≠ 0 := fun differ => differ same
    rw [if_neg agree]
    refine (congrArg (s.finish h) (if_neg (mt bne_iff_ne.mp agree))).trans ?_
    by_cases last : arrivedColumns (s.gangMates ++ [s.arrival h o slot]) = s.me.mgang.toNat
    · rw [if_pos last]
      exact congrArg (s.finish h) (if_pos last)
    · rw [if_neg last]
      exact congrArg (s.finish h) (if_neg last)
  · rw [if_pos same]
    exact congrArg (s.finish h) (if_pos (bne_iff_ne.mpr same))

end

end Sys2Proof.Machine

namespace Sys2Proof
open Machine

/-- Settles O43: how taking the slice changes the slices, and for each row what its body gives where the slice may be taken and where it may not. -/
theorem matrixInstructions : Obligations.MatrixInstructions := by
  refine ⟨fun s => ?_, fun s h b m o slot thread free => ?_, fun s h b m o busy => ?_⟩
  · exact ⟨s.takeSlice_me, s.takeSlice_mem, s.takeSlice_sats, fun q => State.takeSlice_of_mine, State.slice?_takeSlice, fun l => State.slice?_takeSlice_other⟩
  · have may : s.mayTakeSlice := ⟨thread, free⟩
    refine ⟨fun idle => ?_, mstat_completes may, mstclr_completes may m, fun slot attr => ?_⟩
    · exact ⟨mcfg_completes may idle, mcfg_traps may idle, mscl_completes may idle, mgrp_completes may idle, mgrp_traps may idle⟩
    · refine ⟨mclr_completes may slot attr, fun idle => ⟨mldacc_completes may slot attr idle, fun ra rb alone => ?_⟩, ?_⟩
      · exact mma_alone ⟨may, attr, ra, rb, slot⟩ idle alone
      · rintro takes i carry more (⟨rfl, rfl, rfl⟩ | ⟨rfl, rfl, rfl, wide⟩) idle
        · exact drain_completes (indexed := false) rfl may slot attr takes nofun idle
        · exact drain_completes (indexed := true) rfl may slot attr takes (fun _ => wide) idle
  · refine ⟨fun idle => ?_, fun idle => ?_, State.page4_refused (n := {}) rfl busy rfl, fun idle => ?_⟩
    · have hz : s.me.hazard { xr := [b.b] } = none := idle.hazard rfl rfl
      exact ⟨State.page4_refused rfl busy hz, State.page4_refused rfl busy hz, State.page4_refused rfl busy hz⟩
    · have hz : s.me.hazard { xw := [m.a] } = none := idle.hazard rfl rfl
      exact ⟨State.page4_refused rfl busy hz, State.page4_refused rfl busy hz⟩
    · have hz : s.me.hazard { xr := [o.ext.c, o.ext.c + 1], xw := [o.a] } = none := idle.hazard rfl rfl
      exact ⟨State.page4_refused rfl busy hz, State.page4_refused rfl busy hz,
        State.page4_refused rfl busy ((idle.subset (by simp)).hazard (xs := [o.ext.c, o.a]) rfl rfl)⟩

end Sys2Proof
end

section
/-! The wired barrier after an arrival, and one step of a tile operation (spec/09 R252, R255, spec/04 R124). -/

namespace Sys2Proof.Machine

/-! ### GANG_STALL (R252) -/

section
variable {s : State} {n : Nat} {b : Arrival} {a : Agent} (arrived : s.barrier.find? (fun q => q.uid == n) = some b) (lives : s.agent? n = some a)
include arrived lives

/-- The gang whose first arrival has waited its `gangto` leaves the barrier. -/
theorem gangStall_ends (first : (((s.rowArrivals a).filter fun q => q.ident == b.ident).head?).map Arrival.uid = some n)
    (due : b.at_ + b.gangto ≤ s.cycle b.loc) :
    let gang := (s.rowArrivals a).filter fun q => q.ident == b.ident
    s.gives (.gangStall n) (s.barrierTrap gang 0x18 (BitVec.ofNat 64 (arrivedColumns gang))) := by
  refine (show exec (.gangStall n) s = execGangStall n s from rfl).trans ?_
  simp only [execGangStall, arrived, lives]
  exact if_pos ((Bool.and_eq_true ..).mpr ⟨beq_iff_eq.mpr first, decide_eq_true due⟩)

theorem gangStall_waits (early : s.cycle b.loc < b.at_ + b.gangto) : s.gives (.gangStall n) s := by
  refine (show exec (.gangStall n) s = execGangStall n s from rfl).trans ?_
  simp only [execGangStall, arrived, lives]
  exact if_neg (by simp [early])

end

/-! ### MMA_GROUP_STEP (R255) -/

/-- A gang of one steps with the group that it reads, and ends after its last. -/
theorem State.groupStep_alone {s u w : State} {t : Sat} {o : TileOp} {a b : List Nat × List Nat} (alone : s.gangOf t o = [(t, o)])
    (goesOn : t.cancel = false) (later : t.units ≠ 0) (readA : s.readA t o t.units = (.ok a, u)) (readB : u.readB t o t.units = (.ok b, w)) :
    s.groupStep t o =
      (let z := w.memberStep t o ⟨a.1, b.1, a.2, b.2⟩
       if o.groups ≤ t.units + 1 then z.endSat t.sid 0 0 0 0 else z) := by
  have readAll : u.readAllB t.units [(t, o)] = (.ok [b], w) := by simp only [State.readAllB, readB]
  have notFirst : (t.units == 0) = false := beq_false_of_ne later
  simp only [State.groupStep, alone, List.any_cons, List.any_nil, goesOn, notFirst, Bool.or_self, Bool.false_eq_true, if_false, readA, readAll,
    List.zip_cons_cons, List.zip_nil_right, List.foldl_cons, List.foldl_nil]

theorem exec_mmaGroupStep {s : State} {n : Nat} {t : Sat} {o : TileOp} (found : s.satIs n t) (task : t.task = .mma o) (live : t.terminal = false)
    (begun : t.begun = true) (all : ((s.gangOf t o).all fun q => q.1.begun) = true) : exec (.mmaGroupStep n) s = .next (s.groupStep t o) := by
  refine (show exec (.mmaGroupStep n) s = execMmaGroupStep n s from rfl).trans ?_
  simp only [execMmaGroupStep, found, task, begun, live, all, Bool.not_false, Bool.and_self, if_true]

/-! ### A step in INT32 (spec/04 R124) -/

/-- The number of some digits, the first the lowest. -/
def digitsNat (b : Nat) (l : List Nat) : Nat := l.foldr (fun x v => x + b * v) 0

theorem digitsNat_cons (b x : Nat) (l : List Nat) : digitsNat b (x :: l) = x + b * digitsNat b l := rfl

theorem digitsNat_lt {b : Nat} : ∀ {l : List Nat}, (∀ x ∈ l, x < b) → digitsNat b l < b ^ l.length
  | [], _ => Nat.one_pos
  | x :: l, h => by
    obtain ⟨first, rest⟩ := List.forall_mem_cons.mp h
    calc x + b * digitsNat b l < b * (digitsNat b l + 1) := by rw [Nat.mul_add, Nat.mul_one]; omega
      _ ≤ b * b ^ l.length := Nat.mul_le_mul_left b (digitsNat_lt rest)
      _ = b ^ (x :: l).length := (Nat.pow_succ' ..).symm

/-- Dividing by a power of the base and taking the remainder gives a digit back. -/
theorem digitsNat_div_mod {b : Nat} : ∀ {l : List Nat}, (∀ x ∈ l, x < b) → ∀ {n : Nat} (h : n < l.length), digitsNat b l / b ^ n % b = l[n]
  | x :: l, h, 0, _ => by
    rw [Nat.pow_zero, Nat.div_one, digitsNat_cons, Nat.add_mul_mod_self_left, Nat.mod_eq_of_lt (List.forall_mem_cons.mp h).1, List.getElem_cons_zero]
  | x :: l, h, n + 1, inside => by
    obtain ⟨first, rest⟩ := List.forall_mem_cons.mp h
    have tail : digitsNat b (x :: l) / b = digitsNat b l := by
      have pos : 0 < b := Nat.lt_of_le_of_lt (Nat.zero_le x) first
      rw [digitsNat_cons, Nat.add_mul_div_left x _ pos, Nat.div_eq_of_lt first, Nat.zero_add]
    rw [Nat.pow_succ', ← Nat.div_div_eq_div_mul, tail, digitsNat_div_mod rest (Nat.lt_of_succ_lt_succ inside), List.getElem_cons_succ]

/-- A field of digits packed into a word is that digit. -/
theorem getField_digitsNat {k w : Nat} {l : List Nat} (digits : ∀ x ∈ l, x < 2 ^ k) (fits : k * l.length = w) {n : Nat} (h : n < l.length) :
    getField (BitVec.ofNat w (digitsNat (2 ^ k) l)) (k * n) k = l[n] := by
  have total : digitsNat (2 ^ k) l < 2 ^ w := by
    rw [← fits, Nat.pow_mul]
    exact digitsNat_lt digits
  rw [getField, BitVec.toNat_ofNat, Nat.mod_eq_of_lt total, Nat.pow_mul, digitsNat_div_mod digits h]

theorem umod_lt (n : Nat) (v : Int) : umod n v < 2 ^ n := by
  have pos : (0 : Int) < 2 ^ n := Int.pow_pos (by decide)
  have below : v % 2 ^ n < 2 ^ n := Int.emod_lt_of_pos v pos
  rw [umod, Int.toNat_lt (Int.emod_nonneg v (Int.ne_of_gt pos)), Int.natCast_pow]
  exact below

/-- Where each element of a row steps to a value of 32 bits, the row holds them in order. -/
theorem rowStep_field {cfg : Word} {g : Group} {m : Nat} {row : BitVec 4096} (small : ∀ n acc, (elemStep cfg g m n acc).v < 2 ^ 32) {n : Nat} (h : n < 128) :
    getField (rowStep cfg g m row).1 (32 * n) 32 = (elemStep cfg g m n (getField row (32 * n) 32)).v := by
  have packed : (rowStep cfg g m row).1 =
      BitVec.ofNat 4096 (digitsNat (2 ^ 32) ((List.range 128).map fun n => (elemStep cfg g m n (getField row (32 * n) 32)).v)) := by
    simp only [rowStep, digitsNat, List.foldr_map]
  have digits : ∀ v ∈ (List.range 128).map fun n => (elemStep cfg g m n (getField row (32 * n) 32)).v, v < 2 ^ 32 :=
    List.forall_mem_map.mpr fun n _ => small n _
  rw [packed, getField_digitsNat digits (by rw [List.length_map, List.length_range]) (by rwa [List.length_map, List.length_range]), List.getElem_map,
    List.getElem_range]

/-- The products of element (m, n) along K. -/
def intProducts (cfg : Word) (g : Group) (m n : Nat) : List Int :=
  (List.range 32).map fun k => tileInt (cfgAfmt cfg) (rowElem (cfgAfmt cfg) (g.a.getD m 0) k) * tileInt (cfgBfmt cfg) (rowElem (cfgBfmt cfg) (g.b.getD n 0) k)

theorem elemStep_int {cfg : Word} (int : cfgAcc cfg = 8) (g : Group) (m n acc : Nat) :
    (elemStep cfg g m n acc).v = umod 32 (saturate 32 (sval 32 acc + (intProducts cfg g m n).sum)) := by
  simp only [elemStep, int, if_true, intStep, intProducts, List.sum_eq_foldl]

theorem Tile.step_int {cfg : Word} (int : cfgAcc cfg = 8) (t : Tile) (g : Group) (m : Fin 64) {n : Nat} (h : n < 128) :
    getField (t.step cfg g).rows[m] (32 * n) 32 =
      umod 32 (saturate 32 (sval 32 (getField t.rows[m] (32 * n) 32) + (intProducts cfg g m n).sum)) := by
  have row : (t.step cfg g).rows[m] = (rowStep cfg g m t.rows[m]).1 := by simp [Tile.step]
  rw [row, rowStep_field (fun n acc => elemStep_int int g m n acc ▸ umod_lt ..) h, elemStep_int int]

end Sys2Proof.Machine
end

section
/-! Loads and drains of a tile, line by line (spec/09 R260 to R264). -/

namespace Sys2Proof.Machine

/-! ### MLDACC_LINE (R260) -/

/-- The address of a row of a load. -/
def mldaccRow (base stride : Word) : Nat → Nat := fun r => umod 64 ((base.toNat : Int) + stride.toInt * r)

/-- The bytes of a row of a load, and its rows: all carries stand in one. -/
def mldaccBytes (carry : Bool) : Nat := if carry then 256 else 512
def mldaccRows (carry : Bool) : Nat := if carry then 1 else 64

/-- A line of a load that is not the last: the carries are written with it, and a row of the tile is written when it is whole. -/
theorem State.loadStep_line {s u : State} {t : Sat} {acc : Nat} {carry : Bool} {cfg base stride : Word} {part bs : List Byte} {q : Nat × Nat}
    (goesOn : t.cancel = false) (found : rowFind (mldaccRow base stride) (mldaccBytes carry) (mldaccRows carry) 0 t.units = some q)
    (more : (rowFind (mldaccRow base stride) (mldaccBytes carry) (mldaccRows carry) 0 (t.units + 1)).isSome = true) :
    let o := (blockUnit (mldaccRow base stride q.1) (mldaccBytes carry) q.2).1
    let k := (blockUnit (mldaccRow base stride q.1) (mldaccBytes carry) q.2).2
    s.vread (s.satSpace t .tile) ((mldaccRow base stride q.1 + o) % 2 ^ 64) k = (.ok bs, u) →
    let w := if carry then u.updTile t.loc acc fun w => w.putCarries o bs
      else if o + k = mldaccBytes carry then u.updTile t.loc acc fun w => w.putRow q.1 0 (part ++ bs) else u
    s.loadStep t acc carry cfg base stride part = w.updSat t.sid fun t =>
      { t with units := t.units + 1, task := .mldacc acc carry cfg base stride (if carry = true ∨ o + k = mldaccBytes carry then [] else part ++ bs) } := by
  intro o k read w
  have notLast : (rowFind (mldaccRow base stride) (mldaccBytes carry) (mldaccRows carry) 0 (t.units + 1)).isNone = false := by
    rw [← Option.not_isSome, more]; rfl
  unfold mldaccRow mldaccBytes mldaccRows at found notLast
  dsimp only [o, k, mldaccRow, mldaccBytes] at read
  simp only [State.loadStep, found, goesOn, Bool.false_eq_true, if_false, read, notLast, Bool.or_eq_true, beq_iff_eq]
  rfl

theorem exec_mldaccLine {s : State} {n acc : Nat} {t : Sat} {carry : Bool} {cfg base stride : Word} {part : List Byte} (found : s.satIs n t)
    (task : t.task = .mldacc acc carry cfg base stride part) (begun : t.begun = true) (live : t.terminal = false) :
    exec (.mldaccLine n) s = .next (s.loadStep t acc carry cfg base stride part) := by
  refine (show exec (.mldaccLine n) s = execMldaccLine n s from rfl).trans ?_
  simp only [execMldaccLine, found, task, begun, live, Bool.not_false, Bool.and_self, if_true]

/-! ### Which elements go with the next line (R262, R264) -/

/-- The cut comes right after the first element: no later one joins its line, or in a drain that is not counted the next one does not. -/
def drainEnds (counted : Bool) (l : Lane) (t : List Lane) : Bool :=
  if counted then t.all fun m => m.line != l.line else (t.head?.map Lane.line) != some l.line

theorem drainCut_cons (counted : Bool) (l : Lane) (t : List Lane) :
    drainCut counted (l :: t) = if drainEnds counted l t then ([l], t) else (l :: (drainCut counted t).1, (drainCut counted t).2) := rfl

theorem drainCut_append (counted : Bool) : ∀ els : List Lane, (drainCut counted els).1 ++ (drainCut counted els).2 = els
  | [] => rfl
  | l :: t => by
    rw [drainCut_cons]
    split
    · rfl
    · exact congrArg (l :: ·) (drainCut_append counted t)

theorem drainCut_ne_nil (counted : Bool) {els : List Lane} (h : els ≠ []) : (drainCut counted els).1 ≠ [] := by
  cases els with
  | nil => exact absurd rfl h
  | cons l t =>
    rw [drainCut_cons]
    split <;> exact List.cons_ne_nil _ _

/-- A drain that is not counted cuts off elements of the line of the first. -/
theorem drainCut_one_line : ∀ (l : Lane) (t : List Lane), ∀ m ∈ (drainCut false (l :: t)).1, m.line = l.line
  | l, [], m, h => by
    obtain rfl : m = l := List.mem_singleton.mp h
    rfl
  | l, a :: t, m, h => by
    rw [drainCut_cons] at h
    by_cases ends : drainEnds false l (a :: t) = true
    · rw [if_pos ends] at h
      rw [List.mem_singleton.mp h]
    · rw [if_neg ends] at h
      have joins : a.line = l.line := by simpa [drainEnds] using ends
      obtain rfl | h := List.mem_cons.mp h
      · rfl
      · exact (drainCut_one_line a t m h).trans joins

/-- A counted drain cuts after an element whose line no later one joins. -/
theorem drainCut_whole_line : ∀ (els : List Lane) {l : Lane}, (drainCut true els).1.getLast? = some l → ∀ m ∈ (drainCut true els).2, m.line ≠ l.line
  | [], _, last => nomatch last
  | a :: t, l, last => by
    rw [drainCut_cons] at last ⊢
    by_cases ends : drainEnds true a t = true
    · rw [if_pos ends] at last ⊢
      obtain rfl : a = l := by simpa using last
      simpa [drainEnds] using ends
    · rw [if_neg ends] at last ⊢
      have rest : t ≠ [] := by rintro rfl; exact ends rfl
      rw [List.getLast?_cons_of_ne_nil (drainCut_ne_nil true rest)] at last
      exact drainCut_whole_line t last

/-! ### DRAIN_LINE (R262) -/

/-- The elements that a drain that is not counted converts for its next line. -/
def State.drainNew (s : State) (t : Sat) (acc : Nat) (carry : Bool) (cfg : Word) (els : List Lane) (rows : List DrainRow) : List Staged :=
  (drainElems cfg carry (drainCut false els).1 ((s.tile t.loc acc).running rows)).1

/-- Of some converted elements, those of a line. -/
def stagedAt (line : Nat) (l : List Staged) : List Staged := l.filter fun e => e.line == line

theorem State.via_updTile (s : State) (l : Loc) (acc : Nat) (f : Tile → Tile) (loc : Loc) (rid : Nat) : (s.updTile l acc f).via loc rid = s.via loc rid := rfl

/-- A line of an uncounted drain that is not the last goes out with the elements converted for it, which move the tile. -/
theorem State.drainLineStep_sends {s u : State} {t : Sat} {acc : Nat} {carry : Bool} {cfg : Word} {els : List Lane} {last : Lane} {staged : List Staged}
    {rows : List DrainRow} (goesOn : t.cancel = false) (plain : saReaders t.sattr = 0) (ends : (drainCut false els).1.getLast? = some last)
    (more : (drainCut false els).2 ≠ []) :
    let new := s.drainNew t acc carry cfg els rows
    let sent := stagedAt last.line (staged ++ new)
    let moved := Tile.drained (s.tile t.loc acc, drainRows rows new) sent
    (s.updTile t.loc acc fun _ => moved.1).drainPut { s.via t.loc t.rid with key := last.key } (t.tag (last.val.getD 0 / 128 * 128)) last.line
      (lineImage sent).1 (maskRuns (lineImage sent).2) = (.ok (), u) →
    s.drainLineStep t acc carry cfg els staged rows = u.updSat t.sid fun t =>
      { t with units := t.units + bnat ((drainCut false els).2.all fun l => l.line != last.line),
               task := .mdrn acc carry cfg (drainCut false els).2 ((staged ++ new).filter fun e => e.line != last.line) moved.2 } := by
  intro new sent moved put
  have notLast : (drainCut false els).2.isEmpty = false := by simpa using more
  simp only [new, sent, moved, stagedAt, State.drainNew] at put ⊢
  simp only [State.drainLineStep, plain, bne_self_eq_false, ends, goesOn, Bool.false_eq_true, if_false, if_true, State.via_updTile, put, notLast]

theorem exec_drainLine {s : State} {n acc : Nat} {t : Sat} {carry : Bool} {cfg : Word} {els : List Lane} {staged : List Staged} {rows : List DrainRow}
    (found : s.satIs n t) (task : t.task = .mdrn acc carry cfg els staged rows) (begun : t.begun = true) (live : t.terminal = false) :
    exec (.drainLine n) s = .next (s.drainLineStep t acc carry cfg els staged rows) := by
  refine (show exec (.drainLine n) s = execDrainLine n s from rfl).trans ?_
  simp only [execDrainLine, found, task, begun, live, Bool.not_false, Bool.and_self, if_true]

/-! ### What a sent line moves (R262) -/

/-- The tile and the rows of a drain after one element of a line that is sent: `Tile.drained` element by element. -/
def Tile.drainedBy (q : Tile × List DrainRow) (e : Staged) : Tile × List DrainRow :=
  let t := { q.1 with ovf := min 0xFFFF (q.1.ovf + bnat e.ovf) }
  if (q.2.any fun r => r.row == e.row && decide (e.col < r.upto)) then (t, q.2)
  else ({ t with carries := t.carries.setIfInBounds e.row e.carry }, mapIf (fun r => r.row == e.row) (fun r => { r with upto := e.col + 1 }) q.2)

theorem Tile.drained_cons (q : Tile × List DrainRow) (e : Staged) (l : List Staged) : Tile.drained q (e :: l) = Tile.drained (Tile.drainedBy q e) l := rfl

theorem Tile.drained_concat (q : Tile × List DrainRow) (l : List Staged) (e : Staged) :
    Tile.drained q (l ++ [e]) = Tile.drainedBy (Tile.drained q l) e := List.foldl_append ..

@[simp] theorem Tile.drainedBy_rows (q : Tile × List DrainRow) (e : Staged) : (Tile.drainedBy q e).1.rows = q.1.rows := by
  unfold Tile.drainedBy
  dsimp only
  split <;> rfl

theorem Tile.drainedBy_carry_other {q : Tile × List DrainRow} {e : Staged} {m : Nat} (h : e.row ≠ m) :
    (Tile.drainedBy q e).1.carries.toList.getD m 0 = q.1.carries.toList.getD m 0 := by
  unfold Tile.drainedBy
  dsimp only
  split
  · rfl
  · rw [Vector.toList_setIfInBounds, List.getD_eq_getElem?_getD, List.getElem?_set_ne h, List.getD_eq_getElem?_getD]

/-- An element that no sent line has gone past moves its row's carry to its own. -/
theorem Tile.drainedBy_carry {q : Tile × List DrainRow} {e : Staged} (h : e.row < 64) (ahead : ∀ r ∈ q.2, r.row = e.row → r.upto ≤ e.col) :
    (Tile.drainedBy q e).1.carries.toList.getD e.row 0 = e.carry := by
  have notPast : ¬ (q.2.any fun r => r.row == e.row && decide (e.col < r.upto)) = true := by
    simpa using ahead
  unfold Tile.drainedBy
  rw [if_neg notPast, Vector.toList_setIfInBounds, List.getD_eq_getElem?_getD, List.getElem?_set_self (by simpa using h), Option.getD_some]

theorem Tile.drained_rows : ∀ (l : List Staged) (q : Tile × List DrainRow), (Tile.drained q l).1.rows = q.1.rows
  | [], _ => rfl
  | e :: l, q => by rw [Tile.drained_cons, Tile.drained_rows l, Tile.drainedBy_rows]

theorem Tile.drained_carry_other {m : Nat} : ∀ {l : List Staged} (q : Tile × List DrainRow), (∀ e ∈ l, e.row ≠ m) →
    (Tile.drained q l).1.carries.toList.getD m 0 = q.1.carries.toList.getD m 0
  | [], _, _ => rfl
  | e :: l, q, h => by
    obtain ⟨first, rest⟩ := List.forall_mem_cons.mp h
    rw [Tile.drained_cons, Tile.drained_carry_other _ rest, Tile.drainedBy_carry_other first]

end Sys2Proof.Machine

namespace Sys2Proof
open Machine

/-- Settles O44: `mma_joins` by its three outcomes, the events of the barrier and of the engines by what each does with one group or line, and the cut and the
sending of a drained line by induction on its elements. -/
theorem gangsAndTileWork : Obligations.GangsAndTileWork := by
  refine ⟨?arrival, ?stall, ?group, ?int, ?load, ?cut, ?drain, ?moved⟩
  case arrival =>
    intro s h o slot thread free found attr idle ra rb gang t op ident new mates
    have joined := mma_joins ⟨⟨thread, free⟩, attr, ra, rb, found⟩ idle gang (h := h)
    refine ⟨fun same => ?_, fun differ => ⟨s.mmaInfo h o slot, columns_of_info .., ?_⟩⟩
    · have agree : ¬ identsDiff s.gangMates (s.mmaIdent o) ≠ 0 := fun differ => differ (identsDiff_eq_zero.mpr same)
      exact ⟨fun missing => joined.trans (congrArg Host.Outcome.next ((if_neg agree).trans (if_neg missing))),
        fun complete => joined.trans (congrArg Host.Outcome.next ((if_neg agree).trans (if_pos complete)))⟩
    · have differs : identsDiff s.gangMates (s.mmaIdent o) ≠ 0 := fun same => by
        obtain ⟨b, mate, other⟩ := differ
        exact other (identsDiff_eq_zero.mp same b mate)
      exact joined.trans (congrArg Host.Outcome.next (if_pos differs))
  case stall =>
    intro s n b a arrived lives
    exact ⟨gangStall_ends arrived lives, gangStall_waits arrived lives⟩
  case group =>
    intro s u w n t o a b found task begun live goesOn later alone readA readB
    have all : ((s.gangOf t o).all fun q => q.1.begun) = true := by simp [alone, begun]
    exact (exec_mmaGroupStep found task live begun all).trans (congrArg Host.Outcome.next (State.groupStep_alone alone goesOn later readA readB))
  case int => exact fun t cfg g m n int h => Tile.step_int int t g m h
  case load =>
    intro s u n acc t carry cfg base stride part q bs found task begun live goesOn len row at_ o k read more
    exact (exec_mldaccLine found task begun live).trans (congrArg Host.Outcome.next (State.loadStep_line goesOn at_ more read))
  case cut =>
    intro counted els
    refine ⟨drainCut_append counted els, drainCut_ne_nil counted, ?_, ?_⟩
    · rintro rfl l hl m hm
      cases els with
      | nil => nomatch hl
      | cons a t => exact (drainCut_one_line a t l hl).trans (drainCut_one_line a t m hm).symm
    · rintro rfl l last
      exact drainCut_whole_line els last
  case drain =>
    intro s u n acc t carry cfg els last staged rows found task begun live goesOn plain ends more rest new here moved at_ v put
    exact (exec_drainLine found task begun live).trans (congrArg Host.Outcome.next (State.drainLineStep_sends goesOn plain ends more put))
  case moved =>
    intro q l
    refine ⟨fun m => Tile.drained_carry_other q, Tile.drained_rows l q, fun e h ahead => ?_⟩
    rw [Tile.drained_concat]
    exact Tile.drainedBy_carry h ahead

end Sys2Proof
end

section
/-! The token instructions of page 5 (spec/10 R267, R270, R271, R288 to R297). -/

namespace Sys2Proof.Machine

/-! ### The instructions and their issue -/

theorem exec_swait (h : Hdr) (o : RU) (s : State) : exec (.swait h o) s = execSwait h o s := rfl
theorem exec_stest (h : Hdr) (o : RU) (s : State) : exec (.stest h o) s = execStest h o s := rfl
theorem exec_scancel (h : Hdr) (o : RU) (s : State) : exec (.scancel h o) s = execScancel h o s := rfl
theorem exec_sdetach (h : Hdr) (o : XB) (s : State) : exec (.sdetach h o) s = execSdetach h o s := rfl
theorem exec_sadopt (h : Hdr) (o : XB) (s : State) : exec (.sadopt h o) s = execSadopt h o s := rfl
theorem exec_sprio (h : Hdr) (o : SPR) (s : State) : exec (.sprio h o) s = execSprio h o s := rfl
theorem exec_sfault (h : Hdr) (o : RU) (s : State) : exec (.sfault h o) s = execSfault h o s := rfl
theorem exec_spromise (h : Hdr) (o : XBC) (s : State) : exec (.spromise h o) s = execSpromise h o s := rfl
theorem exec_sleepu (h : Hdr) (o : XB) (s : State) : exec (.sleepu h o) s = execSleepu h o s := rfl
theorem exec_sattr (h : Hdr) (o : LI) (s : State) : exec (.sattr h o) s = execSattr h o s := rfl
theorem exec_swaitall (h : Hdr) (s : State) : exec (.swaitall h) s = execSwaitall h s := rfl

section
variable {s t : State} {i : Instr} {h : Hdr} {n : Needs} {body : State → Res} (issues : exec i s = s.issue h n body) (hz : s.me.hazard n = none)
include issues hz

/-- An instruction whose body completes. -/
theorem State.completes_of_issue (ok : body s = .ok t) : s.completes i h t := issues.trans (State.issue_ok hz ok)

/-- An instruction whose body fails with a cause and no address. -/
theorem State.traps_of_issue {cause : Nat} (fails : body s = s.fail cause) : s.traps i cause 0 0 := issues.trans (State.issue_trap hz fails)

/-- An instruction whose body parks the thread at its chain. -/
theorem State.parks_of_issue {why : Park} (parks : body s = .parkHere s why) : exec i s = .next (s.upd fun a => { a with life := .parked why }) :=
  issues.trans (State.issue_park hz parks)

end

/-! ### Reading a token (R270) -/

section
variable {s t : State} {i : Instr} {b : Reg} {more kw : List Reg} {f : State → Word → Res} {h : Hdr}
  (issues : exec i s = withToken b more kw f h s) (idle : s.notPending (b :: more ++ kw) [])
include issues idle

/-- A foreign token traps before the instruction looks at anything else. -/
theorem withToken_foreign (foreign : s.foreign (s.x b) = true) : s.traps i 0x1A 0 0 :=
  State.traps_of_issue issues (idle.hazard rfl rfl) (if_pos foreign)

variable (known : s.foreign (s.x b) = false)
include known

theorem withToken_completes (body : f s (s.x b) = .ok t) : s.completes i h t :=
  State.completes_of_issue issues (idle.hazard rfl rfl) ((if_neg (ne_true_of_eq_false known)).trans body)

theorem withToken_traps {cause : Nat} (body : f s (s.x b) = s.fail cause) : s.traps i cause 0 0 :=
  State.traps_of_issue issues (idle.hazard rfl rfl) ((if_neg (ne_true_of_eq_false known)).trans body)

end

/-! ### The status word (R271, R288 to R290) -/

theorem State.readStatus_live {s : State} {w : Word} {t : Sat} (named : s.named w = .live t) (rd : Reg) :
    s.readStatus rd w = if t.terminal && t.owner == some s.me.uid then (s.setX rd (statusWord t.status t.pmiss)).reap t.sid
      else s.setX rd (statusWord t.status t.pmiss) := by
  simp only [State.readStatus, named]

theorem State.readStatus_stale {s : State} {w : Word} (named : s.named w = .stale) (rd : Reg) : s.readStatus rd w = s.setX rd 4 := by
  simp only [State.readStatus, named]

/-- Cancelling a satellite that has ended changes nothing. -/
theorem State.cancelSat_terminal {s : State} {n : Nat} {t : Sat} (found : s.satIs n t) (ended : t.terminal = true) : s.cancelSat n = s := by
  simp only [State.cancelSat, found, ended, if_true]

section
variable {s : State} {h : Hdr} {o : RU} (idle : s.notPending [o.b, o.a] [])
include idle

theorem stest_live (known : s.foreign (s.x o.b) = false) {t : Sat} (named : s.named (s.x o.b) = .live t) :
    let u := s.setX o.a (statusWord t.status t.pmiss)
    s.completes (.stest h o) h (if t.terminal && t.owner == some s.me.uid then u.reap t.sid else u) :=
  withToken_completes (exec_stest ..) idle known (by rw [State.readStatus_live named])

theorem stest_stale (known : s.foreign (s.x o.b) = false) (named : s.named (s.x o.b) = .stale) : s.completes (.stest h o) h (s.setX o.a 4) :=
  withToken_completes (exec_stest ..) idle known (by rw [State.readStatus_stale named])

/-- A handler may not wait, whatever its token names (spec/02 R50). -/
theorem swait_handler (handler : s.me.isHandler = true) : s.traps (.swait h o) 0x1E 0 0 :=
  State.traps_of_issue (exec_swait ..) (idle.hazard rfl rfl) (if_pos handler)

theorem swait_foreign (thread : s.me.isHandler = false) (foreign : s.foreign (s.x o.b) = true) : s.traps (.swait h o) 0x1A 0 0 :=
  State.traps_of_issue (exec_swait ..) (idle.hazard rfl rfl) ((if_neg (ne_true_of_eq_false thread)).trans (if_pos foreign))

section
variable (thread : s.me.isHandler = false) (known : s.foreign (s.x o.b) = false)
include thread known

theorem swait_terminal {t : Sat} (named : s.named (s.x o.b) = .live t) (ended : t.terminal = true) :
    let u := s.setX o.a (statusWord t.status t.pmiss)
    s.completes (.swait h o) h (if t.terminal && t.owner == some s.me.uid then u.reap t.sid else u) :=
  State.completes_of_issue (exec_swait ..) (idle.hazard rfl rfl)
    (by simp only [thread, known, named, ended, State.readStatus_live named, if_true, Bool.false_eq_true, if_false])

theorem swait_running {t : Sat} (named : s.named (s.x o.b) = .live t) (running : t.terminal = false) :
    exec (.swait h o) s = .next (s.upd fun a => { a with life := .parked (.swait (s.x o.b)) }) :=
  State.parks_of_issue (exec_swait ..) (idle.hazard rfl rfl) (by simp only [thread, known, named, running, Bool.false_eq_true, if_false])

theorem swait_stale (named : s.named (s.x o.b) = .stale) : s.completes (.swait h o) h (s.setX o.a 4) :=
  State.completes_of_issue (exec_swait ..) (idle.hazard rfl rfl)
    (by simp only [thread, known, named, State.readStatus_stale named, Bool.false_eq_true, if_false])

end

section
variable (known : s.foreign (s.x o.b) = false)
include known

theorem scancel_stale (named : s.named (s.x o.b) = .stale) : s.completes (.scancel h o) h (s.setX o.a 4) :=
  withToken_completes (exec_scancel ..) idle known (by simp only [named])

variable {t : Sat} (named : s.named (s.x o.b) = .live t)
include named

theorem scancel_terminal (ended : t.terminal = true) (found : s.satIs t.sid t) :
    s.completes (.scancel h o) h (s.setX o.a (statusWord t.status t.pmiss)) :=
  withToken_completes (exec_scancel ..) idle known (by simp only [named, ended, if_true, State.cancelSat_terminal found ended])

/-- The status written is the one that the satellite has once cancelled; a satellite that its cancellation reaped reads as cancelled (2). -/
theorem scancel_running (running : t.terminal = false) :
    let u := s.cancelSat t.sid
    let st := match u.sats.find? fun d => d.sid == t.sid with | some d => d.status | none => 2
    s.completes (.scancel h o) h (u.setX o.a (statusWord st t.pmiss)) := by
  refine withToken_completes (exec_scancel ..) idle known ?_
  cases left : (s.cancelSat t.sid).sats.find? fun d => d.sid == t.sid with
  | none => simp [named, running, left]
  | some d => simp [named, running, left]

end
end

/-! ### The owner (R291) -/

section
variable {s : State} {h : Hdr} {o : XB} {t : Sat} (idle : s.notPending [o.b] []) (known : s.foreign (s.x o.b) = false)
  (named : s.named (s.x o.b) = .live t)
include idle known named

theorem sdetach_detached (free : t.owner = none) : s.completes (.sdetach h o) h s :=
  withToken_completes (exec_sdetach ..) idle known (by simp only [named, free])

theorem sdetach_own (own : t.owner = some s.me.uid) :
    s.completes (.sdetach h o) h ((s.updSat t.sid fun t => { t with owner := none }).settleSat t.sid) :=
  withToken_completes (exec_sdetach ..) idle known (by simp only [named, own, if_true])

theorem sadopt_detached (free : t.owner = none) : s.completes (.sadopt h o) h (s.updSat t.sid fun t => { t with owner := some s.me.uid }) :=
  withToken_completes (exec_sadopt ..) idle known (by simp only [named, free])

theorem sadopt_own (own : t.owner = some s.me.uid) : s.completes (.sadopt h o) h s :=
  withToken_completes (exec_sadopt ..) idle known (by simp only [named, own, if_true])

variable {u : Nat} (owned : t.owner = some u) (other : u ≠ s.me.uid)
include owned other

theorem sdetach_other : s.traps (.sdetach h o) 0x1A 0 0 :=
  withToken_traps (exec_sdetach ..) idle known (by simp only [named, owned, if_neg other])

theorem sadopt_other : s.traps (.sadopt h o) 0x1A 0 0 :=
  withToken_traps (exec_sadopt ..) idle known (by simp only [named, owned, if_neg other])

end

/-! ### Priority, fault words and promise (R292, R293, R296) -/

theorem sprio_live {s : State} {h : Hdr} {o : SPR} {t : Sat} (idle : s.notPending [o.b] []) (known : s.foreign (s.x o.b) = false)
    (named : s.named (s.x o.b) = .live t) :
    s.completes (.sprio h o) h (if t.terminal then s else
      s.updSat t.sid fun t => { t with prio := o.p.toNat, aged := 0, waitFrom := s.cycle t.loc }) :=
  withToken_completes (exec_sprio ..) idle known (by simp only [named])

theorem sfault_live {s : State} {h : Hdr} {o : RU} {t : Sat} (idle : s.notPending [o.b, o.a, o.a + 1, o.a + 2, o.a + 3] [])
    (known : s.foreign (s.x o.b) = false) (named : s.named (s.x o.b) = .live t) :
    let f := fun i => t.faultWords.getD i 0
    s.completes (.sfault h o) h ((((s.setX o.a (f 0)).setX (o.a + 1) (f 1)).setX (o.a + 2) (f 2)).setX (o.a + 3) (f 3)) :=
  withToken_completes (exec_sfault ..) idle known (by simp only [named])

section
variable {s : State} {h : Hdr} {o : XBC} {t : Sat} (idle : s.notPending [o.b, o.ext.c] []) (known : s.foreign (s.x o.b) = false)
  (named : s.named (s.x o.b) = .live t)
include idle known named

theorem spromise_terminal (ended : t.terminal = true) : s.completes (.spromise h o) h s :=
  withToken_completes (exec_spromise ..) idle known (by simp only [named, ended, if_true])

variable (running : t.terminal = false)
include running

theorem spromise_future (future : s.meridian s.me.loc.mod < (s.x o.ext.c).toNat) :
    s.completes (.spromise h o) h (s.updSat t.sid fun t => { t with promise := some (s.x o.ext.c).toNat, missed := false }) :=
  withToken_completes (exec_spromise ..) idle known
    (by simp only [named, running, Bool.false_eq_true, if_false]; exact congrArg Res.ok (if_neg (Nat.not_le.mpr future)))

/-- A promise whose time has come is missed as it is made. -/
theorem spromise_past (past : (s.x o.ext.c).toNat ≤ s.meridian s.me.loc.mod) :
    s.completes (.spromise h o) h
      ((s.updSat t.sid fun t => { t with promise := some (s.x o.ext.c).toNat, missed := false }).missPromise t.sid) :=
  withToken_completes (exec_spromise ..) idle known
    (by simp only [named, running, Bool.false_eq_true, if_false]; exact congrArg Res.ok (if_pos past))

end

/-! ### Waits without a token (R294, R295) -/

section
variable {s : State} {h : Hdr}

theorem swaitall_handler (handler : s.me.isHandler = true) : s.traps (.swaitall h) 0x1E 0 0 :=
  State.traps_of_issue (exec_swaitall ..) rfl (if_pos handler)

theorem swaitall_terminal (thread : s.me.isHandler = false) (ended : s.allTerminal s.me.uid = true) :
    let u := ((s.ownSats s.me.uid).filter fun t => t.status != 3).foldl (fun s t => s.reap t.sid) s
    s.completes (.swaitall h) h (u.upd fun a => { a with carried := mapIf (fun c => c.status != 3) (fun c => { c with status := 4 }) a.carried }) :=
  State.completes_of_issue (exec_swaitall ..) rfl ((if_neg (ne_true_of_eq_false thread)).trans (if_pos ended))

theorem swaitall_running (thread : s.me.isHandler = false) (running : s.allTerminal s.me.uid = false) :
    exec (.swaitall h) s = .next (s.upd fun a => { a with life := .parked .swaitall }) :=
  State.parks_of_issue (exec_swaitall ..) rfl ((if_neg (ne_true_of_eq_false thread)).trans (if_neg (ne_true_of_eq_false running)))

variable {o : XB} (idle : s.notPending [o.b] [])
include idle

theorem sleepu_handler (handler : s.me.isHandler = true) : s.traps (.sleepu h o) 0x1E 0 0 :=
  State.traps_of_issue (exec_sleepu ..) (idle.hazard rfl rfl) (if_pos handler)

theorem sleepu_past (thread : s.me.isHandler = false) (past : (s.x o.b).toNat ≤ s.meridian s.me.loc.mod) : s.completes (.sleepu h o) h s :=
  State.completes_of_issue (exec_sleepu ..) (idle.hazard rfl rfl) ((if_neg (ne_true_of_eq_false thread)).trans (if_pos past))

theorem sleepu_future (thread : s.me.isHandler = false) (future : s.meridian s.me.loc.mod < (s.x o.b).toNat) :
    exec (.sleepu h o) s = .next (s.upd fun a => { a with life := .parked (.sleepu (s.x o.b).toNat) }) :=
  State.parks_of_issue (exec_sleepu ..) (idle.hazard rfl rfl) ((if_neg (ne_true_of_eq_false thread)).trans (if_neg (Nat.not_le.mpr future)))

end

/-! ### `sattr` (R267, R297) -/

/-- Bits [63:33] of a word are clear just where it is below `2 ^ 33`. -/
theorem bits_33_31_eq_zero_iff (v : Word) : bits v.toNat 33 31 = 0 ↔ v.toNat < 2 ^ 33 := by
  have wide := v.isLt
  unfold bits
  omega

section
variable {s : State} {h : Hdr} {o : LI}

theorem sattr_completes (small : o.i.word.toNat < 2 ^ 33) : s.completes (.sattr h o) h (s.upd fun a => { a with sattr := o.i.word }) :=
  State.completes_of_issue (exec_sattr ..) rfl (if_neg (by rw [(bits_33_31_eq_zero_iff _).mpr small]; decide))

theorem sattr_traps (large : 2 ^ 33 ≤ o.i.word.toNat) : s.traps (.sattr h o) 0x01 0 0 :=
  State.traps_of_issue (exec_sattr ..) rfl (if_pos (bne_iff_ne.mpr fun zero => Nat.not_lt.mpr large ((bits_33_31_eq_zero_iff _).mp zero)))

end

end Sys2Proof.Machine

namespace Sys2Proof
open Machine

/-- Settles O46: each instruction by what its token names, by whether the satellite has ended, and by who owns it. -/
theorem tokenInstructions : Obligations.TokenInstructions := by
  refine ⟨fun s h o b p q => ?tokens, fun s h b i => ?others⟩
  case tokens =>
    refine ⟨?live, ?stale, ?foreign, fun idle => swait_handler idle, ?owner, fun idle known t named => sprio_live idle known named,
      fun idle known t named => sfault_live idle known named, ?promise⟩
    case live =>
      intro idle known t named
      exact ⟨stest_live idle known named, fun thread ended => swait_terminal idle thread known named ended,
        fun thread running => swait_running idle thread known named running, scancel_terminal idle known named, scancel_running idle known named⟩
    case stale =>
      intro idle known named
      exact ⟨stest_stale idle known named, scancel_stale idle known named, fun thread => swait_stale idle thread known named⟩
    case foreign =>
      intro idle foreign
      exact ⟨withToken_foreign (exec_stest ..) idle foreign, withToken_foreign (exec_scancel ..) idle foreign,
        fun thread => swait_foreign idle thread foreign⟩
    case owner =>
      intro idle known t named
      exact ⟨fun free => ⟨sdetach_detached idle known named free, sadopt_detached idle known named free⟩,
        fun own => ⟨sadopt_own idle known named own, sdetach_own idle known named own⟩,
        fun ⟨_, owned, other⟩ => ⟨sdetach_other idle known named owned other, sadopt_other idle known named owned other⟩⟩
    case promise =>
      intro idle known t named u
      exact ⟨spromise_terminal idle known named, spromise_future idle known named, spromise_past idle known named⟩
  case others =>
    exact ⟨fun handler => ⟨swaitall_handler handler, fun idle => sleepu_handler idle handler⟩, swaitall_terminal, swaitall_running,
      fun idle thread => ⟨sleepu_past idle thread, sleepu_future idle thread⟩, sattr_completes, sattr_traps⟩

end Sys2Proof
end

section
/-! Fields of a wide value, and the fields of a key (spec/11 R299): what a field reads after a field was written. -/

namespace Sys2Proof.Machine

/-! ### Fields of a wide value -/

theorem testBit_getField {w : Nat} (d : BitVec w) (lo n i : Nat) : (getField d lo n).testBit i = (decide (i < n) && d.getLsbD (lo + i)) := by
  rw [getField, Nat.testBit_mod_two_pow, Nat.testBit_div_two_pow, BitVec.testBit_toNat, Nat.add_comm]

/-- A bit of a value after a field of it was replaced. -/
theorem getLsbD_setField {w : Nat} (d : BitVec w) (lo n v i : Nat) :
    (setField d lo n v).getLsbD i = if lo ≤ i ∧ i < lo + n then decide (i < w) && v.testBit (i - lo) else d.getLsbD i := by
  have mask : (BitVec.ofNat w ((2 ^ n - 1) * 2 ^ lo)).getLsbD i = (decide (i < w) && decide (lo ≤ i ∧ i < lo + n)) := by
    rw [BitVec.getLsbD_ofNat, Nat.testBit_mul_two_pow, Nat.testBit_two_pow_sub_one, ← Bool.decide_and]
    congr 2
    exact propext ⟨fun ⟨h, g⟩ => ⟨h, by omega⟩, fun ⟨h, g⟩ => ⟨h, by omega⟩⟩
  have value : (BitVec.ofNat w (v * 2 ^ lo)).getLsbD i = (decide (i < w) && (decide (lo ≤ i) && v.testBit (i - lo))) := by
    rw [BitVec.getLsbD_ofNat, Nat.testBit_mul_two_pow]
  simp only [setField, BitVec.getLsbD_or, BitVec.getLsbD_and, BitVec.getLsbD_not, mask, value]
  by_cases inside : lo ≤ i ∧ i < lo + n
  · by_cases wide : i < w <;> simp [inside, wide]
  · by_cases wide : i < w
    · simp [inside, wide]
    · simp [inside, wide, BitVec.getLsbD_of_ge d i (Nat.not_lt.mp wide)]

/-- A field just written holds the low bits of its value. -/
@[simp] theorem getField_setField_same {w : Nat} (d : BitVec w) {lo n : Nat} (v : Nat) (fits : lo + n ≤ w) :
    getField (setField d lo n v) lo n = v % 2 ^ n := by
  refine Nat.eq_of_testBit_eq fun i => ?_
  rw [testBit_getField, getLsbD_setField, Nat.testBit_mod_two_pow]
  by_cases inside : i < n
  · have wide : lo + i < w := by omega
    simp [inside, wide]
  · simp [inside]

/-- A field reads as before where it has no bit in common with the one written. -/
@[simp] theorem getField_setField_other {w : Nat} (d : BitVec w) {lo n lo' n' : Nat} (v : Nat) (apart : lo + n ≤ lo' ∨ lo' + n' ≤ lo) :
    getField (setField d lo n v) lo' n' = getField d lo' n' := by
  refine Nat.eq_of_testBit_eq fun i => ?_
  rw [testBit_getField, testBit_getField, getLsbD_setField]
  by_cases inside : i < n'
  · rw [if_neg (by omega)]
  · simp [inside]

theorem getField_lt {w : Nat} (d : BitVec w) (lo n : Nat) : getField d lo n < 2 ^ n := Nat.mod_lt _ (Nat.two_pow_pos n)

/-! ### The tag of a key (spec/18 R436) -/

/-- The low bytes of a number are those of its residue. -/
theorem natBytes_mod : ∀ n v, natBytes n (v % 256 ^ n) = natBytes n v
  | 0, _ => rfl
  | n + 1, v => by
    have low : BitVec.ofNat 8 (v % 256 ^ (n + 1)) = BitVec.ofNat 8 v := by
      apply BitVec.eq_of_toNat_eq
      rw [BitVec.toNat_ofNat, BitVec.toNat_ofNat, Nat.pow_succ']
      exact Nat.mod_mod_of_dvd v (Nat.dvd_mul_right 256 _)
    have rest : v % 256 ^ (n + 1) / 256 = v / 256 % 256 ^ n := by rw [Nat.pow_succ', Nat.mod_mul_right_div_self]
    rw [natBytes, natBytes, low, rest, natBytes_mod n]

/-- The tag depends on doublewords 0 to 2 of a key alone. -/
theorem tagOf_eq_of_getField {secret : BitVec 128} {k q : Key} (same : getField k 0 192 = getField q 0 192) : tagOf secret k = tagOf secret q := by
  have low (k : Key) : numBytes 24 k.toNat = numBytes 24 (getField k 0 192) := by
    rw [numBytes, numBytes, getField, Nat.pow_zero, Nat.div_one, show (2 ^ 192 : Nat) = 256 ^ 24 from by decide, natBytes_mod]
  rw [tagOf, tagOf, low k, low q, same]

/-- A signed key carries the tag of its own doublewords (spec/11 R300). -/
theorem kTag_signed (s : State) (k : Key) : kTag (s.signed k) = tagOf s.secret.cur (s.signed k) % 2 ^ 64 := by
  have same : tagOf s.secret.cur (s.signed k) = tagOf s.secret.cur k := tagOf_eq_of_getField (getField_setField_other k _ (.inr (by decide)))
  rw [same]
  exact getField_setField_same k _ (by decide)

/-- Signing a key changes no field below its tag. -/
@[simp] theorem getField_signed (s : State) (k : Key) {lo n : Nat} (below : lo + n ≤ 192) : getField (s.signed k) lo n = getField k lo n :=
  getField_setField_other k _ (.inr below)

end Sys2Proof.Machine
end

section
/-! The checks of a scalar access that passes (spec/06 R169), and of `kld`, `kst` and `kmov` (spec/11 R306, R307). -/

namespace Sys2Proof.Machine

/-- Where no debug entry watches data, an access goes on (spec/19 R446). -/
theorem State.watched_unwatched {s : State} (free : s.unwatched) (addr : Word) (n : Nat) (rd wr : Bool) (k : State → Res) :
    s.watched addr n rd wr k = k s := by
  have none : (s.debugFor s.me).filter (fun e => e.ty == 2 && ((rd && e.rd) || (wr && e.wr)) && e.hits addr.toNat n) = [] := by
    refine List.filter_eq_nil_iff.mpr fun e he => ?_
    have other : e.ty ≠ 2 := by simpa using List.all_eq_true.mp free e he
    simp [other]
  unfold State.watched
  rw [none]
  rfl

/-- An access that passes its checks is made in the state after the walk. -/
theorem State.accessAt_reaches {s t : State} {addr : Word} {n : Nat} {acc : Acc} {pa : Nat} {v : Via} (h : s.reaches addr n acc pa v t) (rd wr : Bool)
    (k : Nat → Via → State → Res) : s.accessAt addr n acc rd wr k = k pa v t := by
  obtain ⟨aligned, translated, free⟩ := h
  simp only [State.accessAt, aligned, translated, bne_self_eq_false, Bool.false_eq_true, if_false, State.watched_unwatched free]

theorem State.reaches.me {s t : State} {addr : Word} {n : Nat} {acc : Acc} {pa : Nat} {v : Via} (h : s.reaches addr n acc pa v t) : t.me = s.me := by
  obtain ⟨-, translated, -⟩ := h
  simpa only [translated] using s.translate_me s.mySpace addr.toNat acc

/-- A read of data that is not poisoned gives its bytes. -/
theorem State.loadTo_good {s : State} {v : Via} {pa : Nat} (good : s.readBad v pa = false) (n : Nat) (bad : State → State) (k : Nat → State → State) :
    s.loadTo v pa n bad k = k (bytesNat (s.readLine v pa n).1) (s.readLine v pa n).2 := by
  simp only [State.loadTo, good, Bool.false_eq_true, if_false]

section
variable {s t : State} {h : Hdr} {o : ADR} {pa : Nat} {v : Via} (idle : s.notPending (ADR.regs o) [keyReg o.a])
include idle

theorem kld_completes (reaches : s.reaches (s.addr o) 32 .read pa v t) (good : t.readBad v pa = false) :
    let r := t.readLine v pa 32
    s.completes (.kld h o) h (r.2.postK (keyReg o.a) (Inflight.known (BitVec.ofNat 256 (bytesNat r.1)))) :=
  State.completes_of_issue (show exec (.kld h o) s = execKld h o s from rfl) (idle.hazard (List.append_nil _) rfl)
    ((State.accessAt_reaches reaches ..).trans (congrArg Res.ok (State.loadTo_good good ..)))

theorem kst_completes (reaches : s.reaches (s.addr o) 32 .write pa v t) :
    s.completes (.kst h o) h (t.writeLine v (t.storeTag (s.addr o)) pa (natBytes 32 (s.k (keyReg o.a)).toNat)) := by
  refine State.completes_of_issue (show exec (.kst h o) s = execKst h o s from rfl) (idle.hazard (List.append_nil _) rfl)
    ((State.accessAt_reaches reaches ..).trans ?_)
  have key : t.k (keyReg o.a) = s.k (keyReg o.a) := by rw [State.k, reaches.me]; rfl
  rw [key]

end

theorem kmov_completes {s : State} {h : Hdr} {o : KK} (idle : s.notPending [] [o.b, o.a]) : s.completes (.kmov h o) h (s.setK o.a (s.k o.b)) :=
  State.completes_of_issue (show exec (.kmov h o) s = execKmov h o s from rfl) (idle.hazard rfl rfl) rfl

end Sys2Proof.Machine
end

section
/-! The derivations of keys (spec/11 R308, R309). -/

namespace Sys2Proof.Machine

/-- A key from which the agent whose turn it is may derive another. -/
abbrev State.mayDerive (s : State) (k : Key) : Prop := s.tagOk k = true ∧ kHolder k = s.myHolder ∧ kKind k ≤ 5

/-- A key with these fields, the other fields of `k` and the tag of its own doublewords. -/
def State.derived (s : State) (k q : Key) (base len rights holder egr paths stride : Nat) : Prop :=
  kBase q = base ∧ kLen q = len ∧ kRights q = rights ∧ kHolder q = holder ∧ kEgr q = egr ∧ kPaths q = paths ∧ kStride q = stride ∧
    kVout q = kVout k ∧ kDie q = kDie k ∧ kUnit q = kUnit k ∧ kKind q = kKind k ∧ kGen q = kGen k ∧ kTag q = tagOf s.secret.cur q % 2 ^ 64

/-! ### The common checks -/

section
variable {s : State} {i : Instr} {f : State → Key → Word → Except Nat Key} {more : List Reg} {h : Hdr} {o : KKX} (issues : exec i s = derive f more h o s)
  (idle : s.notPending (o.ext.c :: more) [o.b, o.a])
include issues idle

theorem derive_bad_tag (bad : s.tagOk (s.k o.b) = false) : s.traps i 0x07 0 0 :=
  State.traps_of_issue issues (idle.hazard (List.append_nil _) rfl) (by simp only [bad, Bool.not_false, if_true])

theorem derive_foreign (tag : s.tagOk (s.k o.b) = true) (other : kHolder (s.k o.b) ≠ s.myHolder) : s.traps i 0x0A 0 0 :=
  State.traps_of_issue issues (idle.hazard (List.append_nil _) rfl)
    (by simp only [tag, Bool.not_true, Bool.false_eq_true, if_false, bne_iff_ne.mpr other, if_true])

theorem derive_bad_kind (tag : s.tagOk (s.k o.b) = true) (own : kHolder (s.k o.b) = s.myHolder) (kind : 5 < kKind (s.k o.b)) : s.traps i 0x09 0 0 :=
  State.traps_of_issue issues (idle.hazard (List.append_nil _) rfl)
    (by simp only [tag, own, bne_self_eq_false, Bool.not_true, Bool.false_eq_true, if_false, kind, if_true])

variable (may : s.mayDerive (s.k o.b))
include may

theorem derive_refuses {c : Nat} (refused : f s (s.k o.b) (s.x o.ext.c) = .error c) : s.traps i c 0 0 := by
  obtain ⟨tag, own, kind⟩ := may
  exact State.traps_of_issue issues (idle.hazard (List.append_nil _) rfl)
    (by simp only [tag, own, bne_self_eq_false, Bool.not_true, Bool.false_eq_true, if_false, Nat.not_lt.mpr kind, refused])

theorem derive_completes {q : Key} (made : f s (s.k o.b) (s.x o.ext.c) = .ok q) : s.completes i h (s.setK o.a (s.signed q)) := by
  obtain ⟨tag, own, kind⟩ := may
  exact State.completes_of_issue issues (idle.hazard (List.append_nil _) rfl)
    (by simp only [tag, own, bne_self_eq_false, Bool.not_true, Bool.false_eq_true, if_false, Nat.not_lt.mpr kind, made])

end

/-! ### What each derivation makes of its key -/

/-- Where the fields of a key stand (spec/11 R299). -/
theorem key_fields : (∀ k, kBase k = getField k 64 64) ∧ (∀ k, kLen k = getField k 128 40) ∧ (∀ k, kRights k = getField k 168 8) ∧
    (∀ k, kHolder k = getField k 176 16) ∧ (∀ k, kEgr k = getField k 0 8) ∧ (∀ k, kPaths k = getField k 8 8) ∧ (∀ k, kStride k = getField k 16 8) ∧
    (∀ k, kVout k = getField k 24 10) ∧ (∀ k, kDie k = getField k 36 4) ∧ (∀ k, kUnit k = getField k 40 8) ∧ (∀ k, kKind k = getField k 48 4) ∧
    ∀ k, kGen k = getField k 52 12 :=
  ⟨fun _ => rfl, fun _ => rfl, fun _ => rfl, fun _ => rfl, fun _ => rfl, fun _ => rfl, fun _ => rfl, fun _ => rfl, fun _ => rfl, fun _ => rfl, fun _ => rfl,
    fun _ => rfl⟩

/-- Rights masked are still the eight bits of a field. -/
theorem kRights_and_mod (k : Key) (m : Nat) : (kRights k &&& m) % 2 ^ 8 = kRights k &&& m :=
  Nat.mod_eq_of_lt (Nat.lt_of_le_of_lt Nat.and_le_left (getField_lt ..))

section
variable (s : State) (k : Key)

theorem State.derived_narrow (base : Nat) {len : Nat} (fits : len ≤ kLen k) :
    s.derived k (s.signed (setField (setField k 64 64 (base % 2 ^ 64)) 128 40 len)) (base % 2 ^ 64) len (kRights k) (kHolder k) (kEgr k) (kPaths k)
      (kStride k) := by
  have small : len % 2 ^ 40 = len := Nat.mod_eq_of_lt (Nat.lt_of_le_of_lt fits (getField_lt ..))
  simp only [State.derived, kTag_signed, key_fields]
  simp [-Nat.reducePow, small]

theorem State.derived_rights (m : Nat) :
    s.derived k (s.signed (setField k 168 8 (kRights k &&& m))) (kBase k) (kLen k) (kRights k &&& m) (kHolder k) (kEgr k) (kPaths k) (kStride k) := by
  have small := kRights_and_mod k m
  simp only [State.derived, kTag_signed, key_fields] at *
  simp [-Nat.reducePow, small]

theorem State.derived_give (holder : Nat) (keep : Bool) :
    let rights := if keep then kRights k else kRights k &&& 0xDF
    s.derived k (s.signed (setField (setField k 176 16 (holder % 2 ^ 16)) 168 8 rights)) (kBase k) (kLen k) rights (holder % 2 ^ 16) (kEgr k) (kPaths k)
      (kStride k) := by
  intro rights
  have small : rights % 2 ^ 8 = rights := by
    cases keep
    · exact kRights_and_mod k 0xDF
    · exact Nat.mod_eq_of_lt (getField_lt ..)
  simp only [State.derived, kTag_signed, key_fields]
  simp [-Nat.reducePow, small]

theorem State.derived_paths (egr stride : Nat) {paths : Nat} (few : paths < 2 ^ 8) :
    s.derived k (s.signed (setField (setField (setField k 0 8 (egr % 144)) 8 8 paths) 16 8 (stride % 144))) (kBase k) (kLen k) (kRights k) (kHolder k)
      (egr % 144) paths (stride % 144) := by
  have port (n : Nat) : n % 144 % 2 ^ 8 = n % 144 := Nat.mod_eq_of_lt (Nat.lt_trans (Nat.mod_lt n (by decide)) (by decide))
  simp only [State.derived, kTag_signed, key_fields]
  simp [-Nat.reducePow, port, Nat.mod_eq_of_lt few]

end

/-! ### The instructions -/

/-- The key that `knarrow` makes of a key and its operands, before its tag, or its cause. -/
def narrowKey (c : Reg) (s : State) (k : Key) (v : Word) : Except Nat Key :=
  if kLen k < v.toNat + (s.x (c + 1)).toNat then .error 0x08
  else .ok (setField (setField k 64 64 ((kBase k + v.toNat) % 2 ^ 64)) 128 40 (s.x (c + 1)).toNat)

/-- The key that `krights` makes of a key and its operand, before its tag, or its cause. -/
def rightsKey (_ : State) (k : Key) (v : Word) : Except Nat Key :=
  if 256 ≤ v.toNat then .error 0x01 else .ok (setField k 168 8 (kRights k &&& v.toNat))

/-- The key that `kgive` makes of a key and its operand, before its tag, or its cause. -/
def giveKey (_ : State) (k : Key) (v : Word) : Except Nat Key :=
  let d := v.toNat
  if !kHas k 5 then .error 0x09
  else if bits d 0 16 = 0xFFFF || 2 ^ 17 ≤ d then .error 0x01
  else .ok (setField (setField k 176 16 (bits d 0 16)) 168 8 (if bit d 16 then kRights k else kRights k &&& 0xDF))

/-- The key that `kpaths` makes of a key and its operand, before its tag, or its cause. -/
def pathsKey (_ : State) (k : Key) (v : Word) : Except Nat Key :=
  let d := v.toNat
  let f := bits d 0 8
  let c := bits d 8 8
  let m := bits d 16 8
  if kEgr k = 255 || c = 0 || m = 0 || decide (kPaths k ≤ f + (c - 1) * m) || decide (2 ^ 24 ≤ d) then .error 0x01
  else .ok (setField (setField (setField k 0 8 ((kEgr k + f * kStride k) % 144)) 8 8 c) 16 8 (m * kStride k % 144))

theorem exec_knarrow (h : Hdr) (o : KKX) (s : State) : exec (.knarrow h o) s = derive (narrowKey o.ext.c) [o.ext.c + 1] h o s := rfl
theorem exec_krights (h : Hdr) (o : KKX) (s : State) : exec (.krights h o) s = derive rightsKey [] h o s := rfl
theorem exec_kgive (h : Hdr) (o : KKX) (s : State) : exec (.kgive h o) s = derive giveKey [] h o s := rfl
theorem exec_kpaths (h : Hdr) (o : KKX) (s : State) : exec (.kpaths h o) s = derive pathsKey [] h o s := rfl

/-- The low field of a number. -/
theorem bits_zero (v n : Nat) : bits v 0 n = v % 2 ^ n := by rw [bits, Nat.pow_zero, Nat.div_one]

section
variable {s : State} {h : Hdr} {o : KKX} (may : s.mayDerive (s.k o.b))
include may

section
variable (idle : s.notPending [o.ext.c, o.ext.c + 1] [o.b, o.a])
include idle

theorem knarrow_completes (fits : (s.x o.ext.c).toNat + (s.x (o.ext.c + 1)).toNat ≤ kLen (s.k o.b)) :
    ∃ q, s.completes (.knarrow h o) h (s.setK o.a q) ∧
      s.derived (s.k o.b) q ((kBase (s.k o.b) + (s.x o.ext.c).toNat) % 2 ^ 64) (s.x (o.ext.c + 1)).toNat (kRights (s.k o.b)) (kHolder (s.k o.b))
        (kEgr (s.k o.b)) (kPaths (s.k o.b)) (kStride (s.k o.b)) :=
  ⟨_, derive_completes (exec_knarrow ..) idle may (if_neg (Nat.not_lt.mpr fits)), s.derived_narrow _ _ (Nat.le_trans (Nat.le_add_left ..) fits)⟩

theorem knarrow_too_long (long : kLen (s.k o.b) < (s.x o.ext.c).toNat + (s.x (o.ext.c + 1)).toNat) : s.traps (.knarrow h o) 0x08 0 0 :=
  derive_refuses (exec_knarrow ..) idle may (if_pos long)

end

variable (idle : s.notPending [o.ext.c] [o.b, o.a])
include idle

theorem krights_completes (small : (s.x o.ext.c).toNat < 256) :
    ∃ q, s.completes (.krights h o) h (s.setK o.a q) ∧
      s.derived (s.k o.b) q (kBase (s.k o.b)) (kLen (s.k o.b)) (kRights (s.k o.b) &&& (s.x o.ext.c).toNat) (kHolder (s.k o.b)) (kEgr (s.k o.b))
        (kPaths (s.k o.b)) (kStride (s.k o.b)) :=
  ⟨_, derive_completes (exec_krights ..) idle may (if_neg (Nat.not_le.mpr small)), s.derived_rights ..⟩

theorem krights_bad_operand (large : 256 ≤ (s.x o.ext.c).toNat) : s.traps (.krights h o) 0x01 0 0 :=
  derive_refuses (exec_krights ..) idle may (if_pos large)

theorem kgive_no_right (without : kHas (s.k o.b) 5 = false) : s.traps (.kgive h o) 0x09 0 0 :=
  derive_refuses (exec_kgive ..) idle may (if_pos (by rw [without]; rfl))

section
variable (delegate : kHas (s.k o.b) 5 = true)
include delegate

theorem kgive_completes (region : (s.x o.ext.c).toNat % 2 ^ 16 ≠ 0xFFFF) (small : (s.x o.ext.c).toNat < 2 ^ 17) :
    ∃ q, s.completes (.kgive h o) h (s.setK o.a q) ∧
      s.derived (s.k o.b) q (kBase (s.k o.b)) (kLen (s.k o.b))
        (if (s.x o.ext.c).toNat.testBit 16 then kRights (s.k o.b) else kRights (s.k o.b) &&& 0xDF) ((s.x o.ext.c).toNat % 2 ^ 16) (kEgr (s.k o.b))
        (kPaths (s.k o.b)) (kStride (s.k o.b)) := by
  refine ⟨_, derive_completes (exec_kgive ..) idle may ?_, s.derived_give (s.k o.b) (s.x o.ext.c).toNat ((s.x o.ext.c).toNat.testBit 16)⟩
  simp only [giveKey, delegate, bits_zero, region, Nat.not_le.mpr small, decide_false, Bool.or_self, Bool.not_true, Bool.false_eq_true, if_false]
  rfl

theorem kgive_bad_operand (bad : (s.x o.ext.c).toNat % 2 ^ 16 = 0xFFFF ∨ 2 ^ 17 ≤ (s.x o.ext.c).toNat) : s.traps (.kgive h o) 0x01 0 0 := by
  refine derive_refuses (exec_kgive ..) idle may ?_
  simp only [giveKey, delegate, bits_zero, Bool.or_eq_true, decide_eq_true_eq, bad, Bool.not_true, Bool.false_eq_true, if_false, if_true]

end

section
variable {f c m : Nat} (hf : (s.x o.ext.c).toNat % 256 = f) (hc : (s.x o.ext.c).toNat / 256 % 256 = c) (hm : (s.x o.ext.c).toNat / 65536 % 256 = m)
include hf hc hm

theorem kpaths_completes (remote : kEgr (s.k o.b) ≠ 255) (hc0 : c ≠ 0) (hm0 : m ≠ 0) (fits : f + (c - 1) * m < kPaths (s.k o.b))
    (small : (s.x o.ext.c).toNat < 2 ^ 24) :
    ∃ q, s.completes (.kpaths h o) h (s.setK o.a q) ∧
      s.derived (s.k o.b) q (kBase (s.k o.b)) (kLen (s.k o.b)) (kRights (s.k o.b)) (kHolder (s.k o.b))
        ((kEgr (s.k o.b) + f * kStride (s.k o.b)) % 144) c (m * kStride (s.k o.b) % 144) := by
  have few : c < 2 ^ 8 := hc ▸ Nat.mod_lt _ (by decide)
  refine ⟨_, derive_completes (exec_kpaths ..) idle may ?_, s.derived_paths (s.k o.b) (kEgr (s.k o.b) + f * kStride (s.k o.b)) (m * kStride (s.k o.b)) few⟩
  have low : ¬ 16777216 ≤ (s.x o.ext.c).toNat := Nat.not_le.mpr small
  simp only [pathsKey, bits, Nat.reducePow, Nat.div_one, hf, hc, hm, remote, hc0, hm0, Nat.not_le.mpr fits, low, decide_false, Bool.or_self,
    Bool.false_eq_true, if_false]

theorem kpaths_bad_operand
    (bad : kEgr (s.k o.b) = 255 ∨ c = 0 ∨ m = 0 ∨ kPaths (s.k o.b) ≤ f + (c - 1) * m ∨ 2 ^ 24 ≤ (s.x o.ext.c).toNat) : s.traps (.kpaths h o) 0x01 0 0 := by
  refine derive_refuses (exec_kpaths ..) idle may ?_
  simp only [pathsKey, bits, Nat.reducePow, Nat.div_one, hf, hc, hm, Bool.or_eq_true, decide_eq_true_eq, or_assoc]
  exact if_pos bad

end
end

end Sys2Proof.Machine

namespace Sys2Proof
open Machine

/-- Settles O48: the accesses by `accessAt_reaches`, each derivation by the common checks of `derive` and by what it makes of the key. -/
theorem keyInstructions : Obligations.KeyInstructions := by
  refine ⟨fun s t h o pa v => ⟨kld_completes, kst_completes⟩, fun s h o => kmov_completes, fun s h o => ⟨?tag, ?holder, ?kind, ?sound⟩⟩
  case tag =>
    exact fun bad => ⟨fun two => derive_bad_tag (exec_knarrow ..) two bad,
      fun one => ⟨derive_bad_tag (exec_krights ..) one bad, derive_bad_tag (exec_kgive ..) one bad, derive_bad_tag (exec_kpaths ..) one bad⟩⟩
  case holder =>
    exact fun tag other => ⟨fun two => derive_foreign (exec_knarrow ..) two tag other,
      fun one => ⟨derive_foreign (exec_krights ..) one tag other, derive_foreign (exec_kgive ..) one tag other, derive_foreign (exec_kpaths ..) one tag other⟩⟩
  case kind =>
    exact fun tag own kind => ⟨fun two => derive_bad_kind (exec_knarrow ..) two tag own kind,
      fun one => ⟨derive_bad_kind (exec_krights ..) one tag own kind, derive_bad_kind (exec_kgive ..) one tag own kind,
        derive_bad_kind (exec_kpaths ..) one tag own kind⟩⟩
  case sound =>
    intro tag own kind
    have may : s.mayDerive (s.k o.b) := ⟨tag, own, kind⟩
    exact ⟨knarrow_completes may, knarrow_too_long may, krights_completes may, krights_bad_operand may, kgive_no_right may, kgive_completes may,
      kgive_bad_operand may, fun one => ⟨kpaths_completes may one rfl rfl rfl, kpaths_bad_operand may one rfl rfl rfl⟩⟩

end Sys2Proof
end

section
/-! What the injection of requests changes (spec/18 R434, R441): the window of injected bytes, the requests and the packets under way, and nothing else. -/

namespace Sys2Proof.Machine

/-- Nothing differs but what was injected, the requests and the packets under way. -/
def State.sameButInjection (s t : State) : Prop := ∃ i r f, t = { s with inject := i, reqs := r, flights := f }

theorem State.sameButInjection.refl (s : State) : s.sameButInjection s := ⟨_, _, _, rfl⟩

theorem State.sameButInjection.trans {s t u : State} : s.sameButInjection t → t.sameButInjection u → s.sameButInjection u := by
  rintro ⟨_, _, _, rfl⟩ ⟨_, _, _, rfl⟩
  exact ⟨_, _, _, rfl⟩

theorem State.injected_frame (s : State) (mod port rid size : Nat) : s.sameButInjection (s.injected mod port rid size) := by
  unfold State.injected
  split <;> exact ⟨_, _, _, rfl⟩

theorem State.trySend_frame (s : State) (q : Request) : s.sameButInjection (s.trySend q) := by
  unfold State.trySend
  dsimp only
  split
  · exact .refl s
  · split
    · exact .refl s
    · split
      · exact .refl s
      · exact (s.injected_frame ..).trans ⟨_, _, _, rfl⟩

theorem State.pumpAll_frame : ∀ (l held : List Request) (s : State), s.sameButInjection (State.pumpAll l held s)
  | [], _, s => .refl s
  | q :: t, held, s => by
    unfold State.pumpAll
    split
    · exact State.pumpAll_frame t held s
    · exact (s.trySend_frame q).trans (State.pumpAll_frame t _ _)

theorem State.pump_frame (s : State) : s.sameButInjection s.pump := State.pumpAll_frame ..

/-- A new request takes the next number, and changes nothing else that its injection does not. -/
theorem State.request_frame (s : State) (loc : Loc) (rid : Nat) (pkt : Packet) (use : ReqUse) :
    { s with nextReq := s.nextReq + 1 }.sameButInjection (s.request loc rid pkt use) := by
  unfold State.request State.unkept
  dsimp only
  split <;> exact .trans ⟨_, _, _, rfl⟩ (State.pump_frame _)

end Sys2Proof.Machine
end

section
/-! The checks of a remote access at its source (spec/11 R312). -/

namespace Sys2Proof.Machine

/-! ### The key -/

/-- A key that a remote access of its right may use on a module (R301, R311): routed there, of kind 0, with the right. -/
abbrev keyServes (k : Key) (mod right : Nat) : Prop := kRouted k mod = true ∧ kKind k = 0 ∧ kHas k right = true

theorem keyUsable_kind0 {k : Key} {mod right : Nat} : keyUsable k mod right [0] = true ↔ keyServes k mod right := by
  simp [keyUsable, and_assoc]

theorem keyUsable_vector {k : Key} {mod right : Nat} : keyUsable k mod right [0, 1] = true ↔ kRouted k mod = true ∧ kKind k ≤ 1 ∧ kHas k right = true := by
  have kinds : kKind k = 0 ∨ kKind k = 1 ↔ kKind k ≤ 1 := by omega
  simp [keyUsable, and_assoc, kinds]

/-- Some check of a key for an access fails just where the key does not serve it. -/
theorem not_keyServes {k : Key} {mod right : Nat} : ¬ keyServes k mod right ↔ kRouted k mod = false ∨ kKind k ≠ 0 ∨ kHas k right = false := by
  rw [Decidable.not_and_iff_not_or_not, Decidable.not_and_iff_not_or_not, Bool.not_eq_true, Bool.not_eq_true]

/-- A trap of an instruction whose body fails with an address. -/
theorem State.traps_of_issue_at {s : State} {i : Instr} {h : Hdr} {n : Needs} {body : State → Res} (issues : exec i s = s.issue h n body)
    (hz : s.me.hazard n = none) {cause : Nat} {addr : Word} (fails : body s = s.failAt cause addr) : s.traps i cause addr 0 :=
  issues.trans (State.issue_trap hz fails)

section
variable {s : State} {k : Key} {right n : Nat} {c : Word} (rd wr : Bool) (go : State → Res)

theorem State.remoteAt_wrong (wrong : ¬ keyServes k s.me.loc.mod right) : s.remoteAt k right c.toNat n rd wr go = s.failAt 0x09 c := by
  rw [State.remoteAt, Bool.eq_false_iff.mpr (mt keyUsable_kind0.mp wrong), BitVec.ofNat_toNat, BitVec.setWidth_eq]
  rfl

variable (serves : keyServes k s.me.loc.mod right)
include serves

theorem State.remoteAt_short (short : kLen k < c.toNat + n) : s.remoteAt k right c.toNat n rd wr go = s.failAt 0x08 c := by
  simp only [State.remoteAt, keyUsable_kind0.mpr serves, short, BitVec.ofNat_toNat, BitVec.setWidth_eq, Bool.not_true, Bool.false_eq_true, if_false, if_true]

variable (fits : c.toNat + n ≤ kLen k)
include fits

theorem State.remoteAt_misaligned (odd : (kBase k + c.toNat) % n ≠ 0) : s.remoteAt k right c.toNat n rd wr go = s.failAt 0x04 c := by
  simp only [State.remoteAt, keyUsable_kind0.mpr serves, Nat.not_lt.mpr fits, bne_iff_ne.mpr odd, BitVec.ofNat_toNat, BitVec.setWidth_eq, Bool.not_true,
    Bool.false_eq_true, if_false, if_true]

theorem State.remoteAt_passes (aligned : (kBase k + c.toNat) % n = 0) (free : s.unwatched) : s.remoteAt k right c.toNat n rd wr go = go s := by
  simp only [State.remoteAt, keyUsable_kind0.mpr serves, Nat.not_lt.mpr fits, aligned, bne_self_eq_false, Bool.not_true, Bool.false_eq_true, if_false,
    State.watched_unwatched free]

end

/-- An access of `n` bytes at an offset that passes its checks. -/
abbrev State.remoteReaches (s : State) (k : Key) (right : Nat) (c : Word) (n : Nat) : Prop :=
  kRouted k s.me.loc.mod = true ∧ kKind k = 0 ∧ kHas k right = true ∧ c.toNat + n ≤ kLen k ∧ (kBase k + c.toNat) % n = 0 ∧ s.unwatched

theorem State.remoteAt_reaches {s : State} {k : Key} {right n : Nat} {c : Word} (h : s.remoteReaches k right c n) (rd wr : Bool) (go : State → Res) :
    s.remoteAt k right c.toNat n rd wr go = go s := by
  obtain ⟨routed, kind, has, fits, aligned, free⟩ := h
  exact State.remoteAt_passes rd wr go ⟨routed, kind, has⟩ fits aligned free

end Sys2Proof.Machine
end

section
/-! `rld` and `rst`, the remote atomics, `kinfo` and the remote vector accesses at issue (spec/11 R310, R313 to R316). -/

namespace Sys2Proof.Machine

/-! ### An instruction that makes one remote access -/

section
variable {s : State} {i : Instr} {h : Hdr} {needs : Needs} {body go : State → Res} {k : Key} {right n : Nat} {c : Word} {rd wr : Bool}
  (issues : exec i s = s.issue h needs body) (hz : s.me.hazard needs = none) (access : body s = s.remoteAt k right c.toNat n rd wr go)
include issues hz access

theorem remote_wrong (wrong : ¬ keyServes k s.me.loc.mod right) : s.traps i 0x09 c 0 :=
  State.traps_of_issue_at issues hz (access.trans (State.remoteAt_wrong rd wr go wrong))

theorem remote_short (serves : keyServes k s.me.loc.mod right) (short : kLen k < c.toNat + n) : s.traps i 0x08 c 0 :=
  State.traps_of_issue_at issues hz (access.trans (State.remoteAt_short rd wr go serves short))

theorem remote_misaligned (serves : keyServes k s.me.loc.mod right) (fits : c.toNat + n ≤ kLen k) (odd : (kBase k + c.toNat) % n ≠ 0) :
    s.traps i 0x04 c 0 :=
  State.traps_of_issue_at issues hz (access.trans (State.remoteAt_misaligned rd wr go serves fits odd))

theorem remote_completes {t : State} (reaches : s.remoteReaches k right c n) (done : go s = .ok t) : s.completes i h t :=
  State.completes_of_issue issues hz (access.trans ((State.remoteAt_reaches reaches ..).trans done))

theorem remote_traps {cause : Nat} (reaches : s.remoteReaches k right c n) (fails : go s = s.fail cause) : s.traps i cause 0 0 :=
  State.traps_of_issue issues hz (access.trans ((State.remoteAt_reaches reaches ..).trans fails))

end

/-! ### `rld` and `rst` (R313) -/

/-- What `rld` does once its access has passed: it takes what the die's cache holds for a valid key of its own with the cache right, and asks otherwise. -/
def rldGo (o : RMT) (k : Key) (off n : Nat) (s : State) : Res :=
  match (if kHas k 4 && s.tagOk k && kHolder k == s.myHolder then s.keyedHit s.me.loc k off n else none) with
  | some bs => .ok (s.postX o.a (Inflight.known ((scalarExtend o.ext.sel (bytesNat bs)).setWidth 256)))
  | none =>
    .ok ((s.myRequest k off 1 0 [] [s.x o.ext.c, BitVec.ofNat 64 n] (.result s.me.uid s.me.order (8 * n) (decide (o.ext.sel.toNat ≤ 2)))).postX o.a
      (Inflight.ofReq s.nextReq))

/-- What the body of `rld` gives. -/
def rldBody (o : RMT) (s : State) : Res :=
  s.remoteAt (s.k o.k) 0 (s.x o.ext.c).toNat (scalarBytes o.ext.sel) true false (rldGo o (s.k o.k) (s.x o.ext.c).toNat (scalarBytes o.ext.sel))

theorem exec_rld (h : Hdr) (o : RMT) (s : State) : exec (.rld h o) s = s.issue h { xr := [o.ext.c], xw := [o.a], kr := [o.k] } (rldBody o) := rfl

theorem rldGo_hit {o : RMT} {k : Key} {off n : Nat} {s : State} {bs : List Byte} (cache : kHas k 4 = true) (tag : s.tagOk k = true)
    (own : kHolder k = s.myHolder) (hit : s.keyedHit s.me.loc k off n = some bs) :
    rldGo o k off n s = .ok (s.postX o.a (Inflight.known ((scalarExtend o.ext.sel (bytesNat bs)).setWidth 256))) := by
  simp only [rldGo, cache, tag, own, hit, BEq.rfl, Bool.and_self, if_true]

theorem rldGo_miss {o : RMT} {k : Key} {off n : Nat} {s : State}
    (miss : kHas k 4 = false ∨ s.tagOk k = false ∨ kHolder k ≠ s.myHolder ∨ s.keyedHit s.me.loc k off n = none) :
    rldGo o k off n s = .ok ((s.myRequest k off 1 0 [] [s.x o.ext.c, BitVec.ofNat 64 n]
      (.result s.me.uid s.me.order (8 * n) (decide (o.ext.sel.toNat ≤ 2)))).postX o.a (Inflight.ofReq s.nextReq)) := by
  have none : (if kHas k 4 && s.tagOk k && kHolder k == s.myHolder then s.keyedHit s.me.loc k off n else none) = none := by
    obtain cache | tag | other | hit := miss
    · simp [cache]
    · simp [tag]
    · simp [other]
    · simp [hit]
  simp only [rldGo, none]

/-- What the body of `rst` gives. -/
def rstBody (o : RMT) (s : State) : Res :=
  s.remoteAt (s.k o.k) 1 (s.x o.ext.c).toNat (scalarBytes o.ext.sel) false true fun t =>
    .ok (t.myRequest (s.k o.k) (s.x o.ext.c).toNat 2 0 (natBytes (scalarBytes o.ext.sel) (t.x o.a).toNat) [] (.store (t.storeTag (t.x o.ext.c))))

theorem exec_rst (h : Hdr) (o : RMT) (s : State) : exec (.rst h o) s = s.issue h { xr := [o.ext.c, o.a], kr := [o.k] } (rstBody o) := rfl

/-! ### Remote atomics (R314, R315) -/

/-- An atomic of operation code 2 or 6 has its second operand in the register after its first. -/
def ramoPair (op : Nat) : Bool := op == 2 || op == 6

/-- The request of an atomic, for the use of its answer, and the result in flight under the number `req`. -/
def State.askAtomic (s : State) (op : Nat) (o : RMT) (k : Key) (off : Nat) (data : List Byte) (aux : List Word) (use : ReqUse) (req : Nat) : State :=
  (s.myRequest k off 3 op data aux use).postX o.a (Inflight.ofReq req)

/-- What a remote atomic does once its access has passed: `addn` reserves a reply slot for the answer's notice. -/
def ramoGo (op : Nat) (o : RMT) (k : Key) (off : Nat) (second : Word) (s : State) : Res :=
  let ask (t : State) (use : ReqUse) : Res :=
    .ok (t.askAtomic op o k off (natBytes 8 (s.x o.a).toNat) (if ramoPair op then [second] else []) use s.nextReq)
  if op != 6 then ask s (.result s.me.uid s.me.order 64 false)
  else match s.freeSlots s.me.loc with
    | [] => s.fail 0x12
    | n :: _ =>
      ask (s.reserveSlot s.me.loc n s.me.uid s.me.rid s.myHolder (some (second.toNat, [BitVec.ofNat 64 off, BitVec.ofNat 64 (kBase k)])))
        (.addn s.me.uid s.me.order n)

/-- What the body of a remote atomic gives. -/
def ramoBody (op : Nat) (o : RMT) (s : State) : Res :=
  if op = 6 && decide (256 ≤ (s.x (o.a + 1)).toNat) then s.fail 0x01
  else s.remoteAt (s.k o.k) 2 (s.x o.ext.c).toNat 8 false true (ramoGo op o (s.k o.k) (s.x o.ext.c).toNat (s.x (o.a + 1)))

theorem ramo_eq (op : Nat) (h : Hdr) (o : RMT) (s : State) :
    ramo op h o s = s.issue h { xr := o.ext.c :: o.a :: (if ramoPair op then [o.a + 1] else []), xw := [o.a], kr := [o.k] } (ramoBody op o) := rfl

theorem ramoBody_access {op : Nat} {o : RMT} {s : State} (small : op ≠ 6 ∨ (s.x (o.a + 1)).toNat < 256) :
    ramoBody op o s = s.remoteAt (s.k o.k) 2 (s.x o.ext.c).toNat 8 false true (ramoGo op o (s.k o.k) (s.x o.ext.c).toNat (s.x (o.a + 1))) := by
  refine if_neg ?_
  rw [Bool.and_eq_true, decide_eq_true_eq, decide_eq_true_eq]
  omega

section
variable {s : State} {i : Instr} {op : Nat} {h : Hdr} {o : RMT} (issues : exec i s = ramo op h o s)
  (idle : s.notPending (o.ext.c :: o.a :: (if ramoPair op then [o.a + 1] else []) ++ [o.a]) [o.k]) (reaches : s.remoteReaches (s.k o.k) 2 (s.x o.ext.c) 8)
include issues idle reaches

/-- An atomic but `addn` sends its request, with its second operand where it has one. -/
theorem ramo_completes (other : op ≠ 6) :
    s.completes i h (s.askAtomic op o (s.k o.k) (s.x o.ext.c).toNat (natBytes 8 (s.x o.a).toNat) (if ramoPair op then [s.x (o.a + 1)] else [])
      (.result s.me.uid s.me.order 64 false) s.nextReq) :=
  remote_completes (issues.trans (ramo_eq ..)) (idle.hazard rfl rfl) (ramoBody_access (.inl other)) reaches (if_pos (bne_iff_ne.mpr other))

end

theorem exec_ramoAddn (h : Hdr) (o : RMT) (s : State) :
    exec (.ramoAddn h o) s = s.issue h { xr := [o.ext.c, o.a, o.a + 1], xw := [o.a], kr := [o.k] } (ramoBody 6 o) := rfl

section
variable {s : State} {h : Hdr} {o : RMT} (idle : s.notPending [o.ext.c, o.a, o.a + 1] [o.k])
include idle

theorem addn_hazard : s.me.hazard { xr := [o.ext.c, o.a, o.a + 1], xw := [o.a], kr := [o.k] } = none :=
  (idle.subset (ys := [o.ext.c, o.a, o.a + 1, o.a]) (by simp)).hazard rfl rfl

theorem addn_bad_id (large : 256 ≤ (s.x (o.a + 1)).toNat) : s.traps (.ramoAddn h o) 0x01 0 0 :=
  State.traps_of_issue (exec_ramoAddn ..) (addn_hazard idle) (if_pos (by simpa using large))

variable (reaches : s.remoteReaches (s.k o.k) 2 (s.x o.ext.c) 8) (small : (s.x (o.a + 1)).toNat < 256)
include reaches small

theorem addn_completes {n : Nat} {l : List Nat} (free : s.freeSlots s.me.loc = n :: l) :
    s.completes (.ramoAddn h o) h
      ((s.reserveSlot s.me.loc n s.me.uid s.me.rid s.myHolder
        (some ((s.x (o.a + 1)).toNat, [BitVec.ofNat 64 (s.x o.ext.c).toNat, BitVec.ofNat 64 (kBase (s.k o.k))]))).askAtomic 6 o (s.k o.k) (s.x o.ext.c).toNat
          (natBytes 8 (s.x o.a).toNat) [s.x (o.a + 1)] (.addn s.me.uid s.me.order n) s.nextReq) :=
  remote_completes (exec_ramoAddn ..) (addn_hazard idle) (ramoBody_access (op := 6) (.inr small)) reaches (by simp only [ramoGo, free]; rfl)

theorem addn_no_slot (none : s.freeSlots s.me.loc = []) : s.traps (.ramoAddn h o) 0x12 0 0 :=
  remote_traps (exec_ramoAddn ..) (addn_hazard idle) (ramoBody_access (op := 6) (.inr small)) reaches (by simp only [ramoGo, none]; rfl)

end

/-! ### `rvld` and `rvst` (R316) -/

/-- What the body of a remote vector access gives. -/
def rvBody (i : Instr) (right : Nat) (o : RMT) (s : State) : Res :=
  if !keyUsable (s.k o.k) s.me.loc.mod right [0, 1] then s.failAt 0x09 (s.x o.ext.c)
  else if s.me.cls = 0 then .ok s
  else s.dispatch (s.newEntry i [s.x o.ext.c] (s.k o.k)) id

theorem rvissue_eq (i : Instr) (right : Nat) (h : Hdr) (o : RMT) (s : State) :
    rvissue i right h o s = s.issue h { xr := [o.ext.c], kr := [o.k] } (rvBody i right o) := rfl

section
variable {s : State} {i : Instr} {right : Nat} {h : Hdr} {o : RMT} (issues : exec i s = rvissue i right h o s) (idle : s.notPending [o.ext.c] [o.k])
include issues idle

theorem rvissue_wrong (wrong : ¬ (kRouted (s.k o.k) s.me.loc.mod = true ∧ kKind (s.k o.k) ≤ 1 ∧ kHas (s.k o.k) right = true)) :
    s.traps i 0x09 (s.x o.ext.c) 0 :=
  State.traps_of_issue_at (issues.trans (rvissue_eq ..)) (idle.hazard rfl rfl)
    (if_pos (by rw [Bool.eq_false_iff.mpr (mt keyUsable_vector.mp wrong), Bool.not_false]))

variable (ok : kRouted (s.k o.k) s.me.loc.mod = true ∧ kKind (s.k o.k) ≤ 1 ∧ kHas (s.k o.k) right = true)
include ok

/-- A class-0 thread has no vector elements. -/
theorem rvissue_class0 (scalar : s.me.cls = 0) : s.completes i h s :=
  State.completes_of_issue (issues.trans (rvissue_eq ..)) (idle.hazard rfl rfl)
    (by simp only [rvBody, keyUsable_vector.mpr ok, scalar, Bool.not_true, Bool.false_eq_true, if_false, if_true])

theorem rvissue_enters (takes : s.takesEntry) : s.completes i h (s.upd fun a => a.enqueued (s.newEntry i [s.x o.ext.c] (s.k o.k))) := by
  obtain ⟨vector, room⟩ := takes
  exact State.completes_of_issue (issues.trans (rvissue_eq ..)) (idle.hazard rfl rfl)
    (by simp only [rvBody, keyUsable_vector.mpr ok, vector, Bool.not_true, Bool.false_eq_true, if_false, State.dispatch_room room, id_eq])

end

/-! ### `kinfo` (R310) -/

/-- What the body of `kinfo` gives. -/
def kinfoBody (o : KIN) (s : State) : Res :=
  let k := s.k o.k
  let sel := (extSel o.ext).toNat
  if sel < 3 then .ok (s.postX o.a (Inflight.known (BitVec.ofNat 256 (getField k (64 * sel) 64))))
  else if s.tagOk k && kHolder k == s.myHolder && kRouted k s.me.loc.mod then
    .ok ((s.myRequest k 0 9 0 [] [] (.probe s.me.uid s.me.order)).postX o.a (Inflight.ofReq s.nextReq))
  else .ok (s.postX o.a (Inflight.known (BitVec.ofNat 256 (bnat (s.tagOk k) + 2 * bnat (kHolder k == s.myHolder)))))

theorem exec_kinfo (h : Hdr) (o : KIN) (s : State) : exec (.kinfo h o) s = s.issue h { xw := [o.a], kr := [o.k] } (kinfoBody o) := rfl

section
variable {s : State} {h : Hdr} {o : KIN} (idle : s.notPending [o.a] [o.k])
include idle

theorem kinfo_word (word : (extSel o.ext).toNat < 3) :
    s.completes (.kinfo h o) h (s.postX o.a (Inflight.known (BitVec.ofNat 256 (getField (s.k o.k) (64 * (extSel o.ext).toNat) 64)))) :=
  State.completes_of_issue (exec_kinfo ..) (idle.hazard rfl rfl) (if_pos word)

variable (probe : 3 ≤ (extSel o.ext).toNat)
include probe

theorem kinfo_probes (mine : s.tagOk (s.k o.k) = true ∧ kHolder (s.k o.k) = s.myHolder ∧ kRouted (s.k o.k) s.me.loc.mod = true) :
    s.completes (.kinfo h o) h ((s.myRequest (s.k o.k) 0 9 0 [] [] (.probe s.me.uid s.me.order)).postX o.a (Inflight.ofReq s.nextReq)) :=
  State.completes_of_issue (exec_kinfo ..) (idle.hazard rfl rfl)
    ((if_neg (Nat.not_lt.mpr probe)).trans (if_pos (by simpa [and_assoc] using mine)))

theorem kinfo_answers (other : ¬ (s.tagOk (s.k o.k) = true ∧ kHolder (s.k o.k) = s.myHolder ∧ kRouted (s.k o.k) s.me.loc.mod = true)) :
    s.completes (.kinfo h o) h
      (s.postX o.a (Inflight.known (BitVec.ofNat 256 (bnat (s.tagOk (s.k o.k)) + 2 * bnat (kHolder (s.k o.k) == s.myHolder))))) :=
  State.completes_of_issue (exec_kinfo ..) (idle.hazard rfl rfl)
    ((if_neg (Nat.not_lt.mpr probe)).trans (if_neg (by simpa [and_assoc] using other)))

end

end Sys2Proof.Machine

namespace Sys2Proof
open Machine

/-- Settles O49: `myRequest` by the frame of injection, and each instruction by the check of its key that fails or by what its access does once it has passed. -/
theorem remoteAccesses : Obligations.RemoteAccesses := by
  refine ⟨?request, fun s h o => ⟨?two, ?three, ?vector⟩, ?info⟩
  case request =>
    intro s k off op sub data aux use t
    obtain ⟨_, _, _, frame⟩ : _ := s.request_frame s.me.loc s.me.rid (Packet.request s.me.loc k off op sub s.myHolder data aux) use
    have same : t = _ := frame
    rw [same]
    exact ⟨rfl, rfl, rfl, rfl, rfl⟩
  case two =>
    intro idle
    have rldFree : s.me.hazard { xr := [o.ext.c], xw := [o.a], kr := [o.k] } = none := idle.hazard rfl rfl
    have rstFree : s.me.hazard { xr := [o.ext.c, o.a], kr := [o.k] } = none := idle.hazard rfl rfl
    have one : s.notPending [o.ext.c, o.a, o.a] [o.k] := idle.subset (by simp)
    refine ⟨fun wrong => remote_wrong (exec_rld ..) rldFree rfl (not_keyServes.mpr wrong),
      fun wrong => remote_wrong (exec_rst ..) rstFree rfl (not_keyServes.mpr wrong),
      fun serves => ?_, fun serves => ?_, fun serves => ?_, fun reaches miss => ?_, fun reaches cache tag own bs hit => ?_, fun reaches => ?_,
      fun reaches => ?_⟩
    · exact remote_short (exec_rld ..) rldFree rfl (Decidable.not_not.mp (mt not_keyServes.mp serves))
    · exact remote_short (exec_rst ..) rstFree rfl (Decidable.not_not.mp (mt not_keyServes.mp serves))
    · exact remote_misaligned (exec_rld ..) rldFree rfl (Decidable.not_not.mp (mt not_keyServes.mp serves))
    · exact remote_completes (exec_rld ..) rldFree rfl reaches (rldGo_miss miss)
    · exact remote_completes (exec_rld ..) rldFree rfl reaches (rldGo_hit cache tag own hit)
    · exact remote_completes (exec_rst ..) rstFree rfl reaches rfl
    · exact ⟨ramo_completes (op := 0) rfl one reaches (by decide), ramo_completes (op := 1) rfl one reaches (by decide),
        ramo_completes (op := 3) rfl one reaches (by decide), ramo_completes (op := 4) rfl one reaches (by decide),
        ramo_completes (op := 5) rfl one reaches (by decide)⟩
  case three =>
    intro idle
    exact ⟨fun reaches => ramo_completes (op := 2) rfl (idle.subset (by simp [ramoPair])) reaches (by decide),
      fun reaches small m l free => addn_completes idle reaches small free, addn_no_slot idle, addn_bad_id idle⟩
  case vector =>
    rintro idle i right (⟨rfl, rfl⟩ | ⟨rfl, rfl⟩) ok
    · exact ⟨rvissue_wrong rfl idle, rvissue_class0 rfl idle, rvissue_enters rfl idle⟩
    · exact ⟨rvissue_wrong rfl idle, rvissue_class0 rfl idle, rvissue_enters rfl idle⟩
  case info =>
    intro s h o idle k sel mine
    exact ⟨kinfo_word idle, kinfo_probes idle, kinfo_answers idle⟩

end Sys2Proof
end

section
/-! Messages at their sender (spec/11 R317 to R320, R325). -/

namespace Sys2Proof.Machine

/-! ### What a send reserves (R317, R319, R320) -/

/-- A queue entry of a core's network, held for a dispatch-queue entry of the agent whose turn it is, with the reply slot that it names. -/
def State.holdSend (s : State) (vn id : Nat) (slot : Option Nat) : State :=
  { s with sendq := s.sendq ++ [⟨s.me.loc, vn, id, s.me.uid, s.me.nextSeq, false, slot⟩] }

section
variable {s : State} {vn : Nat}

theorem State.reserveSend_full (full : s.freeSend s.me.loc vn = none) (entry : Nat) (reply : Bool) : s.reserveSend vn entry reply = (.error 0x11, s) := by
  simp only [State.reserveSend, full]

variable {id : Nat} (free : s.freeSend s.me.loc vn = some id)
include free

theorem State.reserveSend_plain : s.reserveSend vn s.me.nextSeq false = (.ok (id, none), s.holdSend vn id none) := by
  simp only [State.reserveSend, free]
  rfl

theorem State.reserveSend_no_slot (none : s.freeSlots s.me.loc = []) (entry : Nat) : s.reserveSend vn entry true = (.error 0x12, s) := by
  simp only [State.reserveSend, free, none]
  rfl

theorem State.reserveSend_slot {n : Nat} {l : List Nat} (slots : s.freeSlots s.me.loc = n :: l) :
    s.reserveSend vn s.me.nextSeq true =
      (.ok (id, some n), (s.reserveSlot s.me.loc n s.me.uid s.me.rid s.myHolder none).holdSend vn id (some n)) := by
  simp only [State.reserveSend, free, slots]
  rfl

end

/-! ### A send at issue (R317 to R319) -/

/-- What a send does once its checks have passed: it waits for room in the dispatch queue, and then reserves what its message needs. -/
def sendPassed (i : Instr) (vn : Nat) (reply : Bool) (o : MSG) (s : State) : Res :=
  if s.me.cls != 0 && s.me.queueFull then .hold s
  else match s.reserveSend vn s.me.nextSeq reply with
    | (.error c, _) => s.fail c
    | (.ok _, t) =>
      if s.me.cls = 0 then
        match t.reserved t.me.loc t.me.uid t.me.nextSeq with
        | some q => .ok (t.launchMessage q (s.k o.k) (s.x o.ext.c).toNat (getField (s.k (o.k + 1)) 0 64) [])
        | none => .ok t
      else .ok (t.upd fun a => a.enqueued
        { t.newEntry i [t.x o.ext.c] (s.k o.k) with tok := BitVec.ofNat 64 (getField (s.k (o.k + 1)) 0 64) })

/-- What the body of a send gives. -/
def sendBody (i : Instr) (vn : Nat) (reply : Bool) (o : MSG) (s : State) : Res :=
  if 256 ≤ (s.x o.ext.c).toNat then s.fail 0x01
  else if vn = 0 && s.me.isHandler then s.fail 0x1E
  else match sendKeyCause (s.k o.k) s.me.loc.mod vn with
    | some c => s.fail c
    | none =>
      match (if reply then s.attachCause (s.k (o.k + 1)) else none) with
      | some c => s.fail c
      | none => sendPassed i vn reply o s

theorem sendIssue_eq (i : Instr) (vn : Nat) (reply : Bool) (h : Hdr) (o : MSG) (s : State) :
    sendIssue i vn reply h o s = s.issue h { xr := [o.ext.c], kr := o.k :: (if reply then [o.k + 1] else []) } (sendBody i vn reply o) := rfl

/-- The checks of a send that come before its reservations. -/
abbrev State.sendSound (s : State) (vn : Nat) (reply : Bool) (o : MSG) : Prop :=
  (s.x o.ext.c).toNat < 256 ∧ (vn = 0 → s.me.isHandler = false) ∧ sendKeyCause (s.k o.k) s.me.loc.mod vn = none ∧
    (reply = true → s.attachCause (s.k (o.k + 1)) = none)

/-- Where its checks pass, a send goes on to its reservations. -/
theorem sendBody_sound {s : State} {vn : Nat} {reply : Bool} {o : MSG} (sound : s.sendSound vn reply o) (i : Instr) :
    sendBody i vn reply o s = sendPassed i vn reply o s := by
  obtain ⟨small, thread, key, attached⟩ := sound
  have replies : (if reply then s.attachCause (s.k (o.k + 1)) else none) = none := by
    cases reply
    · rfl
    · exact attached rfl
  exact (if_neg (Nat.not_le.mpr small)).trans ((if_neg (by simpa using thread)).trans (by simp only [key, replies]))

/-- Where the dispatch queue has room or the thread is of class 0, a send does not wait. -/
theorem State.sends_now {s : State} (room : s.me.cls = 0 ∨ s.takesEntry) : (s.me.cls != 0 && s.me.queueFull) = false := by
  obtain scalar | ⟨-, room⟩ := room
  · simp [scalar]
  · simp [Agent.queueFull, room]

section
variable {s : State} {i : Instr} {vn : Nat} {reply : Bool} {h : Hdr} {o : MSG} (issues : exec i s = sendIssue i vn reply h o s)
  (idle : s.notPending [o.ext.c] (o.k :: if reply then [o.k + 1] else []))
include issues idle

theorem send_completes {t : State} (body : sendBody i vn reply o s = .ok t) : s.completes i h t :=
  State.completes_of_issue (issues.trans (sendIssue_eq ..)) (idle.hazard rfl (List.append_nil _)) body

theorem send_traps {c : Nat} (body : sendBody i vn reply o s = s.fail c) : s.traps i c 0 0 :=
  State.traps_of_issue (issues.trans (sendIssue_eq ..)) (idle.hazard rfl (List.append_nil _)) body

theorem send_bad_id (large : 256 ≤ (s.x o.ext.c).toNat) : s.traps i 0x01 0 0 := send_traps issues idle (if_pos large)

section
variable (small : (s.x o.ext.c).toNat < 256)
include small

theorem send_in_handler (request : vn = 0) (handler : s.me.isHandler = true) : s.traps i 0x1E 0 0 :=
  send_traps issues idle ((if_neg (Nat.not_le.mpr small)).trans (if_pos (by simp [request, handler])))

variable (thread : vn = 0 → s.me.isHandler = false)
include thread

theorem send_bad_key {c : Nat} (bad : sendKeyCause (s.k o.k) s.me.loc.mod vn = some c) : s.traps i c 0 0 :=
  send_traps issues idle ((if_neg (Nat.not_le.mpr small)).trans ((if_neg (by simpa using thread)).trans (by simp only [bad])))

theorem send_bad_attached (key : sendKeyCause (s.k o.k) s.me.loc.mod vn = none) (attached : reply = true) {c : Nat}
    (bad : s.attachCause (s.k (o.k + 1)) = some c) : s.traps i c 0 0 :=
  send_traps issues idle
    ((if_neg (Nat.not_le.mpr small)).trans ((if_neg (by simpa using thread)).trans (by simp only [key, attached, bad, if_true])))

end

section
variable (sound : s.sendSound vn reply o)
include sound

theorem send_holds (vector : s.me.cls ≠ 0) (full : 64 ≤ s.me.queue.length) : s.holds i :=
  (issues.trans (sendIssue_eq ..)).trans (State.issue_hold (idle.hazard rfl (List.append_nil _))
    ((sendBody_sound sound i).trans (if_pos (by simp [vector, Agent.queueFull, full]))))

/-- A reservation that fails gives its cause. -/
theorem send_unreserved (room : s.me.cls = 0 ∨ s.takesEntry) {c : Nat} {t : State} (fails : s.reserveSend vn s.me.nextSeq reply = (.error c, t)) :
    s.traps i c 0 0 :=
  send_traps issues idle ((sendBody_sound sound i).trans (by simp only [sendPassed, State.sends_now room, fails, Bool.false_eq_true, if_false]))

section
variable {t : State} {r : Nat × Option Nat} (reserves : s.reserveSend vn s.me.nextSeq reply = (.ok r, t)) (same : t.me = s.me)
include reserves same

/-- A send of a thread with vector state takes a dispatch-queue entry with the reservation made. -/
theorem send_enters (takes : s.takesEntry) :
    s.completes i h (t.upd fun a => a.enqueued
      { t.newEntry i [s.x o.ext.c] (s.k o.k) with tok := BitVec.ofNat 64 (getField (s.k (o.k + 1)) 0 64) }) := by
  have id : t.x o.ext.c = s.x o.ext.c := by rw [State.x, same]; rfl
  refine send_completes issues idle ((sendBody_sound sound i).trans ?_)
  simp only [sendPassed, State.sends_now (.inr takes), reserves, takes.1, id, Bool.false_eq_true, if_false]

/-- The message of a class-0 thread leaves at once, with no payload. -/
theorem send_launches (scalar : s.me.cls = 0) {q : SendEntry} (held : t.reserved s.me.loc s.me.uid s.me.nextSeq = some q) :
    s.completes i h (t.launchMessage q (s.k o.k) (s.x o.ext.c).toNat (getField (s.k (o.k + 1)) 0 64) []) := by
  refine send_completes issues idle ((sendBody_sound sound i).trans ?_)
  simp only [sendPassed, State.sends_now (.inl scalar), reserves, same, held, Bool.false_eq_true, if_false, if_pos scalar]

end

end
end

/-! ### `sqfree` (R325) -/

section
variable {s : State} {h : Hdr} {o : LI} (idle : s.notPending [o.a] [])
include idle

theorem sqfree_requests (vn0 : o.i.int = 0) :
    s.completes (.sqfree h o) h (s.setX o.a (BitVec.ofNat 64 ((s.freeSlots s.me.loc).length * 2 ^ 8 + (16 - (s.sendUsed s.me.loc 0).length)))) :=
  State.completes_of_issue (show exec (.sqfree h o) s = execSqfree h o s from rfl) (idle.hazard rfl rfl) (if_pos vn0)

theorem sqfree_replies (vn1 : o.i.int = 1) :
    s.completes (.sqfree h o) h (s.setX o.a (BitVec.ofNat 64 (16 - (s.sendUsed s.me.loc 1).length))) :=
  State.completes_of_issue (show exec (.sqfree h o) s = execSqfree h o s from rfl) (idle.hazard rfl rfl)
    ((if_neg (by rw [vn1]; decide)).trans (if_pos vn1))

theorem sqfree_bad_network (not0 : o.i.int ≠ 0) (not1 : o.i.int ≠ 1) : s.traps (.sqfree h o) 0x01 0 0 :=
  State.traps_of_issue (show exec (.sqfree h o) s = execSqfree h o s from rfl) (idle.hazard rfl rfl) ((if_neg not0).trans (if_neg not1))

end

end Sys2Proof.Machine
end

section
/-! The handler table (spec/11 R326, R327). -/

namespace Sys2Proof.Machine

/-- The entry of a handler id on the core of the agent whose turn it is is EMPTY, or its region's own. -/
abbrev State.ownsHandler (s : State) (id : Nat) : Prop := ∀ e, s.hentry s.me.loc id = some e → e.rid = s.me.rid

theorem State.ownsHandler_iff {s : State} {id : Nat} :
    s.ownsHandler id ↔ ((s.hentry s.me.loc id).map HandlerEntry.rid).getD s.me.rid = s.me.rid := by
  unfold State.ownsHandler
  cases s.hentry s.me.loc id <;> simp

section
variable {s : State} {i : Instr} {c : List Reg} {h : Hdr} {o : HID} {f : State → Nat → Res} (issues : exec i s = withHid c h o f s)
  (idle : s.notPending (RegImm.regs o.t ++ c) [])
include issues idle

theorem withHid_bad_id (large : 256 ≤ s.hid o.t) : s.traps i 0x01 0 0 :=
  State.traps_of_issue issues (idle.hazard (List.append_nil _) rfl) (if_pos large)

variable (small : s.hid o.t < 256)
include small

theorem withHid_foreign (other : ¬ s.ownsHandler (s.hid o.t)) : s.traps i 0x06 0 0 :=
  State.traps_of_issue issues (idle.hazard (List.append_nil _) rfl)
    ((if_neg (Nat.not_le.mpr small)).trans (if_pos (bne_iff_ne.mpr (mt State.ownsHandler_iff.mpr other))))

variable (mine : s.ownsHandler (s.hid o.t))
include mine

theorem withHid_completes {t : State} (done : f s (s.hid o.t) = .ok t) : s.completes i h t :=
  State.completes_of_issue issues (idle.hazard (List.append_nil _) rfl)
    ((if_neg (Nat.not_le.mpr small)).trans ((if_neg (by simp [State.ownsHandler_iff.mp mine])).trans done))

theorem withHid_traps {cause : Nat} (fails : f s (s.hid o.t) = s.fail cause) : s.traps i cause 0 0 :=
  State.traps_of_issue issues (idle.hazard (List.append_nil _) rfl)
    ((if_neg (Nat.not_le.mpr small)).trans ((if_neg (by simp [State.ownsHandler_iff.mp mine])).trans fails))

end

/-- What `hset` does with an entry that it may change. -/
def hsetGo (o : HID) (s : State) (id : Nat) : Res :=
  let v := s.x (HID.c o)
  if v = 0 then .ok ((s.dropHentry s.me.loc id).relock s.me.loc id none)
  else if v.getLsbD 0 then s.fail 0x04
  else .ok ((s.setHentry ⟨s.me.loc, id, s.me.rid, true, v⟩).relock s.me.loc id none)

/-- What `hclr` does with an entry that it may change. -/
def hclrGo (s : State) (id : Nat) : Res :=
  .ok ((s.setHentry ⟨s.me.loc, id, s.me.rid, false, 0⟩).relock s.me.loc id (some (s.cycle s.me.loc)))

/-- What `hmask` does with an id that it may change. -/
def hmaskGo (o : HID) (s : State) (id : Nat) : Res :=
  let v := s.x (HID.c o)
  if 1 < v.toNat then s.fail 0x01 else .ok (s.updCore s.me.loc fun c => { c with hmask := setField c.hmask id 1 v.toNat })

theorem exec_hclr (h : Hdr) (o : HID) (s : State) : exec (.hclr h o) s = withHid [] h o hclrGo s := rfl
theorem exec_hset (h : Hdr) (o : HID) (s : State) : exec (.hset h o) s = withHid [HID.c o] h o (hsetGo o) s := rfl
theorem exec_hmask (h : Hdr) (o : HID) (s : State) : exec (.hmask h o) s = withHid [HID.c o] h o (hmaskGo o) s := rfl

end Sys2Proof.Machine

namespace Sys2Proof
open Machine

/-- Settles O50: a send by its first check that fails, or by what it reserves; the instructions of the handler table by their common checks. -/
theorem messagesAndTheHandlerTable : Obligations.MessagesAndTheHandlerTable := by
  refine ⟨?send, fun s h o idle => ⟨sqfree_requests idle, sqfree_replies idle, sqfree_bad_network idle⟩, fun s h o => ⟨?large, ?foreign, ?own⟩⟩
  case send =>
    intro s h o i vn reply form idle hid k k0 l sound leaves
    have issues : exec i s = sendIssue i vn reply h o s := by
      obtain ⟨rfl, rfl, rfl⟩ | ⟨rfl, rfl, rfl⟩ | ⟨rfl, rfl, rfl⟩ := form <;> rfl
    have regs : s.notPending [o.ext.c] (o.k :: if reply then [o.k + 1] else []) := by
      cases reply <;> exact idle
    refine ⟨send_bad_id issues regs, send_in_handler issues regs, fun small thread c => send_bad_key issues regs small thread,
      fun small thread key attached c => send_bad_attached issues regs small thread key attached, send_holds issues regs,
      fun sound room full => send_unreserved issues regs sound room (State.reserveSend_full full ..), fun sound room n free => ⟨?_, ?_, ?_⟩⟩
    · rintro rfl
      exact ⟨send_enters issues regs sound (State.reserveSend_plain free) rfl,
        fun scalar q => send_launches issues regs sound (State.reserveSend_plain free) rfl scalar⟩
    · rintro rfl none
      exact send_unreserved issues regs sound room (State.reserveSend_no_slot free none ..)
    · rintro rfl m r slots t
      exact ⟨send_enters issues regs sound (State.reserveSend_slot free slots) rfl,
        fun scalar q => send_launches issues regs sound (State.reserveSend_slot free slots) rfl scalar⟩
  case large =>
    exact fun large => ⟨fun one => withHid_bad_id (exec_hclr ..) (by rwa [List.append_nil]) large,
      fun two => ⟨withHid_bad_id (exec_hset ..) two large, withHid_bad_id (exec_hmask ..) two large⟩⟩
  case foreign =>
    exact fun small other => ⟨fun one => withHid_foreign (exec_hclr ..) (by rwa [List.append_nil]) small other,
      fun two => ⟨withHid_foreign (exec_hset ..) two small other, withHid_foreign (exec_hmask ..) two small other⟩⟩
  case own =>
    intro small mine
    refine ⟨fun one => withHid_completes (exec_hclr ..) (by rwa [List.append_nil]) small mine rfl, fun two empty => ?_, fun two set odd => ?_,
      fun two set even => ?_, fun two bit => ?_, fun two large => ?_⟩
    · exact withHid_completes (exec_hset ..) two small mine (if_pos empty)
    · exact withHid_traps (exec_hset ..) two small mine ((if_neg set).trans (if_pos odd))
    · exact withHid_completes (exec_hset ..) two small mine ((if_neg set).trans (if_neg (ne_true_of_eq_false even)))
    · exact withHid_completes (exec_hmask ..) two small mine (if_neg (Nat.not_lt.mpr bit))
    · exact withHid_traps (exec_hmask ..) two small mine (if_pos large)

end Sys2Proof
end

section
/-! A notice that finds the notice table of its core full (spec/10 R286): what its arrival leaves of the tables. -/

namespace Sys2Proof.Machine

/-- A notice for core 0 of module 0, in turn at its target. -/
def refusedNotice : Flight := ⟨Packet.request ⟨0, 0, 0⟩ (keyOf (3 * 2 ^ 48) 0 (8 * 2 ^ 40) 0) 0 8 0 0 [] [], .ingress 0, 255⟩

/-- All 64 entries of core 0's notice table count a notice, and core 1's table has an entry with count zero on which no WAIT is parked. -/
def fullNoticeTable : State :=
  { State.reset with
    flights := [refusedNotice]
    notices := ⟨⟨0, 0, 1⟩, 1, 0, 0⟩ :: (List.range 64).map fun n => ⟨⟨0, 0, 0⟩, n + 1, 0, 1⟩ }

/-- The notice as `takeNotice` answers it, with the table as `takeNotice` leaves it even where it refuses. -/
def noticeAct : Act := fun u p =>
  let r := u.takeNotice ⟨p.target, kDie p.key, kUnit p.key⟩ (p.aux.getD 0 0).toNat (p.aux.getD 1 0).toNat
  (some (if r.1 then .ok [] else .error 0x82), r.2)

/-- The event refuses the notice and leaves all 65 entries in place. -/
theorem exec_collNoticeArrival_full : ∃ t, exec (.collNoticeArrival 0) fullNoticeTable = .next t ∧ t.notices.length = 65 :=
  ⟨_, rfl, by decide +kernel⟩

/-- With `noticeAct` the refusal would also free core 1's entry. -/
theorem arrive_noticeAct_full : ((fullNoticeTable.claim refusedNotice.pkt.key).arrive 0 refusedNotice noticeAct).notices.length = 64 := by
  decide +kernel

end Sys2Proof.Machine

namespace Sys2Proof
open Machine

/-- Refutes O56: its clause on notices has a refused notice free the table's unused entries (`takeNotice` drops them before it looks for room), where the event
leaves the state of a refused notice as it was. -/
theorem not_packetsFromSourceToAnswer : ¬ Obligations.PacketsFromSourceToAnswer := by
  unfold Obligations.PacketsFromSourceToAnswer
  intro h
  obtain ⟨-, -, -, -, atIngress, -⟩ := h
  obtain ⟨-, -, -, notice⟩ := atIngress fullNoticeTable 0 refusedNotice rfl rfl
  obtain ⟨act, arrives, act_eq⟩ := notice rfl
  obtain rfl : act = noticeAct := funext fun u => funext fun p => act_eq u p
  obtain ⟨t, runs, kept⟩ := exec_collNoticeArrival_full
  have same : t = (fullNoticeTable.claim refusedNotice.pkt.key).arrive 0 refusedNotice noticeAct := Host.Outcome.next.inj (runs.symm.trans arrives)
  have dropped := arrive_noticeAct_full
  rw [← same, kept] at dropped
  exact absurd dropped (by decide)

end Sys2Proof
end

section
/-! Memory right after a reset, and a thread as it is created (spec/20 R464, spec/02 R34). -/

namespace Sys2Proof.Machine

/-! ### Memory of which nothing is listed -/

/-- A state whose memory, counted lines, memory keys and remote-data caches list nothing, as after a reset (spec/20 R464). -/
structure State.Blank (s : State) : Prop where
  mem : s.mem = []
  counted : s.counted = []
  crypt : s.crypt = []
  rdc : s.rdc = []

theorem State.Blank.countAcc {s : State} (h : s.Blank) (v : Via) (n : Nat) : (s.countAcc v n).Blank := ⟨h.mem, h.counted, h.crypt, h.rdc⟩

theorem State.Blank.touchL2 {s : State} (h : s.Blank) (v : Via) (ep line : Nat) : (s.touchL2 v ep line).Blank := by
  obtain ⟨mem, counted, crypt, rdc⟩ := h
  unfold State.touchL2
  dsimp only
  split
  · split <;> exact ⟨mem, counted, crypt, rdc⟩
  · split
    · exact ⟨mem, counted, crypt, rdc⟩
    · split <;> exact ⟨mem, counted, crypt, rdc⟩

theorem Memory.read_nil : ∀ k n, Memory.read [] k n = List.replicate n 0
  | _, 0 => rfl
  | k, n + 1 => congrArg (0 :: ·) (Memory.read_nil (k + 1) n)

theorem State.Blank.counted? {s : State} (h : s.Blank) (ep line : Nat) : s.counted? ep line = none := by
  rw [State.counted?, h.counted]
  rfl

theorem State.Blank.lineKey {s : State} (h : s.Blank) (ep line : Nat) : s.lineKey ep line = 0 := by
  simp only [State.lineKey, h.counted?, h.crypt]
  rfl

theorem State.Blank.homeBytes {s : State} (h : s.Blank) (ep pa n : Nat) : s.homeBytes ep pa n = List.replicate n 0 := by
  simp only [State.homeBytes, h.counted?, h.mem, Memory.read_nil]

theorem State.Blank.rdc? {s : State} (h : s.Blank) (mod die ep line : Nat) : s.rdc? mod die ep line = none := by
  rw [State.rdc?, h.rdc]
  rfl

theorem bytesNat_replicate_zero : ∀ n, bytesNat (List.replicate n (0 : Byte)) = 0
  | 0 => rfl
  | n + 1 => by rw [List.replicate_succ, bytesNat, bytesNat_replicate_zero n]; rfl

theorem State.Blank.homeLine {s : State} (h : s.Blank) (ep line : Nat) : s.homeLine ep line = 0#1024 := by
  rw [State.homeLine, h.homeBytes, lineOf, bytesNat_replicate_zero]

/-- A byte of a line of zeros. -/
theorem lineBytes_zero_one (o : Nat) : (lineBytes 0#1024 o 1).headD 0 = 0 := by
  rw [lineBytes, BitVec.toNat_zero, Nat.zero_div]
  rfl

/-- A fill of such a line finds zero bytes. -/
theorem State.Blank.rdcFill {s : State} (h : s.Blank) (mod die ep line : Nat) : (s.rdcFill mod die ep line 0).1.data = 0#1024 := by
  have miss := h.rdc? mod die ep line
  simp only [State.rdcFill, State.underRdc, miss, h.lineKey, h.homeLine, underKey, if_true]

theorem State.Blank.byteAt {s : State} (h : s.Blank) {v : Via} (plain : v.key = 0) (pa : Nat) : s.byteAt v pa = 0 := by
  have here := h.countAcc v 1
  unfold State.byteAt State.readLine
  dsimp only
  split
  · rw [State.homeSeen, here.lineKey, plain, if_pos rfl, here.homeBytes]
    rfl
  · rw [plain]
    split
    · rw [here.rdcFill, lineBytes_zero_one]
    · rw [(here.touchL2 ..).rdcFill, lineBytes_zero_one]

theorem State.reset_blank : State.reset.Blank := ⟨rfl, rfl, rfl, rfl⟩

/-! ### A created thread -/

theorem Agent.vacant_getX (r : Reg) : Agent.vacant.getX r = 0 := by
  unfold Agent.getX Agent.vacant
  simp

section
variable (uid rid tid level cls : Nat) (l : Loc) (pc x10 x11 : Word) (named : Option Nat) (k : Vector Key 16) (acq : Nat)

/-- The `x` registers of a created thread are its two arguments and zeros (spec/02 R34). -/
theorem freshAgent_getX (r : Reg) :
    (freshAgent uid rid tid level cls l pc x10 x11 named k acq).getX r = if r = 11 then x11 else if r = 10 then x10 else 0 := by
  have base : (freshAgent uid rid tid level cls l pc x10 x11 named k acq).getX r = ((Agent.vacant.setX 10 x10).setX 11 x11).getX r := rfl
  rw [base, Agent.getX_setX, Agent.getX_setX, Agent.vacant_getX]
  rfl

theorem fpcsrWord_zero : fpcsrWord false 0 0 0 = 0 := by decide

theorem freshAgent_v (r : Fin 32) : (freshAgent uid rid tid level cls l pc x10 x11 named k acq).v[r] = 0 := by
  simp [freshAgent, Agent.vacant]

theorem freshAgent_marks (r : Fin 32) : (freshAgent uid rid tid level cls l pc x10 x11 named k acq).marks[r] = 0 := by
  simp [freshAgent, Agent.vacant]

theorem freshAgent_p (r : Fin 12) : (freshAgent uid rid tid level cls l pc x10 x11 named k acq).p[r] = 0 := by
  simp [freshAgent, Agent.vacant]

theorem freshAgent_columns : (freshAgent uid rid tid level cls l pc x10 x11 named k acq).columns = [] := by
  unfold Agent.columns
  exact (by decide : (List.range 16).filter (fun c => (0 : BitVec 16).getLsbD c) = [])

/-- A thread is created with no column of its own, so its seat gives it one (spec/09 R239). -/
theorem freshAgent_seated_mgang (home : Loc) (t : Seat) (now : Nat) :
    ((freshAgent uid rid tid level cls l pc x10 x11 named k acq).seated home t now).mgang = BitVec.ofNat 16 (2 ^ home.column) :=
  if_neg (by rw [freshAgent_columns]; decide)

end

/-- Settles O7: reset lists nothing, so a read finds zero bytes at the home and in a filled RDC line; a created thread is the vacant record but for what R34
names. -/
theorem resetAndTheCreationOfAThread : Obligations.ResetAndTheCreationOfAThread := by
  refine ⟨⟨rfl, rfl, fun v pa plain => State.reset_blank.byteAt plain pa, rfl, rfl, rfl, rfl, rfl, rfl, rfl, rfl, rfl, rfl, rfl, rfl, rfl⟩, ?created⟩
  intro uid rid tid level cls l pc x10 x11 named k acq
  refine ⟨rfl, freshAgent_getX .., freshAgent_getX .., fun r not10 not11 => ?_, fun r => ⟨freshAgent_v .., freshAgent_marks ..⟩, fun r => freshAgent_p .., ?_⟩
  · rw [freshAgent_getX, if_neg not11, if_neg not10]
  · exact ⟨rfl, rfl, rfl, fpcsrWord_zero, rfl, rfl, rfl, rfl, rfl, rfl, rfl, rfl, rfl, rfl, rfl, rfl, rfl, rfl, rfl, rfl, rfl, rfl, rfl, rfl,
      fun home t now => ⟨freshAgent_seated_mgang .., rfl, rfl, rfl⟩⟩

end Sys2Proof.Machine
end

section
/-! Instructions below their level (spec/15 R366). -/

namespace Sys2Proof.Machine

/-! ### The level of an instruction -/

/-- An instruction below its level traps before it looks at a register (spec/03 R75). -/
theorem State.privileged_traps {s : State} {i : Instr} {ok : Bool} {go : Host.Outcome State Fault Refusal} (runs : exec i s = s.privileged ok go)
    (below : ok = false) : s.traps i 0x1D 0 0 := by
  rw [below] at runs
  exact runs

/-- At its level it is what it is without the check. -/
theorem State.privileged_passes {s : State} {i : Instr} {ok : Bool} {go : Host.Outcome State Fault Refusal} (runs : exec i s = s.privileged ok go)
    (level : ok = true) : exec i s = go := by
  rw [level] at runs
  exact runs

theorem State.level_zero {s : State} (user : s.me.level = 0) : (s.me.level != 0) = false := by rw [user]; rfl

theorem State.not_onKeywright {s : State}
    (off : s.me.level ≠ 2 ∨ ∀ a, s.module? s.me.loc.mod = some a → a.keywright ≠ s.me.loc.die) : s.onKeywright = false := by
  unfold State.onKeywright
  obtain level | die := off
  · rw [beq_eq_false_iff_ne.mpr level, Bool.false_and]
  · cases found : s.module? s.me.loc.mod with
    | none => exact Bool.and_false _
    | some a => rw [Option.any_some, beq_eq_false_iff_ne.mpr (die a found), Bool.and_false]

/-- What `kmint` does with the bytes of its request. -/
def kmintGo (o : KB) (s s' : State) (bs : List Byte) : Res :=
  if wordAt bs 24 ≠ 0 then s.fail 0x01
  else match s'.mint s.me.loc.mod (keyOf (wordAt bs 0) (wordAt bs 8) (wordAt bs 16) 0) with
    | (.error c, _) => s.fail c
    | (.ok k, t) => .ok (t.setK o.a k)

/-- What `krekey` does with the bytes of its request. -/
def krekeyGo (o : XB) (s s' : State) (bs : List Byte) : Res :=
  match bits (wordAt bs 0) 0 4 with
  | 0 => s.advance? s' (s.x o.b).toNat (keyOf (wordAt bs 8) (wordAt bs 16) 0 0)
  | 1 => s.rotate? s' (s.x o.b).toNat
  | _ => s.fail 0x01

theorem exec_kmint (h : Hdr) (o : KB) (s : State) : exec (.kmint h o) s = keyRequest h o.b [o.a] (kmintGo o) s := rfl
theorem exec_krekeyAdvance (h : Hdr) (o : XB) (s : State) : exec (.krekeyAdvance h o) s = keyRequest h o.b [] (krekeyGo o) s := rfl
theorem exec_krekeyRotate (h : Hdr) (o : XB) (s : State) : exec (.krekeyRotate h o) s = keyRequest h o.b [] (krekeyGo o) s := rfl
theorem exec_cflush (h : Hdr) (o : CFL) (s : State) : exec (.cflush h o) s = execCflush h o s := rfl
theorem exec_rett (h : Hdr) (s : State) : exec (.rett h) s = execRett h s := rfl

/-- An instruction of S and the levels above it, at level U (spec/15 R366). -/
theorem State.user_traps {s : State} (user : s.me.level = 0) {i : Instr} {go : Host.Outcome State Fault Refusal}
    (runs : exec i s = s.privileged (s.me.level != 0) go) : s.traps i 0x1D 0 0 := State.privileged_traps runs (State.level_zero user)

theorem keyRequest_traps {s : State} {i : Instr} {h : Hdr} {b : Reg} {kw : List Reg4} {f : State → State → List Byte → Res} (off : s.onKeywright = false)
    (runs : exec i s = keyRequest h b kw f s) : s.traps i 0x1D 0 0 := State.privileged_traps runs off

theorem keywright_row_traps {s : State} (off : s.onKeywright = false) (h : Hdr) (b : XB) (k : KB) :
    ∀ i ∈ [Instr.kmint h k, .krekeyAdvance h b, .krekeyRotate h b], s.traps i 0x1D 0 0 := by
  simp only [List.forall_mem_cons, List.not_mem_nil, false_implies, implies_true, and_true]
  exact ⟨keyRequest_traps off (exec_kmint ..), keyRequest_traps off (exec_krekeyAdvance ..), keyRequest_traps off (exec_krekeyRotate ..)⟩

/-- Settles O54: every such instruction checks the level first, `kmint` and `krekey` that the thread is the Keywright's firmware. -/
theorem pageSevenNeedsItsLevel : Obligations.PageSevenNeedsItsLevel := by
  refine ⟨fun s h r b q t f k user => ⟨?user, fun low high => ?cflush, fun uta => ?rett⟩,
    fun s h b k off => keywright_row_traps (State.not_onKeywright off) h b k, fun s h above uta => ?above⟩
  case user =>
    have keywright := keywright_row_traps (State.not_onKeywright (.inl (by rw [user]; decide))) h b k
    simp only [List.forall_mem_cons, List.not_mem_nil, false_implies, implies_true, and_true] at keywright ⊢
    obtain ⟨kmint, advance, rotate⟩ := keywright
    have traps := @State.user_traps s user
    exact ⟨traps rfl, traps rfl, traps rfl, traps rfl, traps rfl, traps rfl, traps rfl, traps rfl, traps rfl, traps rfl, traps rfl, kmint, advance, rotate,
      traps rfl⟩
  case cflush =>
    exact State.privileged_traps (exec_cflush ..) (by simp [user, Nat.not_lt.mpr low, Nat.not_lt.mpr high])
  case rett => exact State.privileged_traps (exec_rett ..) (by rw [uta, user]; rfl)
  case above =>
    exact State.traps_of_issue (State.privileged_passes (exec_rett ..) (by simp [above])) rfl (if_pos (by rw [uta]; rfl))

end Sys2Proof.Machine
end

section
/-! Taking a trap (spec/15 R366 to R370): what it waits for, which failure comes first, and where it goes. -/

namespace Sys2Proof.Machine

/-! ### Reports on their way (spec/06 R171) -/

/-- No report of the agent's stores is on its way. -/
abbrev State.noReports (s : State) (uid : Nat) : Prop := ∀ r ∈ s.reports, r.ofAgent uid = false

theorem State.deliverAll_of_noReports {s : State} {uid : Nat} (quiet : s.noReports uid) : s.deliverAll uid = s := by
  have mine : s.reports.filter (fun r => r.ofAgent uid && !s.entryRuns r) = [] :=
    List.filter_eq_nil_iff.mpr fun r here => by simp [quiet r here]
  have others : s.reports.filter (fun r => !(r.ofAgent uid && !s.entryRuns r)) = s.reports :=
    List.filter_eq_self.mpr fun r here => by simp [quiet r here]
  simp only [State.deliverAll, mine, others, List.foldl_nil]

theorem Failure.map_armed {l : List Failure} (all : ∀ f ∈ l, f.armed = true) : l.map (fun f => { f with armed := true }) = l :=
  (List.map_congr_left fun f here => show _ = id f by rw [← all f here]; rfl).trans (List.map_id l)

theorem Failure.filter_unarmed {l : List Failure} (none : ∀ f ∈ l, f.armed = false) : l.filter Failure.armed = [] :=
  List.filter_eq_nil_iff.mpr fun f here => by simp [none f here]

/-! ### TAKING A TRAP (spec/15 R368 to R370) -/

/-- The agent whose turn it is at a point of spec/03 R89 that no result and no report holds up. -/
def Agent.atPoint (a : Agent) : Agent := { a with life := .ready, failures := a.failures.map fun f => { f with armed := true } }

section
variable {s : State} {t : Trap}

theorem State.dueFailures_ready (quiet : s.noReports s.me.uid) : (s.dueFailures.upd fun a => { a with life := .ready }) = s.upd Agent.atPoint := by
  rw [State.dueFailures, State.deliverAll_of_noReports quiet]
  rfl

theorem State.takeTrap_waits (waits : s.me.mustWait t = true) : s.takeTrap t = s.upd fun a => { a with life := .trapping t } := if_pos waits

variable (done : s.me.mustWait t = false) (quiet : s.noReports s.me.uid)
include done quiet

/-- No failure is found: the trap is taken. -/
theorem State.takeTrap_enters (none : (s.upd Agent.atPoint).foundFailure (s.me.failures.filter Failure.armed) t = none) :
    s.takeTrap t = (s.upd fun a => a.atPoint.dropEvent t).enterTrap t := by
  rw [State.takeTrap, if_neg (ne_true_of_eq_false done)]
  simp only [State.dueFailures_ready quiet, none]
  rfl

/-- A failure is found and is taken instead. -/
theorem State.takeTrap_finds {f : Failure} (found : (s.upd Agent.atPoint).foundFailure (s.me.failures.filter Failure.armed) t = some f)
    (free : s.me.atPoint.mustWait (s.me.hereTrap f.trap) = false) :
    s.takeTrap t = (s.upd fun a => { a.atPoint with failures := dropOne f a.atPoint.failures }).enterTrap (s.me.hereTrap f.trap) := by
  rw [State.takeTrap, if_neg (ne_true_of_eq_false done)]
  simp only [State.dueFailures_ready quiet, found]
  exact if_neg (ne_true_of_eq_false free)

end

/-! ### Where a trap is taken -/

section
variable {s : State} {t : Trap}

/-- The state whose agent enters a trap: a vector-stream trap stops the stream first. -/
def State.stoppedFor (s : State) (t : Trap) : State := if t.stream then s.stopStream s.me.uid else s

theorem State.enterTrap_user (takes : s.me.takesAtUtvec t = true) :
    s.enterTrap t = { s.stoppedFor t with
      barrier := (s.stoppedFor t).barrier.filter fun b => b.uid != (s.stoppedFor t).me.uid, me := (s.stoppedFor t).me.enterUser t } := if_pos takes

theorem State.enterTrap_firmware (firmware : 2 ≤ s.me.level) :
    s.enterTrap t = (s.stoppedFor t).upd fun a => a.enterFirmware t := by
  have level : ¬ s.me.takesAtUtvec t = true := by simp [Agent.takesAtUtvec, Nat.not_lt.mpr firmware]
  exact (if_neg level).trans (if_pos firmware)

theorem State.enterTrap_handler (away : s.me.takesAtUtvec t = false) (low : s.me.level < 2) (handler : s.me.isHandler = true) :
    s.enterTrap t = s.handlerTrap t :=
  (if_neg (ne_true_of_eq_false away)).trans ((if_neg (Nat.not_le.mpr low)).trans (if_pos handler))

theorem State.enterTrap_supervisor (away : s.me.takesAtUtvec t = false) (low : s.me.level < 2) (thread : s.me.isHandler = false) :
    s.enterTrap t = s.supervisorTrap t :=
  (if_neg (ne_true_of_eq_false away)).trans ((if_neg (Nat.not_le.mpr low)).trans (if_neg (ne_true_of_eq_false thread)))

end

/-! ### The stop of a stream (spec/11 R316, R319) -/

/-- An entry of a stopped stream: an unsent message reserves anew, and a remote load asks for its elements again. -/
def Entry.stopped (e : Entry) : Entry :=
  match e.resend.instr with
  | .rvld _ _ => { e.resend with lanes := e.resend.lanes.map fun l => { l with sent := false, val := none, cause := 0 } }
  | _ => e.resend

theorem State.stopStream_me (s : State) : (s.stopStream s.me.uid).me = { s.me with queue := s.me.queue.map Entry.stopped } := by
  simp only [State.stopStream, State.releaseSends, State.abandonRemote, State.updAgent, State.freeSends, if_true, List.map_map]
  rfl

theorem State.stopStream_mem (s : State) : (s.stopStream s.me.uid).mem = s.mem := by
  simp only [State.stopStream, State.releaseSends, State.abandonRemote, State.updAgent, State.freeSends, if_true]

/-! ### The failure that is taken first (spec/15 R370 step 2, R377) -/

section
variable {s : State} {t : Trap} {due : List Failure}

theorem State.foundFailure_nil (empty : s.me.failures = []) : s.foundFailure due t = none := by
  simp only [State.foundFailure, empty]
  split
  · rfl
  · exact ite_self _

theorem State.foundFailure_plain (plain : t.stream = false ∧ t.cause ≠ 0x20) : s.foundFailure due t = s.me.failures.head? := by
  obtain ⟨precise, code⟩ := plain
  exact if_pos (by simp [Trap.beforeFailures, precise, code])

theorem Trap.beforeFailures_iff : t.beforeFailures = true ↔ t.stream = true ∨ t.cause = 0x20 := by simp [Trap.beforeFailures]

/-- Before a debug stop or a stream trap that goes to a vector of the agent's own, a failure is taken only if this point has found it. -/
theorem State.foundFailure_own (before : t.beforeFailures = true) (own : s.me.takesAtUtvec t = true ∨ 2 ≤ s.me.level) :
    s.foundFailure due t = s.me.failures.find? fun f => !due.contains f :=
  (if_neg (by simp [before])).trans (if_pos (by simpa using own))

/-- Where such a trap goes to the supervisor, none is. -/
theorem State.foundFailure_away (before : t.beforeFailures = true) (away : s.me.takesAtUtvec t = false) (low : s.me.level < 2) :
    s.foundFailure due t = none :=
  (if_neg (by simp [before])).trans (if_neg (by simp [away, low]))

end

section
variable {s : State} {t : Trap}

/-- What lets a trap be taken at `utvec` (spec/15 R368). -/
theorem Agent.takesAtUtvec_of {a : Agent} (low : a.level < 2) (cause : delegable t.cause = true) (vector : a.utvec &&& ~~~1 ≠ 0) (clear : a.uta = false)
    (aside : t.stream = false ∨ a.aside = none) : a.takesAtUtvec t = true := by
  simp only [Agent.takesAtUtvec, low, cause, clear, bne_iff_ne.mpr vector, decide_true, Bool.true_and, Bool.not_false]
  obtain precise | none := aside
  · rw [precise]; rfl
  · rw [none]; simp

theorem State.takeTrap_undisturbed (done : s.me.mustWait t = false) (free : s.nothingDue) :
    s.takeTrap t = (s.upd fun a => a.atPoint.dropEvent t).enterTrap t := by
  obtain ⟨empty, quiet⟩ := free
  exact State.takeTrap_enters done quiet (State.foundFailure_nil (by rw [State.upd_me, Agent.atPoint, empty]; rfl))

end

theorem delegable_iff (c : Nat) : delegable c = true ↔ c ∈ [0x11, 0x12, 0x13, 0x14, 0x15, 0x16, 0x19, 0x26] := by
  simp only [delegable, Bool.or_eq_true, beq_iff_eq, List.mem_cons, List.not_mem_nil, or_false, or_assoc]

theorem Agent.enterUser_plain {a : Agent} {t : Trap} (plain : t.stream = false) :
    a.enterUser t = { a.clearPending with
      ucause := BitVec.ofNat 64 t.cause, uepc := t.epc &&& ~~~1, uaddr := t.addr, uinfo := t.info, uta := true, life := .ready, userSeq := a.nextSeq,
      pc := a.utvec &&& ~~~1 } := by
  simp only [Agent.enterUser, plain]
  rfl

/-- A delegable trap of the chain: the trap registers, `UTA` and the vector, and nothing of the stream (spec/15 R370). -/
theorem State.takeTrap_user {s : State} {t : Trap} (takes : s.me.takesAtUtvec t = true) (plain : t.stream = false) (done : s.me.mustWait t = false)
    (free : s.nothingDue) :
    s.takeTrap t = { s with
      barrier := s.barrier.filter fun b => b.uid != s.me.uid
      me := { (s.me.dropEvent t).clearPending with ucause := BitVec.ofNat 64 t.cause, uepc := t.epc &&& ~~~1, uaddr := t.addr, uinfo := t.info,
                                                   uta := true, life := .ready, userSeq := s.me.nextSeq, pc := s.me.utvec &&& ~~~1 } } := by
  have here : (s.upd fun a => a.atPoint.dropEvent t).stoppedFor t = s.upd fun a => a.atPoint.dropEvent t := if_neg (by rw [plain]; decide)
  have same : s.me.failures.map (fun f => { f with armed := true }) = s.me.failures := by rw [free.1]; rfl
  rw [State.takeTrap_undisturbed done free, State.enterTrap_user (s := s.upd fun a => a.atPoint.dropEvent t) takes, here]
  simp only [State.upd_me, State.upd_barrier, Agent.enterUser_plain plain, Agent.atPoint, same]
  rfl

/-- A trap of the stream that is taken at `utvec`: the stream is stopped, and the agent enters with what it then has. -/
theorem State.takeTrap_user_stream {s : State} {t : Trap} (takes : s.me.takesAtUtvec t = true) (stream : t.stream = true) (done : s.me.mustWait t = false)
    (free : s.nothingDue) :
    (s.takeTrap t).me = ({ s.me.atPoint.dropEvent t with queue := s.me.queue.map Entry.stopped } : Agent).enterUser t ∧ (s.takeTrap t).mem = s.mem := by
  have here : (s.upd fun a => a.atPoint.dropEvent t).stoppedFor t = (s.upd fun a => a.atPoint.dropEvent t).stopStream s.me.uid := if_pos stream
  have me := (s.upd fun a => a.atPoint.dropEvent t).stopStream_me
  rw [State.takeTrap_undisturbed done free, State.enterTrap_user (s := s.upd fun a => a.atPoint.dropEvent t) takes, here]
  exact ⟨congrArg (Agent.enterUser · t) me, (s.upd fun a => a.atPoint.dropEvent t).stopStream_mem⟩

/-- Such an entry sets the stream aside (spec/02 R44, spec/07 R196). -/
theorem Agent.enterUser_stream {a : Agent} {t : Trap} (stream : t.stream = true) :
    a.enterUser t = { (a.clearPending.foldVfmc (t.seq + 1)) with
      ucause := BitVec.ofNat 64 t.cause, uepc := t.epc &&& ~~~1, uaddr := t.addr, uinfo := t.info, uta := true, life := .ready, userSeq := a.nextSeq,
      aside := some ⟨a.queue, a.done, t.seq, a.vl, a.pc, a.fpera, a.marked && a.inflight.any (fun i => i.entry.isSome), (a.foldVfmc (t.seq + 1)).vfmcLog⟩,
      queue := [], done := a.done.map fun _ => a.nextSeq, vstop := none, marked := false, vfmcLog := [], pc := a.utvec &&& ~~~1 } := by
  simp only [Agent.enterUser, stream, if_true]
  rfl

/-- A trap of firmware goes to its vector and stops nothing (spec/15 R366; log entry 59). -/
theorem State.takeTrap_firmware {s : State} {t : Trap} (firmware : 2 ≤ s.me.level) (plain : t.stream = false) (done : s.me.mustWait t = false)
    (free : s.nothingDue) : s.takeTrap t = s.upd fun a => (a.atPoint.dropEvent t).enterFirmware t := by
  have here : (s.upd fun a => a.atPoint.dropEvent t).stoppedFor t = s.upd fun a => a.atPoint.dropEvent t := if_neg (by rw [plain]; decide)
  rw [State.takeTrap_undisturbed done free, State.enterTrap_firmware (s := s.upd fun a => a.atPoint.dropEvent t) firmware, here]
  rfl

theorem Agent.enterFirmware_plain {a : Agent} {t : Trap} (plain : t.stream = false) :
    (a.enterFirmware t).pc = Config.firmwareVector a.loc.mod a.loc.die a.level ∧ (a.enterFirmware t).life = .ready ∧
      (a.enterFirmware t).placed = a.placed ∧ (a.enterFirmware t).x = a.x := by
  rw [Agent.enterFirmware, Agent.enterUser_plain plain]
  exact ⟨rfl, rfl, rfl, rfl⟩

/-! ### A failure of an earlier instruction comes first -/

/-- The first failure is taken in the trap's place, and the others become due. -/
theorem State.takeTrap_first_failure {s : State} {t : Trap} {f : Failure} {rest : List Failure} (done : s.me.mustWait t = false)
    (doneF : s.me.mustWait (s.me.hereTrap f.trap) = false)
    (first : (t.stream = false ∧ t.cause ≠ 0x20) ∨ ((s.me.takesAtUtvec t = true ∨ 2 ≤ s.me.level) ∧ ∀ q ∈ s.me.failures, q.armed = false))
    (failures : s.me.failures = f :: rest) (quiet : s.noReports s.me.uid) :
    s.takeTrap t = (s.upd fun a => { a with life := .ready, failures := rest.map fun f => { f with armed := true } }).enterTrap (s.me.hereTrap f.trap) := by
  have due : (s.upd Agent.atPoint).me.failures = { f with armed := true } :: rest.map fun f => { f with armed := true } := by
    rw [State.upd_me, Agent.atPoint, failures]
    rfl
  have found : (s.upd Agent.atPoint).foundFailure (s.me.failures.filter Failure.armed) t = some { f with armed := true } := by
    by_cases before : t.beforeFailures = true
    · obtain ⟨precise, code⟩ | ⟨own, unarmed⟩ := first
      · simp [Trap.beforeFailures, precise, code] at before
      · rw [State.foundFailure_own (s := s.upd Agent.atPoint) before own, due, Failure.filter_unarmed unarmed]
        rfl
    · exact (if_pos (by simpa using before)).trans (congrArg List.head? due)
  refine (State.takeTrap_finds done quiet found doneF).trans ?_
  have left : dropOne { f with armed := true } s.me.atPoint.failures = rest.map fun f => { f with armed := true } :=
    (congrArg (dropOne _) due).trans (if_pos rfl)
  simp only [State.upd, left]
  rfl

/-- A debug stop or a stream trap before failures that were due already: they stay (spec/15 R377). -/
theorem State.takeTrap_before_due {s : State} {t : Trap} (done : s.me.mustWait t = false) (before : t.stream = true ∨ t.cause = 0x20)
    (due : ∀ q ∈ s.me.failures, q.armed = true) (quiet : s.noReports s.me.uid) :
    s.takeTrap t = (s.upd fun a => ({ a with life := .ready } : Agent).dropEvent t).enterTrap t := by
  have same := Failure.map_armed due
  have none : (s.upd Agent.atPoint).foundFailure (s.me.failures.filter Failure.armed) t = none := by
    by_cases own : s.me.takesAtUtvec t = true ∨ 2 ≤ s.me.level
    · rw [State.foundFailure_own (s := s.upd Agent.atPoint) (Trap.beforeFailures_iff.mpr before) own, List.filter_eq_self.mpr due]
      refine List.find?_eq_none.mpr fun f here => ?_
      have here : f ∈ s.me.failures := same ▸ here
      simp [here]
    · rw [not_or, Bool.not_eq_true, Nat.not_le] at own
      exact State.foundFailure_away (Trap.beforeFailures_iff.mpr before) own.1 own.2
  rw [State.takeTrap_enters done quiet none]
  simp only [Agent.atPoint, same, State.upd]

/-- One that goes to the supervisor comes before all of them. -/
theorem State.takeTrap_before_away {s : State} {t : Trap} (done : s.me.mustWait t = false) (before : t.stream = true ∨ t.cause = 0x20)
    (away : s.me.takesAtUtvec t = false) (low : s.me.level < 2) (quiet : s.noReports s.me.uid) :
    s.takeTrap t = (s.upd fun a =>
      ({ a with life := .ready, failures := a.failures.map fun f => { f with armed := true } } : Agent).dropEvent t).enterTrap t :=
  State.takeTrap_enters done quiet (State.foundFailure_away (Trap.beforeFailures_iff.mpr before) away low)

/-! ### The boundary of the agent whose turn it is (spec/15 R377) -/

theorem exec_eventBoundary_me (s : State) : exec (.eventBoundary s.me.uid) s = .next ((s.nextEvent.getD s).focus s.me.uid) := by
  change execEventBoundary s.me.uid s = _
  rw [execEventBoundary, State.agent?_me]
  simp only [State.asAgent, State.focus_me]

theorem State.nextEvent_trapping {s : State} {t : Trap} (waiting : s.me.life = .trapping t) (done : s.me.mustWait t = false) (other : t.cause ≠ 0x1F) :
    s.nextEvent = some (s.takeTrap t) := by
  simp only [State.nextEvent, waiting, done, State.endWait, if_neg other]
  rfl

/-- Settles O26: TAKING A TRAP by whether results are awaited, by the failure it finds and by where the trap goes. -/
theorem trapEntryAtUtvec : Obligations.TrapEntryAtUtvec := by
  refine ⟨⟨delegable_iff, ?plain, ?stream⟩, fun s t => State.takeTrap_waits, fun s t f rest done doneF first failures quiet =>
    State.takeTrap_first_failure done doneF first failures quiet, fun s t => State.takeTrap_before_due, fun s t => State.takeTrap_before_away, ?boundary, ?firmware⟩
  case plain =>
    intro s t low cause vector clear plain done free
    exact State.takeTrap_user (Agent.takesAtUtvec_of low cause vector clear (.inl plain)) plain done free
  case stream =>
    intro s t low cause vector clear stream aside done free a b
    obtain ⟨me, mem⟩ := State.takeTrap_user_stream (Agent.takesAtUtvec_of low cause vector clear (.inr aside)) stream done free
    have stopped : a = _ := s.stopStream_me
    have entered : b = _ := me.trans (Agent.enterUser_stream stream)
    rw [stopped, entered]
    exact ⟨rfl, rfl, rfl, rfl, rfl, rfl, rfl, rfl, rfl, rfl, rfl, rfl, rfl, rfl, mem⟩
  case boundary =>
    intro s t waiting done other
    rw [exec_eventBoundary_me, State.nextEvent_trapping waiting done other]
    rfl
  case firmware =>
    intro s t firmware done free plain b
    have taken := State.takeTrap_firmware firmware plain done free
    obtain ⟨pc, life, placed, x⟩ := Agent.enterFirmware_plain (a := s.me.atPoint.dropEvent t) plain
    have entered : b = _ := congrArg State.me taken
    rw [entered]
    exact ⟨pc, life, placed, x, by rw [taken]; rfl⟩

end Sys2Proof.Machine
end

section
/-! A trap that the supervisor takes (spec/15 R373, R374): what memory accesses, ready queues and records leave of the agent, and the stop of a thread and of a handler. -/

namespace Sys2Proof.Machine

/-! ### Memory accesses leave the agent alone -/

@[simp] theorem State.beforeStore_me (s : State) (mod die ep line rel : Nat) (m : BitVec 128) : (s.beforeStore mod die ep line rel m).me = s.me := by
  unfold State.beforeStore
  split
  · split <;> simp
  · rfl

@[simp] theorem State.dropData_me (s : State) (mod die ep line : Nat) : (s.dropData mod die ep line).me = s.me := rfl

@[simp] theorem State.countAcc_me (s : State) (v : Via) (n : Nat) : (s.countAcc v n).me = s.me := rfl

@[simp] theorem State.rdcStore_me (s : State) (mod die ep line key : Nat) (tag : StoreTag) (o : Nat) (bs : List Byte) :
    (s.rdcStore mod die ep line key tag o bs).me = s.me := by
  unfold State.rdcStore
  dsimp only
  split <;> simp

@[simp] theorem State.writeLine_me (s : State) (v : Via) (tag : StoreTag) (pa : Nat) (bs : List Byte) : (s.writeLine v tag pa bs).me = s.me := by
  unfold State.writeLine
  dsimp only
  split <;> simp

@[simp] theorem State.writeVias_me (tag : StoreTag) : ∀ (l : List (Nat × Nat × Via)) (s : State) (bs : List Byte), (s.writeVias tag l bs).me = s.me
  | [], _, _ => rfl
  | (_, _, _) :: l, s, _ => (State.writeVias_me tag l _ _).trans (s.writeLine_me ..)

@[simp] theorem State.readVias_me : ∀ (l : List (Nat × Nat × Via)) (s : State), (s.readVias l).2.me = s.me
  | [], _ => rfl
  | (_, _, _) :: l, s => (State.readVias_me l _).trans (s.readLine_me ..)

@[simp] theorem State.translateSpans_me (sp : Space) (acc : Acc) : ∀ (l : List (Nat × Nat)) (s : State), (s.translateSpans sp acc l).2.me = s.me
  | [], _ => rfl
  | (va, n) :: l, s => by
    have first := s.translate_me sp va acc
    unfold State.translateSpans
    split
    case h_1 c u e => rwa [e] at first
    case h_2 pa v u e =>
      rw [e] at first
      have rest := State.translateSpans_me sp acc l u
      split
      case h_1 c w e => exact (by rwa [e] at rest : w.me = u.me).trans first
      case h_2 k w e => exact (by rwa [e] at rest : w.me = u.me).trans first

@[simp] theorem State.vread_me (s : State) (sp : Space) (va n : Nat) : (s.vread sp va n).2.me = s.me := by
  have seen := State.translateSpans_me sp .read (lineSpans (n / 128 + 2) va n) s
  unfold State.vread
  split
  case h_1 c u e => rwa [e] at seen
  case h_2 l u e =>
    rw [e] at seen
    split
    · exact seen
    · exact (u.readVias_me l).trans seen

@[simp] theorem State.vwrite_me (s : State) (sp : Space) (tag : StoreTag) (va : Nat) (bs : List Byte) : (s.vwrite sp tag va bs).2.me = s.me := by
  have seen := State.translateSpans_me sp .write (lineSpans (bs.length / 128 + 2) va bs.length) s
  unfold State.vwrite
  split
  case h_1 c u e => rwa [e] at seen
  case h_2 l u e =>
    rw [e] at seen
    exact (u.writeVias_me ..).trans seen

@[simp] theorem State.saveBytes_me (s : State) (r : Region) (loc : Loc) (va : Nat) (bs : List Byte) : (s.saveBytes r loc va bs).2.me = s.me := by
  have seen := State.translateSpans_me { s.space loc .core r.rid 1 with level := 1 } .write (lineSpans (bs.length / 128 + 2) va bs.length) s
  unfold State.saveBytes
  dsimp only
  split
  case h_1 c u e => rwa [e] at seen
  case h_2 l u e =>
    rw [e] at seen
    split
    · exact seen
    · exact (u.writeVias_me ..).trans seen

@[simp] theorem State.savePieces_me (r : Region) (loc : Loc) (base : Nat) :
    ∀ (l : List (Nat × List Byte)) (s : State), (s.savePieces r loc base l).2.me = s.me
  | [], _ => rfl
  | (o, bs) :: l, s => by
    have first := s.saveBytes_me r loc (base + o) bs
    unfold State.savePieces
    split
    case h_1 c u e => rwa [e] at first
    case h_2 u e =>
      rw [e] at first
      exact (State.savePieces_me r loc base l u).trans first

@[simp] theorem State.flushRdc_me (s : State) (mod die sc : Nat) : (s.flushRdc mod die sc).me = s.me := foldl_me (by simp) ..

@[simp] theorem State.release_me (s : State) (loc : Loc) (sc : Nat) : (s.release loc sc).me = s.me := by
  unfold State.release
  split <;> simp

/-! ### Ready queues leave everything but themselves alone (spec/16 R407, R408) -/

/-- Of a state nothing differs but the ready queues. -/
def State.sameButQueues (s t : State) : Prop := ∃ q, t = { s with rqueues := q }

theorem State.sameButQueues.trans {s t u : State} : s.sameButQueues t → t.sameButQueues u → s.sameButQueues u := by
  rintro ⟨_, rfl⟩ ⟨_, rfl⟩
  exact ⟨_, rfl⟩

theorem State.sameButQueues.me {s t : State} : s.sameButQueues t → t.me = s.me := by rintro ⟨_, rfl⟩; rfl

theorem State.mapFree_frame : ∀ (n : Nat) (s : State) (m d : Nat), s.sameButQueues (State.mapFree n s m d)
  | 0, s, _, _ => ⟨s.rqueues, rfl⟩
  | n + 1, s, m, d => by
    unfold State.mapFree
    split
    · exact ⟨s.rqueues, rfl⟩
    · split
      · exact ⟨s.rqueues, rfl⟩
      · exact State.sameButQueues.trans ⟨_, rfl⟩ (State.mapFree_frame n _ m d)

theorem State.settleQueues_frame (s : State) (m d : Nat) : s.sameButQueues (s.settleQueues m d) := by
  have tidy : s.sameButQueues (s.tidyQueues m d) := ⟨_, rfl⟩
  exact (tidy.trans (State.mapFree_frame 64 _ m d)).trans ⟨_, rfl⟩

theorem State.enqueue_frame (s : State) (mod die rid uid : Nat) : s.sameButQueues (s.enqueue mod die rid uid) := by
  unfold State.enqueue
  dsimp only
  split
  · exact State.sameButQueues.trans ⟨_, rfl⟩ (State.settleQueues_frame ..)
  · exact State.sameButQueues.trans ⟨_, rfl⟩ (State.settleQueues_frame ..)

/-! ### Records (spec/16 R405) -/

/-- Of an agent nothing differs but whether it has seen the event that it may wait for at `wfi` (spec/15 R401). -/
def Agent.sameButSeen (a b : Agent) : Prop := ∃ w, b = { a with wfiSeen := w }

theorem Agent.sameButSeen.refl (a : Agent) : a.sameButSeen a := ⟨_, rfl⟩

theorem Agent.sameButSeen.of_eq {a b : Agent} (h : b = a) : a.sameButSeen b := h ▸ .refl a

theorem Agent.sameButSeen.trans {a b c : Agent} : a.sameButSeen b → b.sameButSeen c → a.sameButSeen c := by
  rintro ⟨_, rfl⟩ ⟨_, rfl⟩
  exact ⟨_, rfl⟩

theorem Agent.sameButSeen.ite {a b c : Agent} {p : Prop} [Decidable p] (hb : a.sameButSeen b) (hc : a.sameButSeen c) :
    a.sameButSeen (if p then b else c) := by
  split
  · exact hb
  · exact hc

theorem State.recordSeen_me (s : State) (mod rid : Nat) : s.me.sameButSeen (s.recordSeen mod rid).me := .ite ⟨true, rfl⟩ (.refl _)

theorem State.hostRecord_me (s : State) (mod vif n ty rid : Nat) (words : List Word) : s.me.sameButSeen (s.hostRecord mod vif n ty rid words).me := by
  unfold State.hostRecord
  dsimp only
  split
  · split
    · exact State.recordSeen_me ..
    · exact .refl _
  · exact .refl _

theorem State.frqWrite_me (s : State) (r : Region) (loc : Loc) (words : List Word) : s.me.sameButSeen (s.frqWrite r loc words).me := by
  unfold State.frqWrite
  dsimp only
  split
  case h_1 c u read => exact .of_eq ((congrArg (·.2.me) read).symm.trans (s.vread_me ..))
  case h_2 bs u read =>
    have head : u.me = s.me := (congrArg (·.2.me) read).symm.trans (s.vread_me ..)
    split
    · exact .of_eq ((u.vwrite_me ..).trans head)
    · split
      case h_1 c v written => exact .of_eq (((congrArg (·.2.me) written).symm.trans (u.vwrite_me ..)).trans head)
      case h_2 v written =>
        have body : v.me = s.me := ((congrArg (·.2.me) written).symm.trans (u.vwrite_me ..)).trans head
        exact Agent.sameButSeen.trans (.of_eq (by simp only [State.release_me, State.vwrite_me, body])) (State.recordSeen_me ..)

theorem State.recordAs_me (s : State) (ty : Nat) (loc : Loc) (rid : Nat) (r : Record) : s.me.sameButSeen (s.recordAs ty loc rid r).me := by
  unfold State.recordAs
  split
  case h_1 => exact .refl _
  case h_2 d found =>
    have counted := State.updRegion_me s loc.mod d.rid fun r => { r with frSeen := r.frSeen + 1 }
    dsimp only
    split
    · exact counted ▸ State.hostRecord_me ..
    · exact counted ▸ State.frqWrite_me ..

theorem State.record_me (s : State) (loc : Loc) (rid : Nat) (r : Record) : s.me.sameButSeen (s.record loc rid r).me := State.recordAs_me ..

theorem State.foldl_seen {α : Type} {g : State → α → State} (step : ∀ (s : State) (a : α), s.me.sameButSeen (g s a).me) :
    ∀ (l : List α) (s : State), s.me.sameButSeen (l.foldl g s).me
  | [], s => .refl s.me
  | a :: l, s => (step s a).trans (State.foldl_seen step l (g s a))

theorem State.reap_me (s : State) (sid : Nat) : (s.reap sid).me = s.me := by
  unfold State.reap
  split <;> rfl

theorem State.settleSat_me (s : State) (sid : Nat) : s.me.sameButSeen (s.settleSat sid).me := by
  unfold State.settleSat
  split
  · exact .refl _
  · split
    · exact .refl _
    · split
      · exact (State.recordAs_me ..).trans (.of_eq (State.reap_me ..))
      · exact .of_eq (State.reap_me ..)

theorem State.detachAll_me (s : State) (uid : Nat) : s.me.sameButSeen (s.detachAll uid).me := State.foldl_seen State.settleSat_me ..

/-! ### A trap in a handler (spec/15 R374) -/

theorem Agent.sameButSeen.uid {a b : Agent} : a.sameButSeen b → b.uid = a.uid := by rintro ⟨_, rfl⟩; rfl

theorem Agent.sameButSeen.life {a b : Agent} : a.sameButSeen b → b.life = a.life := by rintro ⟨_, rfl⟩; rfl

theorem State.updAgent_uid {s : State} {uid : Nat} (mine : s.me.uid = uid) (f : Agent → Agent) : s.updAgent uid f = s.upd f := if_pos mine

theorem State.abandonEntry_uid (s : State) (f : Nat) : (s.abandonEntry s.me.uid f).me.uid = s.me.uid :=
  congrArg (·.me.uid) (State.updAgent_uid (s := s.freeSends s.me.uid (· == f)) rfl _)

/-- The end of an agent after the records of its failures: its satellites become detached, and it exits. -/
theorem State.ends_exited {s : State} {uid : Nat} (mine : s.me.uid = uid) (a : Agent) (l : List Failure) :
    (((l.foldl (fun s f => s.record a.loc a.rid (failureRecord s a f.trap)) s).detachAll uid).updAgent uid Agent.goneSending).me.life = .exited := by
  have records := State.foldl_seen (fun t (f : Failure) => t.record_me a.loc a.rid (failureRecord t a f.trap)) l s
  rw [State.updAgent_uid ((State.detachAll_me ..).uid.trans (records.uid.trans mine))]
  rfl

theorem State.endHandler_life (s : State) (cut : Option Nat) : (s.endHandler s.me.uid cut).me.life = .exited := by
  unfold State.endHandler
  rw [State.agent?_me]
  cases cut with
  | none => exact State.ends_exited rfl ..
  | some f => exact State.ends_exited (s.abandonEntry_uid f) ..

theorem State.handlerTrap_life (s : State) (t : Trap) : (s.handlerTrap t).me.life = .exited := by
  have traced : (s.traceState s.me 7 t.cause).me.uid = s.me.uid := congrArg Agent.uid (State.trace_frame ..).me
  refine (State.recordAs_me ..).life.trans ?_
  rw [← traced]
  exact State.endHandler_life ..

/-! ### A trap in a thread (spec/15 R373) -/

/-- A context image is written: the agent is queued, saved and held as asked (spec/15 R379). -/
theorem State.shelve_saved {s t : State} {hold : Bool} {rec : List Word} {r : Region} (region : s.region? s.me.loc.mod s.me.rid = some r)
    (saved : s.savePieces r s.me.loc (imageBase r s.me.tid) (imagePieces s s.me hold rec) = (.ok (), t)) :
    (s.shelve s.me.uid hold rec).me = s.me.shelved hold (t.meridian s.me.loc.mod) := by
  have same : t.me = s.me := (congrArg (·.2.me) saved).symm.trans (State.savePieces_me ..)
  unfold State.shelve
  rw [State.agent?_me]
  simp only [region, saved]
  refine (State.enqueue_frame ..).me.trans ?_
  rw [State.updAgent_uid (congrArg Agent.uid same), State.upd_me, same]

theorem Agent.atPoint_of_none {a : Agent} (empty : a.failures = []) : a.atPoint = { a with life := .ready } := by
  have same : a.failures.map (fun f => { f with armed := true }) = a.failures := by rw [empty]; rfl
  rw [Agent.atPoint, same]

/-- The stream of a thread that a trap of the supervisor stops: the stop of a vector-stream trap is marked as taken. -/
def State.stoppedAway (w : State) (t : Trap) : State :=
  let v := (w.traceState w.me 4 t.cause).stopStream w.me.uid
  if t.stream then v.upd fun a => { a with vstop := a.vstop.map fun q => { q with taken := true } } else v

theorem State.stopStream_regions (s : State) : (s.stopStream s.me.uid).regions = s.regions := by
  simp only [State.stopStream, State.releaseSends, State.abandonRemote, State.updAgent, State.freeSends, if_true]

theorem State.traceState_frame (s : State) (a : Agent) (st cause : Nat) : s.sameButTrace (s.traceState a st cause) := State.trace_frame ..

theorem State.sameButTrace.regions {s t : State} : s.sameButTrace t → t.regions = s.regions := by rintro ⟨_, _, _, _, rfl⟩; rfl

/-- Such a stop changes of the agent its queue and the mark alone, and no region. -/
theorem State.stoppedAway_frame (w : State) (t : Trap) :
    (∃ q v, (w.stoppedAway t).me = { w.me with queue := q, vstop := v }) ∧ (w.stoppedAway t).regions = w.regions := by
  have traced := w.traceState_frame w.me 4 t.cause
  have same := traced.me
  have stopped := (w.traceState w.me 4 t.cause).stopStream_me
  have regions := (w.traceState w.me 4 t.cause).stopStream_regions
  rw [same] at stopped regions
  have regions := regions.trans traced.regions
  unfold State.stoppedAway
  dsimp only
  split
  · exact ⟨⟨_, _, by rw [State.upd_me, stopped]⟩, regions⟩
  · exact ⟨⟨_, _, stopped⟩, regions⟩

/-- A trap of the supervisor whose image is written, with what the record's arrival changes of the agent. -/
theorem State.supervisorTrap_saved {w t' : State} {t : Trap} {r : Region} (other : t.cause ≠ 0x20) (region : w.region? w.me.loc.mod w.me.rid = some r)
    (saved : (w.stoppedAway t).savePieces r w.me.loc (imageBase r w.me.tid) (imagePieces (w.stoppedAway t) (w.stoppedAway t).me true
      (trapRecord w w.me t).words) = (.ok (), t')) :
    ∃ now, ((w.stoppedAway t).me.shelved true now).sameButSeen (w.supervisorTrap t).me := by
  obtain ⟨⟨q, v, me⟩, regions⟩ := w.stoppedAway_frame t
  have shelved := State.shelve_saved (s := w.stoppedAway t) (hold := true) (rec := (trapRecord w w.me t).words) (r := r) (t := t')
    (by rw [State.region?, regions, me]; exact region) (by rw [me] at saved ⊢; exact saved)
  have uid : (w.stoppedAway t).me.uid = w.me.uid := by rw [me]
  rw [uid] at shelved
  refine ⟨_, (Agent.sameButSeen.of_eq shelved).trans ?_⟩
  have body : w.supervisorTrap t = let s := (w.stoppedAway t).shelve w.me.uid true (trapRecord w w.me t).words
      if s.me.saved && s.me.life == .queued then s.record w.me.loc w.me.rid (trapRecord w w.me t) else s := by
    simp only [State.supervisorTrap, if_neg other]
    rfl
  rw [body]
  dsimp only
  split
  · exact State.record_me ..
  · exact .refl _

/-- Settles O27: the image of the stopped thread is written by `State.supervisorTrap_saved`, and what a handler has left behind goes by `State.endHandler_life`. -/
theorem supervisorTrapStopsTheThread : Obligations.SupervisorTrapStopsTheThread := by
  refine ⟨?thread, ?handler⟩
  case thread =>
    intro s t' t r low away done thread other free region w v u saved b
    have point : s.me.atPoint = { s.me with life := .ready } := Agent.atPoint_of_none free.1
    have here : s.upd (fun a => a.atPoint.dropEvent t) = w := by
      rw [State.upd, point]
      rfl
    have taken : s.takeTrap t = w.supervisorTrap t := by
      rw [State.takeTrap_undisturbed done free, State.enterTrap_supervisor (s := s.upd fun a => a.atPoint.dropEvent t) away low thread, here]
    obtain ⟨now, seen, me⟩ := State.supervisorTrap_saved (w := w) other region saved
    obtain ⟨⟨q, x, stopped⟩, -⟩ := w.stoppedAway_frame t
    have final : b = _ := (congrArg State.me taken).trans me
    rw [final, stopped]
    exact ⟨rfl, rfl, rfl, rfl, rfl, rfl, rfl, rfl, rfl, rfl, rfl, rfl⟩
  case handler =>
    intro s t low away done handler free
    rw [State.takeTrap_undisturbed done free, State.enterTrap_handler (s := s.upd fun a => a.atPoint.dropEvent t) away low handler]
    exact State.handlerTrap_life ..

end Sys2Proof.Machine
end

section
/-! The return from a user trap (spec/15 R371, R372). -/

namespace Sys2Proof.Machine

/-! ### `rett` (spec/15 R371) -/

/-- The body of `rett`. -/
def rettBody (s : State) : Res :=
  if !s.me.uta then s.fail 0x01
  else if !s.me.userDone then .hold s
  else .goto (s.upd Agent.leaveUser) (s.upd Agent.leaveUser).me.pc

theorem evenPc_evenPc (v : Word) : v &&& ~~~1 &&& ~~~1 = v &&& ~~~1 := by rw [BitVec.and_assoc, BitVec.and_self]

theorem exec_rett_privileged (h : Hdr) (s : State) : exec (.rett h) s = s.privileged (s.me.uta || s.me.level != 0) (s.issue h {} rettBody) := rfl

theorem Agent.userDone_iff {a : Agent} : a.userDone = true ↔ ∀ e ∈ a.queue, e.seq < a.userSeq := by
  simp [Agent.userDone]

section
variable {s : State} {h : Hdr} (uta : s.me.uta = true)
include uta

theorem exec_rett_user : exec (.rett h) s = s.issue h {} rettBody := State.privileged_passes (exec_rett_privileged h s) (by rw [uta]; rfl)

theorem rett_holds (left : ∃ e ∈ s.me.queue, s.me.userSeq ≤ e.seq) : s.holds (.rett h) := by
  obtain ⟨e, here, late⟩ := left
  have waits : ¬ s.me.userDone = true := fun done => absurd (Agent.userDone_iff.mp done e here) (Nat.not_lt.mpr late)
  exact (exec_rett_user uta).trans (State.issue_hold rfl ((if_neg (by rw [uta]; decide)).trans (if_pos (by simpa using waits))))

theorem rett_returns (done : ∀ e ∈ s.me.queue, e.seq < s.me.userSeq) (plain : h.wait = false) :
    exec (.rett h) s = .next (s.upd fun a => { a.leaveUser with
      pc := a.leaveUser.pc &&& ~~~1, issued := (a.leaveUser.issued + 1) % 2 ^ 64, order := a.leaveUser.order + 1 }) := by
  refine (exec_rett_user uta).trans ((State.issue_goto rfl
    ((if_neg (by rw [uta]; decide)).trans (if_neg (by simpa using Agent.userDone_iff.mpr done)))).trans ?_)
  rw [plain]
  rfl

end

theorem Agent.leaveUser_plain {a : Agent} (none : a.aside = none) :
    a.leaveUser = { a with uta := false, late := a.late.map Trap.held, pc := a.uepc &&& ~~~1 } := by
  simp only [Agent.leaveUser, none]

theorem Agent.leaveUser_aside {a : Agent} {r : Aside} (some : a.aside = some r) : ∃ life nextSeq, a.leaveUser = { a with
    uta := false, late := a.late.map Trap.held, queue := r.queue.map fun e => a.resumeEra r.era (a.refreshF r.f e), done := r.done, vl := r.vl, pc := r.pc,
    aside := none, vfmcLog := r.log, life := life, marked := r.marked, nextSeq := nextSeq } := by
  simp only [Agent.leaveUser, some]
  exact ⟨_, _, rfl⟩

theorem Agent.resumed_seq (a : Agent) (f era : Nat) (e : Entry) : (a.resumeEra era (a.refreshF f e)).seq = e.seq := by
  unfold Agent.resumeEra Agent.refreshF
  split <;> split <;> rfl

theorem Agent.resumed_instr (a : Agent) (f era : Nat) (e : Entry) : (a.resumeEra era (a.refreshF f e)).instr = e.instr := by
  unfold Agent.resumeEra Agent.refreshF
  split <;> split <;> rfl

/-- Entry F comes back with the rounding mode, `SP` and enables as they stand (spec/15 R371). -/
theorem Agent.resumed_first (a : Agent) {f era : Nat} {e : Entry} (first : e.seq = f) :
    (a.resumeEra era (a.refreshF f e)).rm = a.fprm ∧ (a.resumeEra era (a.refreshF f e)).sp = a.fpsp ∧ (a.resumeEra era (a.refreshF f e)).en = a.fpen := by
  unfold Agent.resumeEra Agent.refreshF
  rw [if_pos first]
  split <;> exact ⟨rfl, rfl, rfl⟩

/-- Settles O28: `rett` traps, waits or returns, and THE RETURN FROM A USER TRAP is by whether a residue is set aside. -/
theorem returnFromUserTrap : Obligations.ReturnFromUserTrap := by
  intro s h
  refine ⟨fun clear user => ?_, fun clear above => ?_, rett_holds, fun uta done none plain => ?plain, fun r uta empty aside plain unmarked => ?aside⟩
  · exact State.privileged_traps (exec_rett_privileged h s) (by rw [clear, user]; rfl)
  · exact State.traps_of_issue (State.privileged_passes (exec_rett_privileged h s) (by simp [above])) rfl (if_pos (by rw [clear]; rfl))
  case plain =>
    refine ⟨_, rett_returns uta done plain, ?_⟩
    rw [State.upd, Agent.leaveUser_plain none]
    exact ⟨rfl, evenPc_evenPc _, rfl, rfl, rfl, rfl, rfl, rfl, rfl, rfl, rfl, rfl, rfl⟩
  case aside =>
    refine ⟨_, rett_returns uta (by simp [empty]) plain, ?_⟩
    obtain ⟨life, nextSeq, left⟩ := Agent.leaveUser_aside aside
    rw [State.upd, left]
    refine ⟨rfl, rfl, rfl, rfl, rfl, ?_, ?_, ?_, rfl, rfl, rfl, rfl⟩
    · simp [Agent.resumed_seq, Function.comp_def]
    · simp [Agent.resumed_instr, Function.comp_def]
    · simp only [List.mem_map]
      rintro e ⟨q, -, rfl⟩ first
      exact s.me.resumed_first (by rwa [Agent.resumed_seq] at first)

end Sys2Proof.Machine
end

section
/-! The events of a boundary in their order (spec/15 R377). -/

namespace Sys2Proof.Machine

/-! ### The first pending event of a ready agent (spec/15 R377) -/

section
variable {s : State} (ready : s.me.life = .ready)
include ready

theorem State.boundaryTrap_ready (t : Trap) : s.boundaryTrap t = (s.upd fun a => { a with life := .ready }).takeTrap t := by
  have awake : s.wakes s.me = s := by rw [State.wakes, ready]
  simp only [State.boundaryTrap, awake, ite_self]

theorem State.boundaryTrap_undisturbed {t : Trap} (done : s.me.mustWait t = false) (free : s.nothingDue) :
    s.boundaryTrap t = (s.upd fun a => ({ a with life := .ready } : Agent).dropEvent t).enterTrap t := by
  have point : (s.upd fun a => { a with life := .ready }).me.atPoint = _ := Agent.atPoint_of_none free.1
  rw [State.boundaryTrap_ready ready, State.takeTrap_undisturbed (s := s.upd fun a => { a with life := .ready }) done free, State.upd, point]
  rfl

theorem State.nextEvent_debug {t : Trap} (stop : s.me.debugStop = some t) : s.nextEvent = some (s.boundaryTrap (s.me.hereTrap t)) := by
  simp only [State.nextEvent, ready, stop]

variable (quiet : s.me.debugStop = none)
include quiet

theorem State.nextEvent_code (code : s.codeStops ≠ []) :
    s.nextEvent = some (s.watchCode.debugStop s.codeStops (issueTrap 0x20 s.me.pc 0 0)) := by
  have some : (!s.codeStops.isEmpty) = true := by simpa using code
  simp only [State.nextEvent, ready, quiet, some, if_true]

variable (noCode : s.codeStops = [])
include noCode

/-- The stop of the stream is taken once every cluster has come to entry F (spec/02 R43). -/
theorem State.nextEvent_settled {v : VStop} (stop : s.me.vstop = some v) (settled : ∀ d ∈ s.me.done, v.seq ≤ d) :
    s.nextEvent = some (s.boundaryTrap (s.me.stopTrap v)) := by
  have all : s.me.settled v = true := by simpa [Agent.settled] using settled
  simp [State.nextEvent, ready, quiet, noCode, Agent.streamTrap, stop, all]

/-- Until then nothing later is. -/
theorem State.nextEvent_stopping {v : VStop} (stop : s.me.vstop = some v) (short : ∃ d ∈ s.me.done, d < v.seq) : s.nextEvent = none := by
  have some : s.me.settled v = false := by simpa [Agent.settled] using short
  simp [State.nextEvent, ready, quiet, noCode, Agent.streamTrap, Agent.stopping, stop, some]

variable (runs : s.me.vstop = none)
include runs

theorem State.nextEvent_failure {f : Failure} (failed : s.me.failures.find? Failure.armed = some f) :
    s.nextEvent = some (s.boundaryTrap (s.me.hereTrap f.trap)) := by
  simp [State.nextEvent, ready, quiet, noCode, Agent.streamTrap, Agent.stopping, runs, Agent.failure?, failed]

variable (sound : s.me.failures.find? Failure.armed = none)
include sound

theorem State.nextEvent_limit (limit : s.me.cycleLimit = true) : s.nextEvent = some (s.boundaryTrap (s.me.hereTrap ⟨0x24, 0, 0, 0, false, 0⟩)) := by
  simp [State.nextEvent, ready, quiet, noCode, Agent.streamTrap, Agent.stopping, runs, Agent.failure?, sound, limit]

variable (within : s.me.cycleLimit = false)
include within

theorem State.nextEvent_late {u : Trap} (late : s.me.late? = some u) : s.nextEvent = some (s.boundaryTrap (s.me.hereTrap { u with seq := 0 })) := by
  simp [State.nextEvent, ready, quiet, noCode, Agent.streamTrap, Agent.stopping, runs, Agent.failure?, sound, within, late]

theorem State.nextEvent_preempt (calm : s.me.late? = none) :
    s.nextEvent = if s.me.preempt && !s.me.isHandler then some s.boundaryPreempt else none := by
  simp [State.nextEvent, ready, quiet, noCode, Agent.streamTrap, Agent.stopping, runs, Agent.failure?, sound, within, calm]

end

/-! ### Asynchronous causes (spec/15 R372, R377) -/

theorem find?_first {α : Type} {p : α → Bool} {before after : List α} {u : α} (here : p u = true) (none : ∀ q ∈ before, p q = false) :
    (before ++ u :: after).find? p = some u :=
  List.find?_eq_some_iff_append.mpr ⟨here, before, after, rfl, fun q mem => by rw [none q mem]; rfl⟩

theorem Agent.late?_none {a : Agent} (held : a.uta = true ∨ a.late = []) : a.late? = none := by
  obtain uta | empty := held
  · exact if_pos uta
  · simp [Agent.late?, empty]

theorem Agent.late?_pending {a : Agent} (clear : a.uta = false) (fresh : ∀ q ∈ a.late, q.seq ≠ 1) :
    a.late? = (match a.late.find? fun t => t.cause == 0x26 with
      | some t => some t
      | none => a.late.head?) := by
  have none : a.late.find? (fun t => t.seq == 1) = none := find_none fun q mem => by simpa using fresh q mem
  simp only [Agent.late?, clear, none]
  rfl

section
variable {a : Agent} (clear : a.uta = false) {before after : List Trap} {u : Trap} (late : a.late = before ++ u :: after)
include clear late

/-- Those held while `UTA` was set come in their arrival order. -/
theorem Agent.late?_held (held : u.seq = 1) (first : ∀ q ∈ before, q.seq ≠ 1) : a.late? = some u := by
  have found : a.late.find? (fun t => t.seq == 1) = some u := by
    rw [late]
    exact find?_first (by simpa using held) fun q mem => by simpa using first q mem
  simp [Agent.late?, clear, found]

variable (fresh : ∀ q ∈ a.late, q.seq ≠ 1)
include fresh

theorem Agent.late?_missed (missed : u.cause = 0x26) (first : ∀ q ∈ before, q.cause ≠ 0x26) : a.late? = some u := by
  have found : a.late.find? (fun t => t.cause == 0x26) = some u := by
    rw [late]
    exact find?_first (by simpa using missed) fun q mem => by simpa using first q mem
  rw [Agent.late?_pending clear fresh, found]

theorem Agent.late?_first (head : before = []) (none : ∀ q ∈ a.late, q.cause ≠ 0x26) : a.late? = some u := by
  have nowhere : a.late.find? (fun t => t.cause == 0x26) = Option.none := find_none fun q mem => by simpa using none q mem
  rw [Agent.late?_pending clear fresh, nowhere, late, head]
  rfl

end

theorem dropOne_first {α : Type} [DecidableEq α] {u : α} {after : List α} : ∀ {before : List α}, u ∉ before → dropOne u (before ++ u :: after) = before ++ after
  | [], _ => if_pos rfl
  | q :: l, other => by
    rw [List.mem_cons, not_or] at other
    exact (if_neg (Ne.symm other.1)).trans (congrArg (q :: ·) (dropOne_first other.2))

/-- Such a cause is pending no more as its trap is taken, and the rest stay (spec/15 R377). -/
theorem Agent.dropEvent_late {a : Agent} {before after : List Trap} {u : Trap} (late : a.late = before ++ u :: after)
    (other : ∀ q ∈ before, ¬ (q.cause = u.cause ∧ q.addr = u.addr ∧ q.info = u.info)) :
    (a.dropEvent (a.hereTrap { u with seq := 0 })).late = before ++ after := by
  have found : a.late.find? (fun q => q.cause == u.cause && q.addr == u.addr && q.info == u.info) = some u := by
    rw [late]
    exact find?_first (by simp) fun q mem => by simpa [and_assoc] using other q mem
  have gone : (a.dropEvent (a.hereTrap { u with seq := 0 })).late = dropOne u a.late := by
    simp only [Agent.dropEvent, Agent.hereTrap, found]
  rw [gone, late, dropOne_first fun mem => other u mem ⟨rfl, rfl, rfl⟩]

theorem Agent.dropEvent_debugStop {a : Agent} {t : Trap} (stop : a.debugStop = some t) : (a.dropEvent (a.hereTrap t)).debugStop = none := by
  simp [Agent.dropEvent, Agent.hereTrap, stop]

/-- Settles O29: `State.nextEvent` by the first of its events that is pending. -/
theorem boundaryTakesEventsInOrder : Obligations.BoundaryTakesEventsInOrder := by
  intro s ready a takes same
  have event {t : State} (next : s.nextEvent = some t) : takes t := by
    refine (exec_eventBoundary_me s).trans ?_
    rw [next]
    rfl
  have none (next : s.nextEvent = none) : takes s := by
    refine (exec_eventBoundary_me s).trans ?_
    rw [next]
    rfl
  refine ⟨fun t => State.boundaryTrap_undisturbed ready, fun t stop => ⟨event (State.nextEvent_debug ready stop), Agent.dropEvent_debugStop stop⟩,
    fun quiet code => event (State.nextEvent_code ready quiet code),
    fun quiet noCode v stop => ⟨fun settled => event (State.nextEvent_settled ready quiet noCode stop settled),
      fun short => none (State.nextEvent_stopping ready quiet noCode stop short)⟩, fun quiet noCode runs => ⟨?failure, fun sound => ⟨?limit, fun within => ⟨?late, ?last⟩⟩⟩⟩
  case failure => exact fun f failed => event (State.nextEvent_failure ready quiet noCode runs failed)
  case limit => exact fun limit => ⟨event (State.nextEvent_limit ready quiet noCode runs sound limit), by simp [Agent.dropEvent, Agent.hereTrap]⟩
  case late =>
    intro clear before u after late order
    have first : s.me.late? = some u := by
      obtain ⟨held, first⟩ | ⟨fresh, ⟨missed, first⟩ | ⟨head, other⟩⟩ := order
      · exact Agent.late?_held clear late held first
      · exact Agent.late?_missed clear late fresh missed first
      · exact Agent.late?_first clear late fresh head other
    exact ⟨event (State.nextEvent_late ready quiet noCode runs sound within first), Agent.dropEvent_late late⟩
  case last =>
    intro held
    have next := State.nextEvent_preempt ready quiet noCode runs sound within (Agent.late?_none held)
    refine ⟨fun preempt thread => event (next.trans (if_pos ?_)), fun stays => none (next.trans (if_neg ?_))⟩
    · rw [preempt, thread]; rfl
    · obtain calm | handler := stays
      · rw [calm]; simp
      · rw [handler]; simp

end Sys2Proof.Machine
end

section
/-! Privileged registers, shoot-downs, cache maintenance, `wfi` and `pstate` (spec/15 R367, R391 to R394, R401, R402). -/

namespace Sys2Proof.Machine

theorem State.level_above {s : State} (above : s.me.level ≠ 0) : (s.me.level != 0) = true := bne_iff_ne.mpr above

/-! ### `mfpr` and `mtpr` (spec/15 R367) -/

/-- The body of `mfpr`. -/
def mfprBody (o : CRN) (s : State) : Res :=
  match s.prCause (prRead o.i.nat) with
  | some c => s.fail c
  | none => .ok (s.setX o.a (s.prWord o.i.nat))

/-- The body of `mtpr`. -/
def mtprBody (o : CRN) (s : State) : Res :=
  match s.prCause (prWrite o.i.nat) with
  | some c => s.fail c
  | none =>
    if o.i.nat = 0x104 then .ok (s.upd fun a => { a with pscratch := s.x o.a })
    else if s.x o.a = 0 then .ok (s.updCore s.me.loc fun c => { c with mchk := 0 })
    else .ok s

theorem exec_mfpr (h : Hdr) (o : CRN) (s : State) : exec (.mfpr h o) s = s.privileged (s.me.level != 0) (s.issue h { xw := [o.a] } (mfprBody o)) := rfl
theorem exec_mtpr (h : Hdr) (o : CRN) (s : State) : exec (.mtpr h o) s = s.privileged (s.me.level != 0) (s.issue h { xr := [o.a] } (mtprBody o)) := rfl
theorem exec_mtprMchkClear (h : Hdr) (o : CRN) (s : State) :
    exec (.mtprMchkClear h o) s = s.privileged (s.me.level != 0) (s.issue h { xr := [o.a] } (mtprBody o)) := rfl

/-- A privileged register that the level reaches, and one that it does not. -/
theorem State.prCause_reached {s : State} {l : Nat} (low : l ≤ s.me.level) : s.prCause (some l) = none := if_neg (Nat.not_lt.mpr low)
theorem State.prCause_above {s : State} {l : Nat} (high : s.me.level < l) : s.prCause (some l) = some 0x1D := if_pos high

theorem prWrite_other {n : Nat} (scratch : n ≠ 0x104) (check : n ≠ 0x180) : prWrite n = none := (if_neg scratch).trans (if_neg check)

section
variable {s : State} {o : CRN}

theorem mtprBody_scratch (above : s.me.level ≠ 0) (n : o.i.nat = 0x104) :
    mtprBody o s = .ok (s.upd fun a => { a with pscratch := s.x o.a }) := by
  have reached : s.prCause (prWrite o.i.nat) = none := by rw [n]; exact State.prCause_reached (Nat.pos_of_ne_zero above)
  simp only [mtprBody, reached]
  exact if_pos n

theorem mtprBody_check (machine : 3 ≤ s.me.level) (n : o.i.nat = 0x180) :
    mtprBody o s = if s.x o.a = 0 then .ok (s.updCore s.me.loc fun c => { c with mchk := 0 }) else .ok s := by
  have reached : s.prCause (prWrite o.i.nat) = none := by rw [n]; exact State.prCause_reached machine
  simp only [mtprBody, reached]
  exact if_neg (by rw [n]; decide)

theorem mtprBody_fails {c : Nat} (cause : s.prCause (prWrite o.i.nat) = some c) : mtprBody o s = s.fail c := by simp only [mtprBody, cause]

end

/-- Either row of `mtpr` (log entry 11). -/
theorem mtpr_row {s : State} {h : Hdr} {o : CRN} {i : Instr} (row : i ∈ [Instr.mtpr h o, .mtprMchkClear h o]) (above : s.me.level ≠ 0) :
    exec i s = s.issue h { xr := [o.a] } (mtprBody o) := by
  simp only [List.mem_cons, List.not_mem_nil, or_false] at row
  obtain rfl | rfl := row
  · exact State.privileged_passes (exec_mtpr ..) (State.level_above above)
  · exact State.privileged_passes (exec_mtprMchkClear ..) (State.level_above above)

/-- `mtpr` at a level above U, register by register. -/
theorem mtpr_writes {s : State} {h : Hdr} {o : CRN} (above : s.me.level ≠ 0) (idle : s.notPending [o.a] []) :
    ∀ i ∈ [Instr.mtpr h o, .mtprMchkClear h o],
      (o.i.nat = 0x104 → s.completes i h (s.upd fun a => { a with pscratch := s.x o.a })) ∧
      (o.i.nat = 0x180 → 3 ≤ s.me.level → s.x o.a = 0 → s.completes i h (s.updCore s.me.loc fun c => { c with mchk := 0 })) ∧
      (o.i.nat = 0x180 → 3 ≤ s.me.level → s.x o.a ≠ 0 → s.completes i h s) ∧
      (o.i.nat = 0x180 → s.me.level < 3 → s.traps i 0x1D 0 0) ∧
      (o.i.nat ≠ 0x104 → o.i.nat ≠ 0x180 → s.traps i 0x01 0 0) := by
  intro i row
  have issues := mtpr_row row above
  have hz : s.me.hazard { xr := [o.a] } = none := idle.hazard rfl rfl
  refine ⟨fun n => ?_, fun n machine zero => ?_, fun n machine other => ?_, fun n low => ?_, fun scratch check => ?_⟩
  · exact State.completes_of_issue issues hz (mtprBody_scratch above n)
  · exact State.completes_of_issue issues hz ((mtprBody_check machine n).trans (if_pos zero))
  · exact State.completes_of_issue issues hz ((mtprBody_check machine n).trans (if_neg other))
  · exact State.traps_of_issue issues hz (mtprBody_fails (by rw [n]; exact State.prCause_above low))
  · exact State.traps_of_issue issues hz (mtprBody_fails (by rw [prWrite_other scratch check]; rfl))

/-- `mfpr` at a level above U. -/
theorem mfpr_reads {s : State} {h : Hdr} {o : CRN} (above : s.me.level ≠ 0) (idle : s.notPending [o.a] []) :
    (∀ l, prRead o.i.nat = some l → l ≤ s.me.level → s.completes (.mfpr h o) h (s.setX o.a (s.prWord o.i.nat))) ∧
    (∀ l, prRead o.i.nat = some l → s.me.level < l → s.traps (.mfpr h o) 0x1D 0 0) ∧
    (prRead o.i.nat = none → s.traps (.mfpr h o) 0x01 0 0) := by
  have issues := State.privileged_passes (exec_mfpr h o s) (State.level_above above)
  have hz : s.me.hazard { xw := [o.a] } = none := idle.hazard rfl rfl
  refine ⟨fun l read low => ?_, fun l read high => ?_, fun none => ?_⟩
  · exact State.completes_of_issue issues hz (by simp only [mfprBody, read, State.prCause_reached low])
  · exact State.traps_of_issue issues hz (by simp only [mfprBody, read, State.prCause_above high])
  · exact State.traps_of_issue issues hz (by simp only [mfprBody, none]; rfl)

theorem State.prWord_satellites (s : State) : (s.prWord 0x111).toNat ≤ 256 := by
  rw [State.prWord, BitVec.toNat_ofNat]
  exact (Nat.mod_le ..).trans (Nat.sub_le ..)

/-! ### `tlbi` (spec/15 R392) -/

/-- The interface of the thread is granted an address space. -/
def State.granted (s : State) (vif asid : Nat) : Bool :=
  s.vifs.any fun v => v.mod == s.me.loc.mod && v.vif == vif && decide (v.asidBase ≤ asid) && decide (asid < v.asidBase + v.asidCount)

/-- The body of `tlbi`. -/
def tlbiBody (o : TLB) (s : State) : Res :=
  let c := (s.x o.ext.c).toNat
  let vif := (s.myRegion.map Region.vif).getD 64
  if !s.granted vif (bits c 0 16) then s.fail 0x06
  else if bits c 18 46 != 0 then s.fail 0x01
  else match s.freeSatSlot s.me.loc s.me.rid with
    | none => s.fail 0x19
    | some slot =>
      .ok (s.createSat o.a slot 3 .shootdown (s.me.sattr &&& 0xF00) 0 0 true (.tlbi vif (bits c 0 16) (s.x o.b).toNat (bit c 16) (bit c 17)))

theorem exec_tlbi (h : Hdr) (o : TLB) (s : State) :
    exec (.tlbi h o) s = s.privileged (s.me.level != 0) (s.issue h { xr := [o.b, o.ext.c], xw := [o.a] } (tlbiBody o)) := rfl

/-- The bits of a doubleword from 18 on are zero exactly below 2^18. -/
theorem bits_18_46_eq_zero_iff (v : Word) : bits v.toNat 18 46 = 0 ↔ v.toNat < 2 ^ 18 := by
  have := v.isLt
  unfold bits
  omega

section
variable {s : State} {o : TLB} {r : Region} (region : s.myRegion = some r)
include region

theorem tlbiBody_foreign (other : s.granted r.vif ((s.x o.ext.c).toNat % 2 ^ 16) = false) : tlbiBody o s = s.fail 0x06 := by
  simp only [tlbiBody, region, Option.map_some, Option.getD_some, bits_zero, other]
  rfl

variable (own : s.granted r.vif ((s.x o.ext.c).toNat % 2 ^ 16) = true)
include own

theorem tlbiBody_reserved (large : 2 ^ 18 ≤ (s.x o.ext.c).toNat) : tlbiBody o s = s.fail 0x01 := by
  have bad : (bits (s.x o.ext.c).toNat 18 46 != 0) = true := bne_iff_ne.mpr fun zero => absurd ((bits_18_46_eq_zero_iff _).mp zero) (Nat.not_lt.mpr large)
  simp only [tlbiBody, region, Option.map_some, Option.getD_some, bits_zero, own, bad]
  rfl

theorem tlbiBody_sound (small : (s.x o.ext.c).toNat < 2 ^ 18) : tlbiBody o s = match s.freeSatSlot s.me.loc s.me.rid with
    | none => s.fail 0x19
    | some slot => .ok (s.createSat o.a slot 3 .shootdown (s.me.sattr &&& 0xF00) 0 0 true
        (.tlbi r.vif ((s.x o.ext.c).toNat % 2 ^ 16) (s.x o.b).toNat ((s.x o.ext.c).toNat.testBit 16) ((s.x o.ext.c).toNat.testBit 17))) := by
  have good : (bits (s.x o.ext.c).toNat 18 46 != 0) = false := bne_eq_false_iff_eq.mpr ((bits_18_46_eq_zero_iff _).mpr small)
  simp only [tlbiBody, region, Option.map_some, Option.getD_some, bits_zero, own, good]
  rfl

end

/-! ### TLBI_DONE (spec/17 R421) -/

theorem exec_tlbiDone (n : Nat) (s : State) : exec (.tlbiDone n) s = execTlbiDone n s := rfl

section
variable {s : State} {n : Nat} {t : Sat} {vif asid va : Nat} {allAsid allVif : Bool} (found : s.satIs n t)
  (task : t.task = .tlbi vif asid va allAsid allVif)
include found task

theorem tlbiDone_idle (idle : t.begun = false ∨ t.terminal = true) : s.gives (.tlbiDone n) s := by
  have idle : (!t.begun || t.terminal) = true := by simpa using idle
  simp only [State.gives, exec_tlbiDone, execTlbiDone, show s.sats.find? (fun q => q.sid == n) = some t from found, task, idle, if_true]

variable (begun : t.begun = true) (live : t.terminal = false)
include begun live

theorem tlbiDone_cancelled (cancel : t.cancel = true) : s.gives (.tlbiDone n) (s.endSat n 2 0 0 0) := by
  simp only [State.gives, exec_tlbiDone, execTlbiDone, show s.sats.find? (fun q => q.sid == n) = some t from found, task, begun, live, cancel]
  rfl

/-- What a probed access of the address space still has to do (spec/17 R421). -/
def State.probes (s : State) (mod vif asid : Nat) (allVif : Bool) : Bool :=
  (s.agents.any fun a => s.holdsProbe mod vif asid allVif a) || (s.sats.any fun d => s.drainsProbe mod vif asid allVif d)
    || s.deferred.any fun d => s.joinsProbe mod vif asid allVif d

variable (goesOn : t.cancel = false)
include goesOn

theorem tlbiDone_waits (probed : s.probes t.loc.mod vif asid allVif = true) : s.gives (.tlbiDone n) s := by
  unfold State.probes at probed
  simp only [State.gives, exec_tlbiDone, execTlbiDone, show s.sats.find? (fun q => q.sid == n) = some t from found, task, begun, live, goesOn, probed]
  rfl

theorem tlbiDone_drops (settled : s.probes t.loc.mod vif asid allVif = false) : s.gives (.tlbiDone n)
    ({ s.settleBursts t.loc.mod with
      tlb := (s.settleBursts t.loc.mod).tlb.filter fun e => !(e.loc.mod == t.loc.mod && tlbiNames vif asid va allAsid allVif e) }.endSat n 0 0 0 0) := by
  unfold State.probes at settled
  simp only [State.gives, exec_tlbiDone, execTlbiDone, show s.sats.find? (fun q => q.sid == n) = some t from found, task, begun, live, goesOn, settled]
  rfl

end

/-! ### `icinv` and `cflush` (spec/15 R393, R394) -/

/-- The body of `icinv`. -/
def icinvBody (s : State) : Res :=
  if !s.me.streamDone then .hold s
  else .ok { s with icache := s.icache.filter fun c => !(c.loc == s.mySpace.loc && c.vif == s.mySpace.vif && c.asid == s.mySpace.asid) }

theorem exec_icinv (h : Hdr) (s : State) : exec (.icinv h) s = s.issue h {} icinvBody := rfl

@[simp] theorem State.mySpace_loc (s : State) : s.mySpace.loc = s.me.loc := by
  unfold State.mySpace State.space
  split <;> rfl

theorem icinv_holds {s : State} {h : Hdr} (left : s.me.streamDone = false) : s.holds (.icinv h) := by
  have waits : icinvBody s = .hold s := if_pos (by rw [left]; rfl)
  exact (exec_icinv h s).trans (State.issue_hold rfl waits)

theorem icinv_drops {s : State} {h : Hdr} (done : s.me.streamDone = true) : s.completes (.icinv h) h
    { s with icache := s.icache.filter fun c => !(c.loc == s.me.loc && c.vif == s.mySpace.vif && c.asid == s.mySpace.asid) } := by
  have drops : icinvBody s = .ok _ := if_neg (by rw [done]; decide)
  rw [State.mySpace_loc] at drops
  exact State.completes_of_issue (exec_icinv h s) rfl drops

/-- The body of `cflush`. -/
def cflushBody (o : CFL) (s : State) : Res :=
  let b := (s.x o.b).toNat
  let n := (s.x o.ext.c).toNat
  if 2 ^ 40 < n then s.fail 0x01
  else if n = 0 then .ok s
  else .ok (State.flushLines o.ext.sel.toNat ((b % 128 + n + 127) / 128) s (b / 128 * 128))

theorem exec_cflush_body (h : Hdr) (o : CFL) (s : State) :
    exec (.cflush h o) s = s.privileged (s.me.level != 0 || o.ext.sel.toNat < 3 || 5 < o.ext.sel.toNat) (s.issue h { xr := [o.b, o.ext.c] } (cflushBody o)) :=
  rfl

theorem cflush_flushes {s : State} {h : Hdr} {o : CFL} (idle : s.notPending [o.b, o.ext.c] []) (level : s.me.level ≠ 0 ∨ o.ext.sel.toNat < 3) :
    (2 ^ 40 < (s.x o.ext.c).toNat → s.traps (.cflush h o) 0x01 0 0) ∧ ((s.x o.ext.c).toNat = 0 → s.completes (.cflush h o) h s) ∧
    (0 < (s.x o.ext.c).toNat → (s.x o.ext.c).toNat ≤ 2 ^ 40 → s.completes (.cflush h o) h
      (State.flushLines o.ext.sel.toNat (((s.x o.b).toNat % 128 + (s.x o.ext.c).toNat + 127) / 128) s ((s.x o.b).toNat / 128 * 128))) := by
  have issues := State.privileged_passes (exec_cflush_body h o s) (by obtain above | low := level <;> simp [*])
  have hz : s.me.hazard { xr := [o.b, o.ext.c] } = none := idle.hazard rfl rfl
  refine ⟨fun long => ?_, fun zero => ?_, fun some fits => ?_⟩
  · exact State.traps_of_issue issues hz (if_pos long)
  · exact State.completes_of_issue issues hz ((if_neg (by rw [zero]; decide)).trans (if_pos zero))
  · exact State.completes_of_issue issues hz ((if_neg (Nat.not_lt.mpr fits)).trans (if_neg (Nat.ne_of_gt some)))

/-! ### A line that leaves a remote-data cache (spec/01 R21) -/

/-- Of the caches nothing is new: the remote-data caches are as they were, and the data caches hold lines that they held. -/
def State.cachesKept (s t : State) : Prop := t.rdc = s.rdc ∧ ∀ d ∈ t.dcache, d ∈ s.dcache

theorem State.cachesKept.refl (s : State) : s.cachesKept s := ⟨rfl, fun _ => id⟩

theorem State.cachesKept.trans {s t u : State} (h : s.cachesKept t) (k : t.cachesKept u) : s.cachesKept u :=
  ⟨k.1.trans h.1, fun d here => h.2 d (k.2 d here)⟩

theorem State.foldl_cachesKept {α : Type} {g : State → α → State} (step : ∀ (s : State) (a : α), s.cachesKept (g s a)) :
    ∀ (l : List α) (s : State), s.cachesKept (l.foldl g s)
  | [], s => .refl s
  | a :: l, s => (step s a).trans (State.foldl_cachesKept step l (g s a))

theorem State.poke_cachesKept (s : State) (ep pa : Nat) (bs : List Byte) : s.cachesKept (s.poke ep pa bs) := ⟨rfl, fun _ here => (List.mem_filter.mp here).1⟩

theorem State.setLineKey_cachesKept (s : State) (ep line key : Nat) : s.cachesKept (s.setLineKey ep line key) := ⟨rfl, fun _ here => here⟩

theorem State.pokeAs_cachesKept (s : State) (ep key pa : Nat) (bs : List Byte) : s.cachesKept (s.pokeAs ep key pa bs) := by
  refine .trans ?_ (State.poke_cachesKept ..)
  unfold State.rekey
  split
  · exact .refl s
  · exact (s.poke_cachesKept ..).trans (State.setLineKey_cachesKept ..)

theorem State.storeError_cachesKept (s : State) (tag : StoreTag) (unit pa : Nat) : s.cachesKept (s.storeError tag unit pa) := by
  unfold State.storeError
  split
  · exact .refl s
  · exact ⟨rfl, fun _ here => here⟩

theorem State.writeBack_cachesKept (s : State) (l : RdcLine) (m : BitVec 128) : s.cachesKept (s.writeBack l m) := by
  have renewed : s.cachesKept (s.renewL2 l.ep l.line) := ⟨rfl, fun _ => id⟩
  unfold State.writeBack
  dsimp only
  split
  · exact .refl s
  · split
    · exact ⟨rfl, fun _ => id⟩
    · split
      · exact (renewed.trans (State.foldl_cachesKept (fun s t => s.storeError_cachesKept t _ _) ..)).trans
          (State.foldl_cachesKept (fun s _ => s.pokeAs_cachesKept ..) ..)
      · exact renewed.trans (State.foldl_cachesKept (fun s _ => s.pokeAs_cachesKept ..) ..)

/-- A line that has left is in that cache no more, and nothing has come to any cache. -/
theorem State.evictRdc_caches (s : State) (mod die ep line : Nat) :
    (s.evictRdc mod die ep line).rdc = s.rdc.filter (fun l => !(l.mod == mod && l.die == die && l.ep == ep && l.line == line)) ∧
      ∀ d ∈ (s.evictRdc mod die ep line).dcache, d ∈ s.dcache := by
  unfold State.evictRdc
  split
  case h_1 none =>
    refine ⟨(List.filter_eq_self.mpr fun l here => ?_).symm, fun _ => id⟩
    have other := List.find?_eq_none.mp none l here
    rw [Bool.eq_false_of_not_eq_true other]
    rfl
  case h_2 l found =>
    obtain ⟨rdc, dcache⟩ := s.writeBack_cachesKept l l.dirty
    exact ⟨congrArg _ rdc, fun d here => dcache d (List.mem_filter.mp here).1⟩

/-- A line that has left several remote-data caches of a module. -/
def State.evictDies (s : State) (mod ep line : Nat) (ds : List Nat) : State := ds.foldl (fun s d => s.evictRdc mod d ep line) s

theorem State.evictDies_caches (mod ep line : Nat) : ∀ (ds : List Nat) (s : State),
    (∀ l ∈ (s.evictDies mod ep line ds).rdc, l ∈ s.rdc ∧ ∀ d ∈ ds, (l.mod == mod && l.die == d && l.ep == ep && l.line == line) = false) ∧
      ∀ d ∈ (s.evictDies mod ep line ds).dcache, d ∈ s.dcache
  | [], s => ⟨fun l here => ⟨here, by simp⟩, fun _ => id⟩
  | die :: ds, s => by
    obtain ⟨first, firstData⟩ := s.evictRdc_caches mod die ep line
    obtain ⟨rest, restData⟩ := State.evictDies_caches mod ep line ds (s.evictRdc mod die ep line)
    refine ⟨fun l here => ?_, fun d here => firstData d (restData d here)⟩
    obtain ⟨left, others⟩ := rest l here
    rw [first, List.mem_filter] at left
    refine ⟨left.1, List.forall_mem_cons.mpr ⟨?_, others⟩⟩
    simpa only [Bool.not_eq_true'] using left.2

theorem State.evictDies_gone (s : State) {mod ep line die : Nat} {ds : List Nat} (here : die ∈ ds) :
    (s.evictDies mod ep line ds).rdc? mod die ep line = none :=
  find_none fun l mem => ((State.evictDies_caches mod ep line ds s).1 l mem).2 die here

theorem State.flushLine_counted {s : State} {sc pa : Nat} (counted : (s.counted? s.me.loc.mod (pa / 128)).isSome = true) : s.flushLine sc pa = s :=
  if_pos counted

/-- A line that is not counted goes from the core's data cache and from the remote-data caches that the scope names. -/
theorem State.flushLine_plain {s : State} {sc pa : Nat} (plain : (s.counted? s.me.loc.mod (pa / 128)).isSome = false) :
    s.flushLine sc pa = { s with
        dcache := s.dcache.filter fun d => !(d.loc == s.me.loc && d.ep == s.me.loc.mod && d.line == pa / 128) }.evictDies s.me.loc.mod s.me.loc.mod (pa / 128)
      (if sc < 2 then [] else if sc = 2 then [s.me.loc.die] else List.range 8) := if_neg (ne_true_of_eq_false plain)

theorem State.flushLine_drops {s : State} {sc pa : Nat} (plain : (s.counted? s.me.loc.mod (pa / 128)).isSome = false) :
    (∀ d ∈ (s.flushLine sc pa).dcache, d.loc = s.me.loc → d.ep = s.me.loc.mod → d.line ≠ pa / 128) ∧
    (sc < 2 → (s.flushLine sc pa).rdc = s.rdc ∧ (s.flushLine sc pa).mem = s.mem) ∧
    (sc = 2 → (s.flushLine sc pa).rdc? s.me.loc.mod s.me.loc.die s.me.loc.mod (pa / 128) = none) ∧
    (3 ≤ sc → ∀ d, d < 8 → (s.flushLine sc pa).rdc? s.me.loc.mod d s.me.loc.mod (pa / 128) = none) := by
  rw [State.flushLine_plain plain]
  refine ⟨fun d here loc ep line => ?_, fun core => ?_, fun die => ?_, fun all d small => ?_⟩
  · have left := (List.mem_filter.mp ((State.evictDies_caches _ _ _ _ _).2 d here)).2
    simp [loc, ep, line] at left
  · rw [if_pos core]
    exact ⟨rfl, rfl⟩
  · rw [if_neg (by omega), if_pos die]
    exact State.evictDies_gone _ (List.mem_singleton_self _)
  · rw [if_neg (by omega), if_neg (by omega)]
    exact State.evictDies_gone _ (List.mem_range.mpr small)

/-! ### `wfi` (spec/15 R401) -/

/-- The body of `wfi`. -/
def wfiBody (s : State) : Res :=
  .parkHere (s.upd fun a => { a with wfiSeen := a.wfiSeen && s.me.wfiFrom.any fun w => w.1 == s.me.pc, wfiFrom := some (a.pc, s.wfiEnd) }) (.wfi s.wfiEnd)

theorem exec_wfi (h : Hdr) (s : State) : exec (.wfi h) s = s.privileged (s.me.level != 0) (s.issue h {} wfiBody) := rfl

theorem wfi_parks {s : State} (h : Hdr) (above : s.me.level ≠ 0) : s.gives (.wfi h) (s.upd fun a =>
    { a with wfiSeen := a.wfiSeen && s.me.wfiFrom.any fun w => w.1 == s.me.pc, wfiFrom := some (a.pc, s.wfiEnd), life := .parked (.wfi s.wfiEnd) }) := by
  have parks := State.issue_park (s := s) (h := h) (n := {}) (body := wfiBody) rfl rfl
  exact (State.privileged_passes (exec_wfi h s) (State.level_above above)).trans parks

theorem State.wfiEnd_first {s : State} (first : ∀ w, s.me.wfiFrom = some w → w.1 ≠ s.me.pc) :
    s.wfiEnd = s.meridian s.me.loc.mod + 1000000 ∧ (s.me.wfiFrom.any fun w => w.1 == s.me.pc) = false := by
  unfold State.wfiEnd
  cases from_ : s.me.wfiFrom with
  | none => exact ⟨rfl, rfl⟩
  | some w => exact ⟨if_neg (first w from_), by simpa using first w from_⟩

theorem State.wfiEnd_again {s : State} {e : Nat} (again : s.me.wfiFrom = some (s.me.pc, e)) :
    s.wfiEnd = e ∧ (s.me.wfiFrom.any fun w => w.1 == s.me.pc) = true := by
  simp [State.wfiEnd, again]

/-! ### `pstate` (spec/15 R402) -/

/-- The request of `pstate`. -/
def State.pstateRequest (s : State) (o : RB) : Nat :=
  match o.t with
  | .reg b => (s.x b).toNat
  | .imm i => i.nat

/-- The body of `pstate`. -/
def pstateBody (o : RB) (s : State) : Res :=
  let r := s.pstateRequest o
  if 16 ≤ r then s.fail 0x01
  else
    let t := if bit r 3 then s.setCeiling (r % 8) else s
    .ok (t.setX o.a t.pstateWord)

theorem exec_pstateSet (h : Hdr) (o : RB) (s : State) : exec (.pstateSet h o) s = s.issue h { xr := RegImm.regs o.t, xw := [o.a] } (pstateBody o) := by
  obtain ⟨a, t⟩ := o
  cases t <;> rfl
theorem exec_pstateRead (h : Hdr) (o : RB) (s : State) : exec (.pstateRead h o) s = s.issue h { xr := RegImm.regs o.t, xw := [o.a] } (pstateBody o) := by
  obtain ⟨a, t⟩ := o
  cases t <;> rfl

theorem bit_3_eq_false {r : Nat} (small : r < 8) : bit r 3 = false := Nat.testBit_lt_two_pow small

theorem bit_3_eq_true {r : Nat} (large : 8 ≤ r) (fits : r < 16) : bit r 3 = true := by
  rw [bit, Nat.testBit_eq_decide_div_mod_eq, decide_eq_true_eq]
  omega

/-- `pstate` reads, or sets the region's ceiling first. -/
theorem pstate_rows {s : State} {h : Hdr} {o : RB} (idle : s.notPending (RegImm.regs o.t ++ [o.a]) []) :
    ∀ i ∈ [Instr.pstateSet h o, .pstateRead h o],
      (16 ≤ s.pstateRequest o → s.traps i 0x01 0 0) ∧
      (s.pstateRequest o < 8 → s.completes i h (s.setX o.a s.pstateWord)) ∧
      (8 ≤ s.pstateRequest o → s.pstateRequest o < 16 →
        s.completes i h ((s.setCeiling (s.pstateRequest o - 8)).setX o.a (s.setCeiling (s.pstateRequest o - 8)).pstateWord)) := by
  intro i row
  have issues : exec i s = s.issue h { xr := RegImm.regs o.t, xw := [o.a] } (pstateBody o) := by
    simp only [List.mem_cons, List.not_mem_nil, or_false] at row
    obtain rfl | rfl := row
    · exact exec_pstateSet ..
    · exact exec_pstateRead ..
  have hz : s.me.hazard { xr := RegImm.regs o.t, xw := [o.a] } = none := idle.hazard rfl rfl
  refine ⟨fun bad => ?_, fun reads => ?_, fun sets fits => ?_⟩
  · exact State.traps_of_issue issues hz (if_pos bad)
  · have body : pstateBody o s = .ok (s.setX o.a s.pstateWord) := by
      simp only [pstateBody, if_neg (show ¬ 16 ≤ s.pstateRequest o by omega), bit_3_eq_false reads]
      rfl
    exact State.completes_of_issue issues hz body
  · have body : pstateBody o s = .ok ((s.setCeiling (s.pstateRequest o - 8)).setX o.a (s.setCeiling (s.pstateRequest o - 8)).pstateWord) := by
      simp only [pstateBody, if_neg (show ¬ 16 ≤ s.pstateRequest o by omega), bit_3_eq_true sets fits, if_true,
        show s.pstateRequest o % 8 = s.pstateRequest o - 8 by omega]
    exact State.completes_of_issue issues hz body

/-- Settles O53: each instruction by its body, a shoot-down by what it waits for, and the lines that `cflush` drops by `State.evictDies_caches`. -/
theorem privilegedRegistersAndCaches : Obligations.PrivilegedRegistersAndCaches := by
  refine ⟨?registers, ?words, ?tlbi, ?done, ?caches, ?line, ?wfi, ?pstate⟩
  case registers =>
    intro s h o above idle n
    obtain ⟨reads, high, none⟩ := mfpr_reads (h := h) above idle
    exact ⟨reads, high, none, mtpr_writes above idle⟩
  case words =>
    intro s
    refine ⟨rfl, rfl, rfl, fun r region => ?_, s.prWord_satellites⟩
    simp only [State.prWord, region]
    exact ⟨rfl, rfl⟩
  case tlbi =>
    intro s h o r slot above idle region c asid granted
    have issues := State.privileged_passes (exec_tlbi h o s) (State.level_above above)
    have hz : s.me.hazard { xr := [o.b, o.ext.c], xw := [o.a] } = none := idle.hazard rfl rfl
    refine ⟨fun other => ?_, fun own large => ?_, fun small own none => ?_, fun small own free => ?_⟩
    · exact State.traps_of_issue issues hz (tlbiBody_foreign region other)
    · exact State.traps_of_issue issues hz (tlbiBody_reserved region own large)
    · exact State.traps_of_issue issues hz ((tlbiBody_sound region own small).trans (by rw [none]))
    · exact State.completes_of_issue issues hz ((tlbiBody_sound region own small).trans (by rw [free]))
  case done =>
    intro s n t vif asid va allAsid allVif found task probed
    have probes : s.probes t.loc.mod vif asid allVif = true ↔ probed := by
      simp only [State.probes, Bool.or_eq_true, List.any_eq_true, or_assoc, probed]
    refine ⟨tlbiDone_idle found task, tlbiDone_cancelled found task, fun begun live goesOn settled => ?_, fun begun live goesOn waits => ?_⟩
    · exact tlbiDone_drops found task begun live goesOn (Bool.eq_false_of_not_eq_true fun some => settled (probes.mp some))
    · exact tlbiDone_waits found task begun live goesOn (probes.mpr waits)
  case caches =>
    intro s h o
    refine ⟨icinv_holds, icinv_drops, fun idle _ level => cflush_flushes idle level⟩
  case line => exact fun s sc pa => ⟨State.flushLine_counted, State.flushLine_drops⟩
  case wfi =>
    intro s h above ends
    refine ⟨fun first => ?_, fun e again => ?_⟩
    · obtain ⟨until_, seen⟩ := State.wfiEnd_first first
      have parks := wfi_parks h above
      simp only [until_, seen, Bool.and_false] at parks
      exact parks
    · obtain ⟨until_, seen⟩ := State.wfiEnd_again again
      have parks := wfi_parks h above
      simp only [until_, seen, Bool.and_true] at parks
      refine parks.trans ?_
      rw [State.upd, ← again]
      rfl
  case pstate => exact fun s h o idle => pstate_rows idle

end Sys2Proof.Machine
end

section
/-! The bodies of the privileged instructions on contexts, regions, queues, traces and keys (spec/15 R395 to R400, spec/18 R437 to R439). -/

namespace Sys2Proof.Machine

/-! ### `ctxsave` and `ctxload` (spec/15 R395) -/

/-- The body of `ctxsave`. -/
def ctxsaveBody (o : XB) (s : State) : Res :=
  match s.selector (s.x o.b) with
  | .error c => s.fail c
  | .ok (rid, tid) =>
    match s.threadOf s.me.loc.mod rid tid with
    | none => .ok s
    | some a => .ok (s.stopThread a)

/-- The body of `ctxload`. -/
def ctxloadBody (o : XB) (s : State) : Res :=
  match s.selector (s.x o.b) with
  | .error c => s.fail c
  | .ok (rid, tid) =>
    match s.region? s.me.loc.mod rid with
    | none => s.fail 0x06
    | some r =>
      match s.translateSpans { s.space s.me.loc .core r.rid 1 with level := 1 } .read (lineSpans 2 (imageBase r tid) 16) with
      | (.error c, t) => t.failSeen c.1 (BitVec.ofNat 64 c.2)
      | (.ok l, s') =>
        match s'.badSpan (imageBase r tid) (State.dumpVias r l) with
        | some q => (s'.foundError s.me.loc (s'.poisonUnit q.2.2.loc.mod (q.2.1 / 128)) q.2.1).failSeen 0x22 (BitVec.ofNat 64 q.1)
        | none =>
          let x := s'.readVias (State.dumpVias r l)
          if bits (wordAt x.1 0) 32 16 ≠ 0x0901 then s.fail 0x01
          else match s.threadOf s.me.loc.mod rid tid with
            | none => .ok x.2
            | some a => if a.saved && a.hold then .ok (x.2.unhold r a (wordAt x.1 8)) else .ok x.2

theorem exec_ctxsave (h : Hdr) (o : XB) (s : State) : exec (.ctxsave h o) s = s.privileged (s.me.level != 0) (s.issue h { xr := [o.b] } (ctxsaveBody o)) := rfl
theorem exec_ctxload (h : Hdr) (o : XB) (s : State) : exec (.ctxload h o) s = s.privileged (s.me.level != 0) (s.issue h { xr := [o.b] } (ctxloadBody o)) := rfl

section
variable {s : State} {b : XB} {rid tid : Nat} (names : s.selector (s.x b.b) = .ok (rid, tid))
include names

theorem ctxsaveBody_none (none : s.threadOf s.me.loc.mod rid tid = none) : ctxsaveBody b s = .ok s := by simp only [ctxsaveBody, names, none]

theorem ctxsaveBody_some {a : Agent} (some : s.threadOf s.me.loc.mod rid tid = some a) : ctxsaveBody b s = .ok (s.stopThread a) := by
  simp only [ctxsaveBody, names, some]

variable {r : Region} {l : List (Nat × Nat × Via)} {u : State} (region : s.region? s.me.loc.mod rid = some r)
  (seen : s.translateSpans { s.space s.me.loc .core r.rid 1 with level := 1 } .read (lineSpans 2 (imageBase r tid) 16) = (.ok l, u))
include region seen

theorem ctxloadBody_bad {q : Nat × Nat × Via} (bad : u.badSpan (imageBase r tid) (State.dumpVias r l) = some q) :
    ctxloadBody b s = .gone ((u.foundError s.me.loc (u.poisonUnit q.2.2.loc.mod (q.2.1 / 128)) q.2.1).takeTrap
      ⟨0x22, s.me.pc, BitVec.ofNat 64 q.1, 0, false, 0⟩) := by
  have me : u.me = s.me := (congrArg (·.2.me) seen).symm.trans (State.translateSpans_me ..)
  simp only [ctxloadBody, names, region, seen, bad]
  rw [State.failSeen, State.foundError_me, me]
  rfl

variable (sound : u.badSpan (imageBase r tid) (State.dumpVias r l) = none)
include sound

theorem ctxloadBody_format (other : bits (wordAt (u.readVias (State.dumpVias r l)).1 0) 32 16 ≠ 0x0901) : ctxloadBody b s = s.fail 0x01 := by
  simp only [ctxloadBody, names, region, seen, sound, if_pos other]

variable (image : bits (wordAt (u.readVias (State.dumpVias r l)).1 0) 32 16 = 0x0901)
include image

theorem ctxloadBody_held {a : Agent} (some : s.threadOf s.me.loc.mod rid tid = some a) (saved : a.saved = true) (hold : a.hold = true) :
    ctxloadBody b s = .ok ((u.readVias (State.dumpVias r l)).2.unhold r a (wordAt (u.readVias (State.dumpVias r l)).1 8)) := by
  simp only [ctxloadBody, names, region, seen, sound, image, some, saved, hold]
  rfl

theorem ctxloadBody_other {a : Agent} (some : s.threadOf s.me.loc.mod rid tid = some a) (other : a.saved = false ∨ a.hold = false) :
    ctxloadBody b s = .ok (u.readVias (State.dumpVias r l)).2 := by
  have idle : (a.saved && a.hold) = false := Bool.and_eq_false_iff.mpr other
  simp only [ctxloadBody, names, region, seen, sound, image, some, idle]
  rfl

theorem ctxloadBody_none (none : s.threadOf s.me.loc.mod rid tid = none) : ctxloadBody b s = .ok (u.readVias (State.dumpVias r l)).2 := by
  simp only [ctxloadBody, names, region, seen, sound, image, none]
  rfl

end

/-! ### `rgnbind` (spec/15 R396) -/

/-- The body of `rgnbind`. -/
def rgnbindBody (o : XBC) (s : State) : Res :=
  let addr := (s.x o.b).toNat
  let op := (s.x o.ext.c).toNat
  if addr % 256 ≠ 0 then s.failAt 0x04 (s.x o.b)
  else if 3 ≤ op then s.fail 0x01
  else match s.vread s.mySpace addr 256 with
    | (.error c, t) => t.failSeen c.1 (BitVec.ofNat 64 c.2)
    | (.ok bs, s') =>
      let mod := s.me.loc.mod
      let rid := bits (wordAt bs 0) 48 16
      match s.myRegion with
      | none => s.fail 0x24
      | some p =>
        if op = 0 then resOf s (s'.bindChild false p addr bs)
        else if !s.isDescendant mod p.rid rid then s.fail 0x06
        else match s.region? mod rid with
          | none => s.fail 0x06
          | some r =>
            if op = 1 then resOf s (s'.reloadRegion false r bs)
            else .ok (s'.endRegion s.me.loc rid .asked)

theorem exec_rgnbindBind (h : Hdr) (o : XBC) (s : State) :
    exec (.rgnbindBind h o) s = s.privileged (s.me.level != 0) (s.issue h { xr := [o.b, o.ext.c] } (rgnbindBody o)) := rfl
theorem exec_rgnbindReload (h : Hdr) (o : XBC) (s : State) :
    exec (.rgnbindReload h o) s = s.privileged (s.me.level != 0) (s.issue h { xr := [o.b, o.ext.c] } (rgnbindBody o)) := rfl
theorem exec_rgnbindEnd (h : Hdr) (o : XBC) (s : State) :
    exec (.rgnbindEnd h o) s = s.privileged (s.me.level != 0) (s.issue h { xr := [o.b, o.ext.c] } (rgnbindBody o)) := rfl

/-- Any row of `rgnbind` (log entry 11). -/
theorem rgnbind_row {s : State} {h : Hdr} {q : XBC} {i : Instr} (row : i ∈ [Instr.rgnbindBind h q, .rgnbindReload h q, .rgnbindEnd h q])
    (above : s.me.level ≠ 0) : exec i s = s.issue h { xr := [q.b, q.ext.c] } (rgnbindBody q) := by
  simp only [List.mem_cons, List.not_mem_nil, or_false] at row
  obtain rfl | rfl | rfl := row
  · exact State.privileged_passes (exec_rgnbindBind ..) (State.level_above above)
  · exact State.privileged_passes (exec_rgnbindReload ..) (State.level_above above)
  · exact State.privileged_passes (exec_rgnbindEnd ..) (State.level_above above)

section
variable {s : State} {q : XBC} (aligned : (s.x q.b).toNat % 256 = 0)
include aligned

theorem rgnbindBody_bad (large : 3 ≤ (s.x q.ext.c).toNat) : rgnbindBody q s = s.fail 0x01 :=
  (if_neg (by simpa using aligned)).trans (if_pos large)

variable {u : State} {p : Region} {bs : List Byte} (parent : s.myRegion = some p) (read : s.vread s.mySpace (s.x q.b).toNat 256 = (.ok bs, u))
include parent read

theorem rgnbindBody_bind (op : s.x q.ext.c = 0) : rgnbindBody q s = resOf s (u.bindChild false p (s.x q.b).toNat bs) := by
  simp [rgnbindBody, aligned, parent, read, op]

section
variable (op : s.x q.ext.c = 1 ∨ s.x q.ext.c = 2)
include op

theorem rgnbindBody_named : rgnbindBody q s =
    if !s.isDescendant s.me.loc.mod p.rid (bits (wordAt bs 0) 48 16) then s.fail 0x06
    else match s.region? s.me.loc.mod (bits (wordAt bs 0) 48 16) with
      | none => s.fail 0x06
      | some r =>
        if (s.x q.ext.c).toNat = 1 then resOf s (u.reloadRegion false r bs)
        else .ok (u.endRegion s.me.loc (bits (wordAt bs 0) 48 16) .asked) := by
  obtain op | op := op <;> simp [rgnbindBody, aligned, parent, read, op]

theorem rgnbindBody_foreign (other : s.isDescendant s.me.loc.mod p.rid (bits (wordAt bs 0) 48 16) = false) : rgnbindBody q s = s.fail 0x06 :=
  (rgnbindBody_named aligned parent read op).trans (if_pos (by rw [other]; rfl))

theorem rgnbindBody_own (own : s.isDescendant s.me.loc.mod p.rid (bits (wordAt bs 0) 48 16) = true) {r : Region}
    (region : s.region? s.me.loc.mod (bits (wordAt bs 0) 48 16) = some r) : rgnbindBody q s =
      if (s.x q.ext.c).toNat = 1 then resOf s (u.reloadRegion false r bs) else .ok (u.endRegion s.me.loc (bits (wordAt bs 0) 48 16) .asked) := by
  rw [rgnbindBody_named aligned parent read op, own, region]
  rfl

end
end

/-! ### `qmap` (spec/15 R397) -/

/-- The body of `qmap`. -/
def qmapBody (o : XBC) (s : State) : Res :=
  let m := s.me.loc.mod
  let b := (s.x o.b).toNat
  let c := (s.x o.ext.c).toNat
  let rid := bits b 0 16
  let d := bits c 0 3
  if !s.within m s.me.rid rid then s.fail 0x06
  else if bits b 16 48 != 0 || c &&& 0x107 != c then s.fail 0x01
  else
    let on := (s.rqueue? m d rid).any RQueue.pinned
    if !bit c 8 then .ok ((s.updQueue m d rid fun q => { q with pinned := false }).settleQueues m d)
    else if on then .ok s
    else if 16 ≤ s.pinned m d then s.fail 0x24
    else .ok (s.pinQueue m d rid)

theorem exec_qmap (h : Hdr) (o : XBC) (s : State) :
    exec (.qmap h o) s = s.privileged (s.me.level != 0) (s.issue h { xr := [o.b, o.ext.c] } (qmapBody o)) := rfl

/-- A request of `qmap`: a die, and bit 8 to pin. -/
theorem qmap_mask {c : Nat} (form : c < 8 ∨ (256 ≤ c ∧ c < 264)) : c &&& 0x107 = c := by
  obtain small | ⟨low, high⟩ := form
  · interval_cases c <;> rfl
  · interval_cases c <;> rfl

theorem bits_16_48_eq_zero {v : Nat} (small : v < 2 ^ 16) : bits v 16 48 = 0 := by rw [bits, Nat.div_eq_of_lt small, Nat.zero_mod]

section
variable {s : State} {q : XBC} (own : s.within s.me.loc.mod s.me.rid ((s.x q.b).toNat % 2 ^ 16) = true) (small : (s.x q.b).toNat < 2 ^ 16)
include own small

theorem qmapBody_off (off : (s.x q.ext.c).toNat < 8) : qmapBody q s =
    .ok ((s.updQueue s.me.loc.mod ((s.x q.ext.c).toNat % 8) ((s.x q.b).toNat % 2 ^ 16) fun q => { q with pinned := false }).settleQueues s.me.loc.mod
      ((s.x q.ext.c).toNat % 8)) := by
  have clear : bit (s.x q.ext.c).toNat 8 = false := Nat.testBit_lt_two_pow (by omega)
  simp only [qmapBody, bits_zero, own, bits_16_48_eq_zero small, qmap_mask (.inl off), clear, bne_self_eq_false]
  rfl

theorem qmapBody_on (low : 256 ≤ (s.x q.ext.c).toNat) (high : (s.x q.ext.c).toNat < 264) : qmapBody q s =
    if (s.rqueue? s.me.loc.mod ((s.x q.ext.c).toNat % 8) ((s.x q.b).toNat % 2 ^ 16)).any RQueue.pinned then .ok s
    else if 16 ≤ s.pinned s.me.loc.mod ((s.x q.ext.c).toNat % 8) then s.fail 0x24
    else .ok (s.pinQueue s.me.loc.mod ((s.x q.ext.c).toNat % 8) ((s.x q.b).toNat % 2 ^ 16)) := by
  have set : bit (s.x q.ext.c).toNat 8 = true := by
    rw [bit, Nat.testBit_eq_decide_div_mod_eq, decide_eq_true_eq]
    omega
  simp only [qmapBody, bits_zero, own, bits_16_48_eq_zero small, qmap_mask (.inr ⟨low, high⟩), set, bne_self_eq_false]
  rfl

end

/-! ### `trcctl` (spec/15 R398) -/

/-- What `trcctl` does with the words of its descriptor. -/
def trcctlGo (addr ctl : Nat) (ws : List Word) (s s' : State) : Res :=
  let w (i : Nat) : Nat := (ws.getD i 0).toNat
  let mod := s.me.loc.mod
  let rid := bits (w 4) 48 16
  let die := bits (w 4) 40 3
  let masked := s.confidential mod rid && rid != s.me.rid && !s.confidential mod s.me.rid
  if !s.within mod s.me.rid rid || (w 5 != 0 && (!s.observes || masked)) then s.fail 0x06
  else if !descriptorOk ws ctl then s.fail 0x01
  else if !bit ctl 0 then .ok (s'.unbindTrace mod die rid)
  else if (s.tbuf? mod die rid).isNone && 8 ≤ countIf (fun b : TraceBuf => b.mod == mod && b.die == die) s.tbufs then s.fail 0x24
  else match s'.debugTable (w 5) with
    | (.error c, t) => t.failSeen c.1 (BitVec.ofNat 64 c.2)
    | (.ok table, s') =>
      match s'.bindTrace ⟨mod, die, rid, s.me.rid, addr, masked, ws, ctl, 0, 0, 0, 0, 0, table⟩ with
      | (.error c, _) => s.failAt c.1 (BitVec.ofNat 64 c.2)
      | (.ok (), t) => .ok t

/-- The body of `trcctl`. -/
def trcctlBody (o : XBC) (s : State) : Res :=
  if (s.x o.b).toNat % 64 ≠ 0 then s.failAt 0x04 (s.x o.b)
  else if (s.x o.ext.c).toNat &&& 0xFF0F ≠ (s.x o.ext.c).toNat then s.fail 0x01
  else match s.vread s.mySpace (s.x o.b).toNat 64 with
    | (.error c, t) => t.failSeen c.1 (BitVec.ofNat 64 c.2)
    | (.ok bs, s') => trcctlGo (s.x o.b).toNat (s.x o.ext.c).toNat (byteWords 8 bs) s s'

theorem exec_trcctl (h : Hdr) (o : XBC) (s : State) :
    exec (.trcctl h o) s = s.privileged (s.me.level != 0) (s.issue h { xr := [o.b, o.ext.c] } (trcctlBody o)) := rfl

theorem trcctlBody_reads {s u : State} {q : XBC} {bs : List Byte} (aligned : (s.x q.b).toNat % 64 = 0)
    (control : (s.x q.ext.c).toNat &&& 0xFF0F = (s.x q.ext.c).toNat) (read : s.vread s.mySpace (s.x q.b).toNat 64 = (.ok bs, u)) :
    trcctlBody q s = trcctlGo (s.x q.b).toNat (s.x q.ext.c).toNat (byteWords 8 bs) s u := by
  simp only [trcctlBody, aligned, control, read, ne_eq, not_true_eq_false, if_false]

section
variable {s u : State} {addr ctl : Nat} {ws : List Word}

theorem trcctlGo_foreign (other : s.within s.me.loc.mod s.me.rid (bits (ws.getD 4 0).toNat 48 16) = false) : trcctlGo addr ctl ws s u = s.fail 0x06 := by
  simp only [trcctlGo, other]
  rfl

variable (noTable : (ws.getD 5 0).toNat = 0)
include noTable

variable (own : s.within s.me.loc.mod s.me.rid (bits (ws.getD 4 0).toNat 48 16) = true)
include own

theorem trcctlGo_bad (bad : descriptorOk ws ctl = false) : trcctlGo addr ctl ws s u = s.fail 0x01 := by
  simp only [trcctlGo, own, noTable, bad, bne_self_eq_false, Bool.false_and]
  rfl

variable (good : descriptorOk ws ctl = true)
include good

theorem trcctlGo_unbinds (off : ctl.testBit 0 = false) :
    trcctlGo addr ctl ws s u = .ok (u.unbindTrace s.me.loc.mod (bits (ws.getD 4 0).toNat 40 3) (bits (ws.getD 4 0).toNat 48 16)) := by
  simp only [trcctlGo, own, noTable, good, bit, off, bne_self_eq_false, Bool.false_and]
  rfl

theorem trcctlGo_binds {t : State} (on : ctl.testBit 0 = true)
    (room : (s.tbuf? s.me.loc.mod (bits (ws.getD 4 0).toNat 40 3) (bits (ws.getD 4 0).toNat 48 16)).isSome = true ∨
      (s.tbufs.filter fun b => b.mod == s.me.loc.mod && b.die == bits (ws.getD 4 0).toNat 40 3).length < 8)
    (bound : u.bindTrace ⟨s.me.loc.mod, bits (ws.getD 4 0).toNat 40 3, bits (ws.getD 4 0).toNat 48 16, s.me.rid, addr,
      s.confidential s.me.loc.mod (bits (ws.getD 4 0).toNat 48 16) && bits (ws.getD 4 0).toNat 48 16 != s.me.rid && !s.confidential s.me.loc.mod s.me.rid,
      ws, ctl, 0, 0, 0, 0, 0, []⟩ = (.ok (), t)) :
    trcctlGo addr ctl ws s u = .ok t := by
  have fits : ((s.tbuf? s.me.loc.mod (bits (ws.getD 4 0).toNat 40 3) (bits (ws.getD 4 0).toNat 48 16)).isNone &&
      decide (8 ≤ countIf (fun b : TraceBuf => b.mod == s.me.loc.mod && b.die == bits (ws.getD 4 0).toNat 40 3) s.tbufs)) = false := by
    obtain held | few := room
    · rw [Option.isNone_eq_false_iff.mpr held, Bool.false_and]
    · rw [countIf, decide_eq_false (Nat.not_le.mpr few), Bool.and_false]
  simp only [trcctlGo, own, noTable, good, bit, on, fits, State.debugTable, bne_self_eq_false, Bool.false_and, Bool.not_true, Bool.or_self, Bool.false_eq_true,
    if_false, if_true, bound]

end

/-! ### `kmint` and `krekey` (spec/15 R399, R400) -/

/-- The body of an instruction of the Keywright with its request. -/
def keyRequestBody (b : Reg) (f : State → State → List Byte → Res) (s : State) : Res :=
  if (s.x b).toNat % 32 ≠ 0 then s.failAt 0x04 (s.x b)
  else match s.vread s.mySpace (s.x b).toNat 32 with
    | (.error c, t) => t.failSeen c.1 (BitVec.ofNat 64 c.2)
    | (.ok bs, s') => f s s' bs

theorem keyRequest_issues {s : State} {i : Instr} {h : Hdr} {b : Reg} {kw : List Reg4} {f : State → State → List Byte → Res} (runs : exec i s = keyRequest h b kw f s)
    (level : s.onKeywright = true) : exec i s = s.issue h { xr := [b], kw := kw } (keyRequestBody b f) := State.privileged_passes runs level

theorem keyRequestBody_reads {s u : State} {b : Reg} {bs : List Byte} (f : State → State → List Byte → Res) (aligned : (s.x b).toNat % 32 = 0)
    (read : s.vread s.mySpace (s.x b).toNat 32 = (.ok bs, u)) : keyRequestBody b f s = f s u bs := by
  simp only [keyRequestBody, aligned, read]
  rfl

section
variable {s u : State} {b : XB} {bs : List Byte}

theorem krekeyGo_advance (op : bits (wordAt bs 0) 0 4 = 0) :
    krekeyGo b s u bs = s.advance? u (s.x b.b).toNat (keyOf (wordAt bs 8) (wordAt bs 16) 0 0) := by simp only [krekeyGo, op]

theorem krekeyGo_rotate (op : bits (wordAt bs 0) 0 4 = 1) : krekeyGo b s u bs = s.rotate? u (s.x b.b).toNat := by simp only [krekeyGo, op]

theorem krekeyGo_bad (op : 2 ≤ bits (wordAt bs 0) 0 4) : krekeyGo b s u bs = s.fail 0x01 := by
  unfold krekeyGo
  split
  · omega
  · omega
  · rfl

theorem State.advance?_chartered {addr : Nat} {k : Key} (some : ∃ c ∈ s.charters, c.mod = s.me.loc.mod ∧ s.endpointChartered c k = true) :
    s.advance? u addr k = .ok { u with advances := u.advances ++ [⟨s.me.loc.mod, s.me.rid, addr, k, s.me.uid, s.me.pc, s.me.order⟩] } := by
  have any : (s.charters.any fun c => c.mod == s.me.loc.mod && s.endpointChartered c k) = true := by simpa using some
  simp only [State.advance?, any]
  rfl

theorem State.advance?_outside {addr : Nat} {k : Key} (none : ∀ c ∈ s.charters, c.mod = s.me.loc.mod → s.endpointChartered c k = false) :
    s.advance? u addr k = s.fail 0x06 := by
  have any : (s.charters.any fun c => c.mod == s.me.loc.mod && s.endpointChartered c k) = false := by simpa using none
  simp only [State.advance?, any]
  rfl

theorem State.rotate?_elsewhere {addr : Nat} (other : s.lowestUp ≠ some s.me.loc.mod) : s.rotate? u addr = s.fail 0x06 := if_pos other

theorem State.rotate?_starts {addr : Nat} (here : s.lowestUp = some s.me.loc.mod) (old : s.secret.old = none) (next : s.secret.next = none) :
    s.rotate? u addr = .ok ({ u with
      secret := { u.secret with next := some (freshSecret u.fresh), word3 := some ⟨s.me.loc.mod, s.me.rid, addr, 0, s.me.uid, s.me.pc, s.me.order⟩ },
      fresh := u.fresh + 2 }.tellRotation) :=
  (if_neg (fun other => other here)).trans (if_neg (by rw [old, next]; decide))

theorem State.rotate?_busy {addr : Nat} (here : s.lowestUp = some s.me.loc.mod) (busy : s.secret.old ≠ none ∨ s.secret.next ≠ none) :
    s.rotate? u addr = .ok (u.answerRequest s.me.loc.mod s.me.rid addr (2 ^ 63 + 2 ^ 61)) := by
  have busy : (s.secret.old.isSome || s.secret.next.isSome) = true := by simpa [Option.isSome_iff_ne_none] using busy
  exact (if_neg (fun other => other here)).trans (if_pos busy)

end

/-! ### Minting (spec/18 R438) -/

section
variable {s : State} {m : Nat} {k : Key}

theorem State.mint_unrouted (bad : kRouted k m = false) : s.mint m k = (.error 0x09, s) := if_pos (by rw [bad]; rfl)

variable (routed : kRouted k m = true)
include routed

theorem State.mint_outside (outside : (s.claim k).chartered m k = false) : s.mint m k = (.error 0x06, s) := by
  simp only [State.mint, routed, outside]
  rfl

variable (chartered : (s.claim k).chartered m k = true)
include chartered

theorem State.mint_unprobed {c : Nat} (probe : s.probeCause m k = some c) : s.mint m k = (.error c, s) := by
  simp only [State.mint, routed, chartered, probe]
  rfl

theorem State.mint_probed (probe : s.probeCause m k = none) :
    s.mint m k = if ((s.claim k).keyEndpoint k).retired then (.error 0x06, s)
      else (.ok ((s.claim k).signed (setField k 52 12 ((s.claim k).keyEndpoint k).gen)), s.claim k) := by
  simp only [State.mint, routed, chartered, probe]
  rfl

end

theorem State.advanceDone_first {s : State} {q : Advance} {l : List Advance} (first : s.advances = q :: l) :
    s.advanceDone = (({ s with advances := l }.setEndpoint (s.keyEndpoint q.key).advance).answerRequest q.mod q.rid q.addr
      (2 ^ 63 + (if (s.keyEndpoint q.key).advance.retired then 2 ^ 62 else 0) + (s.keyEndpoint q.key).advance.gen)) := by
  simp only [State.advanceDone, first]

end Sys2Proof.Machine
end

section
/-! Launches, and the obligation on regions, contexts and the Keywright (spec/16 R414). -/

namespace Sys2Proof.Machine

/-! ### What taking a launch from its queue leaves (spec/16 R414) -/

/-- The state without the launch `n`. -/
def State.dropLaunch (s : State) (n : Nat) : State := { s with launches := s.launches.eraseIdx n }

section
variable (s : State) (n mod anc : Nat)

theorem State.dropLaunch_descends : ∀ f rid, (s.dropLaunch n).descends mod anc f rid = s.descends mod anc f rid
  | 0, _ => rfl
  | f + 1, rid => by
    simp only [State.descends, State.region?, State.dropLaunch_descends f]
    rfl

theorem State.dropLaunch_isDescendant (rid : Nat) : (s.dropLaunch n).isDescendant mod anc rid = s.isDescendant mod anc rid := by
  simp only [State.isDescendant, State.dropLaunch_descends]
  rfl

theorem State.dropLaunch_within (rid : Nat) : (s.dropLaunch n).within mod anc rid = s.within mod anc rid := by
  simp only [State.within, State.dropLaunch_isDescendant]
  rfl

end

section
variable {s : State} {a : Agent}

theorem State.stopThread_saved (saved : a.saved = true) : s.stopThread a = s := if_pos saved

theorem State.stopThread_placed (fresh : a.saved = false) (placed : a.placed = true) :
    s.stopThread a = (s.preemptThread a).updAgent a.uid fun a => { a with hold := true } :=
  (if_neg (ne_true_of_eq_false fresh)).trans (if_pos placed)

end

/-! ### A launch at the head of its source (spec/16 R414) -/

section
variable {s : State} {n : Nat} {q : Launch} {own : Launch → Bool} {act : State → Launch → Region → Except Nat Nat × State}
  (found : s.launches[n]? = some q) (mine : own q = true) (first : s.firstLaunch n q = true)
include found mine first

theorem State.perform_foreign (away : q.src ≠ q.mod) : s.perform n own act = (s.dropLaunch n).launchResult q (.error 0x06) := by
  simp only [State.perform, found, mine, first]
  split
  · rename_i stop; simp at stop
  · split
    · rfl
    · simp [away, State.dropLaunch]

variable {p : Region} (home : q.src = q.mod) (actor : s.region? q.mod q.actor = some p) (bound : p.state = .bound)
  (right : p.launch = true ∨ q.host.isSome = true)
include home actor bound right

theorem State.perform_own : s.perform n own act =
    if !q.formed then (s.dropLaunch n).launchResult q (.error 0x01)
    else match act (s.dropLaunch n) q p with
      | (.error c, _) => (s.dropLaunch n).launchResult q (.error c)
      | (.ok v, t) => t.launchResult q (.ok v) := by
  have allowed : (p.launch || q.host.isSome) = true := by simpa using right
  have region : (s.dropLaunch n).region? q.src q.actor = some p := by rw [home]; exact actor
  have passes : (decide (q.src ≠ q.mod) || decide (p.state = .ended) || !(p.launch || q.host.isSome)) = false := by simp [home, bound, allowed]
  simp only [State.perform, found, mine, first, Bool.not_true, Bool.or_self, Bool.false_eq_true, if_false]
  simp only [← State.dropLaunch.eq_1, region, passes]
  rfl

theorem State.perform_unformed (bad : q.formed = false) : s.perform n own act = (s.dropLaunch n).launchResult q (.error 0x01) :=
  (State.perform_own found mine first home actor bound right).trans (if_pos (by rw [bad]; rfl))

variable (formed : q.formed = true)
include formed

theorem State.perform_refuses {c : Nat} {t : State} (refused : act (s.dropLaunch n) q p = (.error c, t)) :
    s.perform n own act = (s.dropLaunch n).launchResult q (.error c) :=
  (State.perform_own found mine first home actor bound right).trans ((if_neg (by rw [formed]; decide)).trans (by rw [refused]))

theorem State.perform_acts {v : Nat} {t : State} (acts : act (s.dropLaunch n) q p = (.ok v, t)) : s.perform n own act = t.launchResult q (.ok v) :=
  (State.perform_own found mine first home actor bound right).trans ((if_neg (by rw [formed]; decide)).trans (by rw [acts]))

end

/-! ### The four operations (spec/16 R414) -/

/-- A child region is bound. -/
def bindAct (s : State) (q : Launch) (p : Region) : Except Nat Nat × State :=
  if q.op ≠ 0 then (.error 0x01, s)
  else match s.launchBlock q p with
    | (.error c, s) => (.error c, s)
    | (.ok bs, s) =>
      match s.bindChild q.host.isSome p (q.word 1) bs with
      | (.error c, s) => (.error c, s)
      | (.ok rid, s) =>
        match s.mintAll q.mod (((s.region? q.mod rid).map Region.holder).getD 0) q.keys with
        | (.error c, s) => (.error c, s)
        | (.ok ks, s) =>
          (.ok rid, { s with plans := (s.plans.filter fun a => !(a.mod == q.mod && a.rid == rid)) ++ [(⟨q.mod, rid, q.handlers, ks⟩ : Plan)] })

/-- The thread that a launch creates. -/
def State.launchedThread (s : State) (q : Launch) (r : Region) (tid : Nat) : Agent :=
  { freshAgent s.nextUid r.rid tid r.level (bits (q.word 3) 0 3) ⟨q.mod, if bit (q.word 3) 14 then r.lowDie else bits (q.word 3) 3 4, 0⟩ (q.words.getD 1 0)
      (q.words.getD 2 0) 0 (if bit (q.word 3) 14 then none else some (bits (q.word 3) 3 4 * 128 + bits (q.word 3) 7 7)) (s.plannedKeys q r.rid) 4 with
    launched := q.ofBlock }

/-- A thread is created. -/
def createAct (s : State) (q : Launch) (p : Region) : Except Nat Nat × State :=
  match s.region? q.mod q.target with
  | none => (.error 0x06, s)
  | some r =>
    if !s.within q.mod p.rid r.rid then (.error 0x06, s)
    else if 5 < bits (q.word 3) 0 3 || (!bit (q.word 3) 14 && 8 ≤ bits (q.word 3) 3 4) then (.error 0x01, s)
    else if bit (q.word 1) 0 then (.error 0x04, s)
    else if !bit (q.word 3) 14 && !r.allows (bits (q.word 3) 3 4) then (.error 0x24, s)
    else if q.ofBlock && !bit (q.word 3) 14 && s.planRefused q.mod r.rid ⟨q.mod, bits (q.word 3) 3 4, bits (q.word 3) 7 7⟩ then (.error 0x06, s)
    else match s.freeTid r with
      | none => (.error 0x24, s)
      | some tid => (.ok tid, s.takeUid.enlist (s.launchedThread q r tid) (if bit (q.word 3) 14 then r.lowDie else bits (q.word 3) 3 4))

/-- A region is ended. -/
def endAct (s : State) (q : Launch) (p : Region) : Except Nat Nat × State :=
  if s.isDescendant q.mod p.rid q.target then (.ok q.target, s.endRegion ⟨q.mod, q.die, 0⟩ q.target .asked) else (.error 0x06, s)

/-- A region is reloaded. -/
def reloadAct (s : State) (q : Launch) (p : Region) : Except Nat Nat × State :=
  match s.launchBlock q p with
  | (.error c, s) => (.error c, s)
  | (.ok bs, s) =>
    if bits (wordAt bs 0) 48 16 ≠ q.target || !s.isDescendant q.mod p.rid q.target then (.error 0x06, s)
    else match s.region? q.mod q.target with
      | none => (.error 0x06, s)
      | some r => s.reloadRegion q.host.isSome r bs

theorem exec_launchBind (n : Nat) (s : State) : exec (.launchBind n) s = .next (s.perform n (fun q => q.op == 0 || decide (4 ≤ q.op)) bindAct) := rfl
theorem exec_launchCreateThread (n : Nat) (s : State) : exec (.launchCreateThread n) s = .next (s.perform n (fun q => q.op == 1) createAct) := rfl
theorem exec_launchEndRegion (n : Nat) (s : State) : exec (.launchEndRegion n) s = .next (s.perform n (fun q => q.op == 2) endAct) := rfl
theorem exec_launchReload (n : Nat) (s : State) : exec (.launchReload n) s = .next (s.perform n (fun q => q.op == 3) reloadAct) := rfl

/-- The event that performs a launch. -/
noncomputable def Launch.event (q : Launch) (n : Nat) : Instr :=
  if q.op = 1 then .launchCreateThread n else if q.op = 2 then .launchEndRegion n else if q.op = 3 then .launchReload n else .launchBind n

/-- Whatever its operation, that event is `State.perform` with an operation of its own. -/
theorem Launch.event_performs (q : Launch) (n : Nat) (s : State) : ∃ own act, own q = true ∧ exec (q.event n) s = .next (s.perform n own act) := by
  unfold Launch.event
  by_cases create : q.op = 1
  · exact ⟨fun q => q.op == 1, _, beq_iff_eq.mpr create, by rw [if_pos create]; exact exec_launchCreateThread n s⟩
  · by_cases ends : q.op = 2
    · exact ⟨fun q => q.op == 2, _, beq_iff_eq.mpr ends, by rw [if_neg create, if_pos ends]; exact exec_launchEndRegion n s⟩
    · by_cases reload : q.op = 3
      · exact ⟨fun q => q.op == 3, _, beq_iff_eq.mpr reload, by rw [if_neg create, if_neg ends, if_pos reload]; exact exec_launchReload n s⟩
      · refine ⟨fun q => q.op == 0 || decide (4 ≤ q.op), _, ?_, by rw [if_neg create, if_neg ends, if_neg reload]; exact exec_launchBind n s⟩
        rw [Bool.or_eq_true, beq_iff_eq, decide_eq_true_eq]
        omega

theorem Launch.event_bind {q : Launch} {n : Nat} (op : q.op = 0 ∨ 4 ≤ q.op) : q.event n = .launchBind n :=
  (if_neg (by omega)).trans ((if_neg (by omega)).trans (if_neg (by omega)))

theorem Launch.event_create {q : Launch} {n : Nat} (op : q.op = 1) : q.event n = .launchCreateThread n := if_pos op

theorem Launch.event_end {q : Launch} {n : Nat} (op : q.op = 2) : q.event n = .launchEndRegion n := (if_neg (by omega)).trans (if_pos op)

theorem Launch.event_reload {q : Launch} {n : Nat} (op : q.op = 3) : q.event n = .launchReload n :=
  (if_neg (by omega)).trans ((if_neg (by omega)).trans (if_pos op))

section
variable {u v t : State} {q : Launch} {p : Region} {bs : List Byte}

theorem State.launchBlock_read (aligned : q.word 1 % 256 = 0)
    (read : u.vread { u.space ⟨q.mod, q.die, 0⟩ .core p.rid 1 with level := 1 } (q.word 1) 256 = (.ok bs, v)) : u.launchBlock q p = (.ok bs, v) := by
  rw [State.launchBlock, if_neg (by simpa using aligned), read]

theorem bindAct_unknown (op : 4 ≤ q.op) : bindAct u q p = (.error 0x01, u) := if_pos (by omega)

section
variable {rid : Nat} (op : q.op = 0) (block : u.launchBlock q p = (.ok bs, v)) (child : v.bindChild q.host.isSome p (q.word 1) bs = (.ok rid, t))
include op block child

theorem bindAct_binds {ks : List (Nat × Key)} {w : State}
    (minted : t.mintAll q.mod (((t.region? q.mod rid).map Region.holder).getD 0) q.keys = (.ok ks, w)) :
    bindAct u q p = (.ok rid, { w with plans := (w.plans.filter fun a => !(a.mod == q.mod && a.rid == rid)) ++ [(⟨q.mod, rid, q.handlers, ks⟩ : Plan)] }) := by
  simp only [bindAct, op, block, child, minted, ne_eq, not_true_eq_false, if_false]

theorem bindAct_unminted {c : Nat} {w : State}
    (refused : t.mintAll q.mod (((t.region? q.mod rid).map Region.holder).getD 0) q.keys = (.error c, w)) : bindAct u q p = (.error c, w) := by
  simp only [bindAct, op, block, child, refused, ne_eq, not_true_eq_false, if_false]

end

theorem reloadAct_reloads {r : Region} {n : Nat} (block : u.launchBlock q p = (.ok bs, v)) (named : bits (wordAt bs 0) 48 16 = q.target)
    (own : v.isDescendant q.mod p.rid q.target = true) (region : v.region? q.mod q.target = some r) (done : v.reloadRegion q.host.isSome r bs = (.ok n, t)) :
    reloadAct u q p = (.ok n, t) := by
  have passes : ¬ (decide (bits (wordAt bs 0) 48 16 ≠ q.target) || !v.isDescendant q.mod p.rid q.target) = true := by simp [named, own]
  simp only [reloadAct, block, region, done]
  exact if_neg passes

theorem createAct_creates {r : Region} {tid : Nat} (region : u.region? q.mod q.target = some r) (own : u.within q.mod p.rid r.rid = true)
    (cls : bits (q.word 3) 0 3 ≤ 5) (any : bit (q.word 3) 14 = true) (even : bit (q.word 1) 0 = false) (free : u.freeTid r = some tid) :
    createAct u q p = (.ok tid, u.takeUid.enlist (u.launchedThread q r tid) r.lowDie) := by
  simp only [createAct, region, own, any, even, free, decide_eq_false (Nat.not_lt.mpr cls), Bool.not_true, Bool.false_and, Bool.and_false, Bool.or_self,
    Bool.false_eq_true, if_false, if_true]

/-- A word whose bit 0 is clear is its own entry address. -/
theorem even_and_not_one {w : Word} (even : bit w.toNat 0 = false) : w &&& ~~~1 = w := by
  have even : w.getLsbD 0 = false := even
  refine BitVec.eq_of_getLsbD_eq fun i small => ?_
  simp only [BitVec.getLsbD_and, BitVec.getLsbD_not, small, decide_true, Bool.true_and]
  cases i with
  | zero => rw [even, Bool.false_and]
  | succ i => rw [show (1 : Word).getLsbD (i + 1) = false by simp, Bool.not_false, Bool.and_true]

theorem State.launchedThread_fields (any : bit (q.word 3) 14 = true) (even : bit (q.word 1) 0 = false) (r : Region) (tid : Nat) :
    (u.launchedThread q r tid).tid = tid ∧ (u.launchedThread q r tid).rid = r.rid ∧ (u.launchedThread q r tid).level = r.level ∧
      (u.launchedThread q r tid).cls = bits (q.word 3) 0 3 ∧ (u.launchedThread q r tid).pc = q.words.getD 1 0 ∧
      (u.launchedThread q r tid).getX 10 = q.words.getD 2 0 ∧ (u.launchedThread q r tid).named = none ∧
      (q.ofBlock = false → ∀ j : Fin 16, (u.launchedThread q r tid).k[j] = 0) := by
  refine ⟨rfl, rfl, rfl, rfl, even_and_not_one even, ?_, if_pos any, fun alone j => ?_⟩
  · exact freshAgent_getX u.nextUid r.rid tid r.level (bits (q.word 3) 0 3) ⟨q.mod, if bit (q.word 3) 14 then r.lowDie else bits (q.word 3) 3 4, 0⟩
      (q.words.getD 1 0) (q.words.getD 2 0) 0 (if bit (q.word 3) 14 then none else some (bits (q.word 3) 3 4 * 128 + bits (q.word 3) 7 7))
      (u.plannedKeys q r.rid) 4 10
  have keys : (u.launchedThread q r tid).k = Vector.replicate 16 nullKey := by
    change u.plannedKeys q r.rid = _
    rw [State.plannedKeys, alone]
    rfl
  rw [keys]
  simp [nullKey]

end

end Sys2Proof.Machine

namespace Sys2Proof
open Machine

/-- Settles O55: each instruction by its body, and a launch by `State.perform` with the operation of its event. -/
theorem regionsContextsAndKeywright : Obligations.RegionsContextsAndKeywright := by
  refine ⟨?contexts, ?regions, ?queues, ?traces, ?keys, ?mint, fun s q l first => congrArg Host.Outcome.next (State.advanceDone_first first), ?foreign, ?launch⟩
  case contexts =>
    intro s h b above idle
    have saves := State.privileged_passes (exec_ctxsave h b s) (State.level_above above)
    have loads := State.privileged_passes (exec_ctxload h b s) (State.level_above above)
    have hz : s.me.hazard { xr := [b.b] } = none := idle.hazard rfl rfl
    refine ⟨fun c refused => ⟨?_, ?_⟩, fun rid tid names => ⟨fun none => ?_, fun a some => ⟨fun saved => ?_, fun fresh placed => ?_⟩, ?load⟩⟩
    · exact State.traps_of_issue saves hz (by simp only [ctxsaveBody, refused])
    · exact State.traps_of_issue loads hz (by simp only [ctxloadBody, refused])
    · exact State.completes_of_issue saves hz (ctxsaveBody_none names none)
    · exact State.completes_of_issue saves hz ((ctxsaveBody_some names some).trans (congrArg Res.ok (State.stopThread_saved saved)))
    · exact State.completes_of_issue saves hz
        ((ctxsaveBody_some names some).trans (congrArg Res.ok (State.stopThread_placed fresh placed)))
    case load =>
      intro r l u region seen x bad
      refine ⟨fun q found => ?_, fun sound other => ?_, fun sound image => ⟨fun a some saved hold => ?_, fun a some other => ?_, fun none => ?_⟩⟩
      · exact loads.trans (State.issue_gone hz (ctxloadBody_bad names region seen found))
      · exact State.traps_of_issue loads hz (ctxloadBody_format names region seen sound other)
      · exact State.completes_of_issue loads hz (ctxloadBody_held names region seen sound image some saved hold)
      · exact State.completes_of_issue loads hz (ctxloadBody_other names region seen sound image some other)
      · exact State.completes_of_issue loads hz (ctxloadBody_none names region seen sound image none)
  case regions =>
    intro s u h q p bs above idle parent aligned read addr rid mod i row
    have issues := rgnbind_row row above
    have hz : s.me.hazard { xr := [q.b, q.ext.c] } = none := idle.hazard rfl rfl
    refine ⟨fun op n t bound => ?_, fun op c t refused => ?_, fun op own r n t region done => ?_, fun op own r region => ?_, fun op other => ?_, fun large => ?_⟩
    · exact State.completes_of_issue issues hz ((rgnbindBody_bind aligned parent read op).trans (by rw [bound]; rfl))
    · exact State.traps_of_issue issues hz ((rgnbindBody_bind aligned parent read op).trans (by rw [refused]; rfl))
    · exact State.completes_of_issue issues hz ((rgnbindBody_own aligned parent read (.inl op) own region).trans (by rw [op, done]; rfl))
    · exact State.completes_of_issue issues hz ((rgnbindBody_own aligned parent read (.inr op) own region).trans (by rw [op]; rfl))
    · exact State.traps_of_issue issues hz (rgnbindBody_foreign aligned parent read op other)
    · exact State.traps_of_issue issues hz (rgnbindBody_bad aligned large)
  case queues =>
    intro s h q above idle m rid c d on
    have issues := State.privileged_passes (exec_qmap h q s) (State.level_above above)
    have hz : s.me.hazard { xr := [q.b, q.ext.c] } = none := idle.hazard rfl rfl
    refine ⟨fun other => ?_, fun own small => ⟨fun off => ?_, fun low high held => ?_, fun low high free full => ?_, fun low high free room => ?_⟩⟩
    · exact State.traps_of_issue issues hz (if_pos (by rw [bits_zero, other]; rfl))
    · exact State.completes_of_issue issues hz (qmapBody_off own small off)
    · exact State.completes_of_issue issues hz ((qmapBody_on own small low high).trans (if_pos held))
    · exact State.traps_of_issue issues hz ((qmapBody_on own small low high).trans ((if_neg (ne_true_of_eq_false free)).trans (if_pos full)))
    · exact State.completes_of_issue issues hz
        ((qmapBody_on own small low high).trans ((if_neg (ne_true_of_eq_false free)).trans (if_neg (Nat.not_le.mpr room))))
  case traces =>
    intro s u h q bs above idle aligned control read ws w mod rid die ctl noTable
    have issues := State.privileged_passes (exec_trcctl h q s) (State.level_above above)
    have hz : s.me.hazard { xr := [q.b, q.ext.c] } = none := idle.hazard rfl rfl
    have reads := trcctlBody_reads aligned control read
    refine ⟨fun other => ?_, fun own bad => ?_, fun own good => ⟨fun off => ?_, fun on room t bound => ?_⟩⟩
    · exact State.traps_of_issue issues hz (reads.trans (trcctlGo_foreign other))
    · exact State.traps_of_issue issues hz (reads.trans (trcctlGo_bad noTable own bad))
    · exact State.completes_of_issue issues hz (reads.trans (trcctlGo_unbinds noTable own good off))
    · exact State.completes_of_issue issues hz (reads.trans (trcctlGo_binds noTable own good on room bound))
  case keys =>
    intro s u h o b bs level
    refine ⟨fun idle aligned read => ?mints, fun idle aligned read => ?renews⟩
    case mints =>
      intro r
      have issues := keyRequest_issues (exec_kmint h o s) level
      have hz : s.me.hazard { xr := [o.b], kw := [o.a] } = none := idle.hazard rfl rfl
      have reads := keyRequestBody_reads (kmintGo o) aligned read
      refine ⟨fun bad => ?_, fun zero k t minted => ?_, fun zero c t refused => ?_⟩
      · exact State.traps_of_issue issues hz (reads.trans (if_pos bad))
      · exact State.completes_of_issue issues hz (reads.trans ((if_neg (by simpa using zero)).trans (by simp only [r] at minted; rw [minted])))
      · exact State.traps_of_issue issues hz (reads.trans ((if_neg (by simpa using zero)).trans (by simp only [r] at refused; rw [refused])))
    case renews =>
      intro addr m i row
      have issues : exec i s = s.issue h { xr := [b.b] } (keyRequestBody b.b (krekeyGo b)) := by
        simp only [List.mem_cons, List.not_mem_nil, or_false] at row
        obtain rfl | rfl := row
        · exact keyRequest_issues (exec_krekeyAdvance h b s) level
        · exact keyRequest_issues (exec_krekeyRotate h b s) level
      have hz : s.me.hazard { xr := [b.b] } = none := idle.hazard rfl rfl
      have reads := keyRequestBody_reads (krekeyGo b) aligned read
      refine ⟨fun op => ⟨fun some => ?_, fun none => ?_⟩, fun op => ⟨fun other => ?_, fun here old next => ?_, fun here busy => ?_⟩, fun op => ?_⟩
      · exact State.completes_of_issue issues hz (reads.trans ((krekeyGo_advance op).trans (State.advance?_chartered some)))
      · exact State.traps_of_issue issues hz (reads.trans ((krekeyGo_advance op).trans (State.advance?_outside none)))
      · exact State.traps_of_issue issues hz (reads.trans ((krekeyGo_rotate op).trans (State.rotate?_elsewhere other)))
      · exact State.completes_of_issue issues hz (reads.trans ((krekeyGo_rotate op).trans (State.rotate?_starts here old next)))
      · exact State.completes_of_issue issues hz (reads.trans ((krekeyGo_rotate op).trans (State.rotate?_busy here busy)))
      · exact State.traps_of_issue issues hz (reads.trans (krekeyGo_bad op))
  case mint =>
    intro s m k t e
    refine ⟨fun bad => ?_, fun routed outside => ?_, fun routed chartered c probe => ?_, fun routed chartered probe => ⟨fun retired => ?_, fun live => ?_⟩⟩
    · rw [State.mint_unrouted bad]
    · rw [State.mint_outside routed outside]
    · rw [State.mint_unprobed routed chartered probe]
    · rw [State.mint_probed routed chartered probe, if_pos retired]
    · exact (State.mint_probed routed chartered probe).trans (if_neg (ne_true_of_eq_false live))
  case foreign =>
    intro s n q found first away i
    obtain ⟨own, act, mine, performs⟩ := q.event_performs n s
    exact performs.trans (congrArg Host.Outcome.next (State.perform_foreign found mine first away))
  case launch =>
    intro s n q p found first home actor bound right u i
    refine ⟨fun bad => ?_, fun formed => ⟨fun op => ?_, fun op own => ?_, fun op other => ?_, ?create, ?bind, ?reload⟩⟩
    · obtain ⟨own, act, mine, performs⟩ := q.event_performs n s
      exact performs.trans (congrArg Host.Outcome.next (State.perform_unformed found mine first home actor bound right bad))
    · have runs : exec i s = _ := (congrArg (exec · s) (Launch.event_bind (.inr op))).trans (exec_launchBind n s)
      exact runs.trans (congrArg Host.Outcome.next (State.perform_refuses found (by simp [op]) first home actor bound right formed (bindAct_unknown op)))
    · have runs : exec i s = _ := (congrArg (exec · s) (Launch.event_end op)).trans (exec_launchEndRegion n s)
      exact runs.trans (congrArg Host.Outcome.next (State.perform_acts found (by simp [op]) first home actor bound right formed
        (if_pos ((State.dropLaunch_isDescendant ..).trans own))))
    · have runs : exec i s = _ := (congrArg (exec · s) (Launch.event_end op)).trans (exec_launchEndRegion n s)
      exact runs.trans (congrArg Host.Outcome.next (State.perform_refuses found (by simp [op]) first home actor bound right formed
        (if_neg (ne_true_of_eq_false ((State.dropLaunch_isDescendant ..).trans other)))))
    case create =>
      intro op r region own cls any even tid free
      have runs : exec i s = _ := (congrArg (exec · s) (Launch.event_create op)).trans (exec_launchCreateThread n s)
      exact ⟨_, runs.trans (congrArg Host.Outcome.next (State.perform_acts found (by simp [op]) first home actor bound right formed
        (createAct_creates region ((State.dropLaunch_within ..).trans own) cls any even free))), State.launchedThread_fields any even r tid⟩
    case bind =>
      intro op aligned bs v rid t read child r
      have runs : exec i s = _ := (congrArg (exec · s) (Launch.event_bind (.inl op))).trans (exec_launchBind n s)
      have block := State.launchBlock_read aligned read
      exact ⟨fun ks w minted => runs.trans (congrArg Host.Outcome.next (State.perform_acts found (by simp [op]) first home actor bound right formed
          (bindAct_binds op block child minted))),
        fun c w refused => runs.trans (congrArg Host.Outcome.next (State.perform_refuses found (by simp [op]) first home actor bound right formed
          (bindAct_unminted op block child refused)))⟩
    case reload =>
      intro op aligned bs v r m t read named own region done
      have runs : exec i s = _ := (congrArg (exec · s) (Launch.event_reload op)).trans (exec_launchReload n s)
      exact runs.trans (congrArg Host.Outcome.next (State.perform_acts found (by simp [op]) first home actor bound right formed
        (reloadAct_reloads (State.launchBlock_read aligned read) named own region done)))

end Sys2Proof
end

section
/-! Links, meridian time, the Keywright and the tag secret (spec/18 R428 to R431, R437 to R440). -/

namespace Sys2Proof.Machine

/-! ### The header of a flit, as bytes and as a number (spec/18 R429) -/

theorem natBytes_take : ∀ (k n v : Nat), k ≤ n → (natBytes n v).take k = natBytes k v
  | 0, _, _, _ => rfl
  | k + 1, n + 1, v, small => congrArg (BitVec.ofNat 8 v :: ·) (natBytes_take k n (v / 256) (Nat.le_of_succ_le_succ small))

theorem bytesNat_natBytes : ∀ n v : Nat, bytesNat (natBytes n v) = v % 256 ^ n
  | 0, v => by rw [pow_zero, Nat.mod_one]; rfl
  | n + 1, v => by
    rw [natBytes, bytesNat, bytesNat_natBytes n, BitVec.toNat_ofNat, pow_succ' 256 n]
    exact Nat.mod_mul.symm

/-- A field of a flit's first doubleword. -/
theorem bits_flitHeader (f : Nat) {lo n : Nat} (small : lo + n ≤ 64) : bits (bytesNat ((natBytes 256 f).take 8)) lo n = bits f lo n := by
  have split : (256 : Nat) ^ 8 = 2 ^ lo * 2 ^ (64 - lo) := by
    rw [← pow_add, Nat.add_sub_cancel' (by omega : lo ≤ 64)]
    rfl
  rw [natBytes_take 8 256 f (by omega), bytesNat_natBytes, bits, bits, split, Nat.mod_mul_right_div_self]
  exact Nat.mod_mod_of_dvd _ (Nat.pow_dvd_pow 2 (by omega))

/-! ### Receiving and replay (spec/18 R429, R430) -/

section
variable (q : Port)

theorem Port.credited_frame (first : Nat) (bs : List Byte) : (q.credited first bs).replay = q.replay ∧ (q.credited first bs).recvSeq = q.recvSeq := by
  unfold Port.credited
  dsimp only
  split <;> exact ⟨rfl, rfl⟩

/-- What an acknowledgement leaves alone, and that it only shortens the replay buffer. -/
theorem Port.acknowledge_frame (now ack : Nat) (nak : Bool) : (q.acknowledge now ack nak).nak = q.nak ∧ (q.acknowledge now ack nak).recvSeq = q.recvSeq ∧
    (q.acknowledge now ack nak).replay.length ≤ q.replay.length := by
  unfold Port.acknowledge
  dsimp only
  split
  all_goals split
  case isTrue.isTrue => exact ⟨rfl, rfl, by simp⟩
  case isFalse.isTrue => exact ⟨rfl, rfl, le_rfl⟩
  all_goals split
  case isTrue.isFalse.isTrue | isTrue.isFalse.isFalse => exact ⟨rfl, rfl, by simp [Port.retrain]⟩
  all_goals exact ⟨rfl, rfl, le_rfl⟩

variable {q} {f : Nat}

/-- A flit passes where its check holds and its type is not reserved. -/
def Port.passes (q : Port) (f : Nat) : Prop := bytesNat ((natBytes 256 f).drop 248) = flitCrc q.recvSeq (natBytes 256 f) ∧ bits f 32 8 < 3

/-- A port as a flit with the header `h` that passed leaves it, before its acknowledgement. -/
def Port.arrived (q : Port) (h : Nat) (bs : List Byte) : Port :=
  let q := if bits h 32 8 = 1 then q.credited (bits h 28 4) bs else q
  { q with nak := false, credit0 := q.credit0 + bits h 44 4, credit1 := q.credit1 + bits h 40 4,
           recvSeq := if bits h 32 8 = 1 then (q.recvSeq + 1) % 1024 else q.recvSeq }

theorem Port.arrived_frame (q : Port) (h : Nat) (bs : List Byte) : (q.arrived h bs).nak = false ∧
    (q.arrived h bs).recvSeq = (if bits h 32 8 = 1 then (q.recvSeq + 1) % 1024 else q.recvSeq) ∧ (q.arrived h bs).replay = q.replay := by
  obtain ⟨replay, seq⟩ := q.credited_frame (bits h 28 4) bs
  unfold Port.arrived
  by_cases data : bits h 32 8 = 1
  · simp only [if_pos data]
    exact ⟨trivial, by rw [seq], replay⟩
  · simp only [if_neg data]
    exact ⟨trivial, trivial, trivial⟩

theorem Port.receive_bad (now : Nat) (bad : ¬ q.passes f) : q.receive now f = { q with nak := true } := by
  rw [Port.receive, bits_flitHeader f (by omega)]
  exact if_pos (by unfold Port.passes at bad; rw [← Nat.not_lt]; tauto)

theorem Port.receive_good (now : Nat) (good : q.passes f) : q.receive now f =
    (q.arrived (bytesNat ((natBytes 256 f).take 8)) (natBytes 256 f)).acknowledge now (bits (bytesNat ((natBytes 256 f).take 8)) 54 10)
      (bit (bytesNat ((natBytes 256 f).take 8)) 53) := by
  obtain ⟨crc, type⟩ := good
  have passes : ¬ (bytesNat ((natBytes 256 f).drop 248) ≠ flitCrc q.recvSeq (natBytes 256 f) ∨ 3 ≤ bits (bytesNat ((natBytes 256 f).take 8)) 32 8) := by
    rw [bits_flitHeader f (by omega)]
    exact not_or.mpr ⟨not_not.mpr crc, Nat.not_le.mpr type⟩
  unfold Port.receive
  generalize natBytes 256 f = bs at passes ⊢
  exact if_neg passes

section
variable {q : Port} {g : Nat × List Byte} {l : List (Nat × List Byte)} (now : Nat) (replay : q.replay = g :: l)
include replay

/-- An acknowledgement of the oldest flit of the replay buffer frees nothing. -/
theorem Port.acknowledge_oldest (nak : Bool) : q.acknowledge now g.1 nak =
    if !nak then q else if 16 ≤ q.resends then q.retrain else { q with resends := q.resends + 1 } := by
  have none : ¬ ((g.1 + 1024 - g.1) % 1024 ≠ 0 ∧ (g.1 + 1024 - g.1) % 1024 ≤ q.replay.length) := by rw [Nat.add_sub_cancel_left]; omega
  have first : (q.replay.head?.map Prod.fst).getD q.sendSeq = g.1 := by rw [replay]; rfl
  have waits : q.replay.isEmpty = false := by rw [replay]; rfl
  simp only [Port.acknowledge, first, if_neg none, waits, Bool.or_false]

end

/-! ### Training (spec/18 R431) -/

section
variable {q : Port} {now lanes : Nat}

theorem Port.trained_up (some : lanes % 4 ≠ 0) : (q.trained now lanes).works = (!q.dead) ∧ (q.trained now lanes).lanes = lanes % 4 := by
  rw [Port.trained, if_pos some]
  exact ⟨rfl, rfl⟩

theorem Port.trained_fails (none : lanes % 4 = 0) : (q.trained now lanes).up = false ∧
    (q.trained now lanes).dead = decide (2 ≤ (q.fails.filter fun t => decide (now < t + 1000000000)).length) := by
  rw [Port.trained, if_neg (not_not.mpr none)]
  exact ⟨rfl, decide_eq_decide.mpr (by rw [List.length_cons]; omega)⟩

end

/-! ### Meridian time (spec/18 R440) -/

theorem State.goodBeacons_eq {s : State} {r : ModuleState} (reference : s.modules.find? (fun r => r.up && r.refr) = some r) (a : ModuleState)
    (s1 a1 s2 a2 : Nat) : s.goodBeacons a s1 a1 s2 a2 =
      (s.linked a.mod (a.mod % 144) && s.linked r.mod (a.mod % 144) && beaconError s1 a1 s2 a2 == a.offset - r.offset) := by
  simp only [State.goodBeacons, reference, Option.any_some]

theorem State.inBounds_eq {s : State} {r : ModuleState} (reference : s.modules.find? (fun r => r.up && r.refr) = some r) (a : ModuleState) :
    s.inBounds a = (decide (a.count s.now ≤ r.count s.now + 4) && decide (r.count s.now ≤ a.count s.now + 4)) := by
  simp only [State.inBounds, reference, Option.all_some]

theorem ModuleState.count_slewed (a : ModuleState) (now later : Nat) (d : Int) : a.count now ≤ (a.slewed now d).count later :=
  (Nat.le_max_right a.floor (a.count now)).trans (Nat.le_max_left _ _)

section
variable {s : State} {m : Nat} {a : ModuleState} (some : s.module? m = some a)
include some

theorem exec_beaconExchange_waits {s1 a1 s2 a2 : Nat} (waits : a.refr = true ∨ a.up = false ∨ s.now < a.beacon + 10000) :
    exec (.beaconExchange m s1 a1 s2 a2) s = .next s := by
  change execBeaconExchange m s1 a1 s2 a2 s = _
  have early : (a.refr || !a.up || decide (s.now < a.beacon + 10000)) = true := by simpa [or_assoc] using waits
  simp only [execBeaconExchange, some, early, Bool.true_or, if_true]

theorem exec_meridianFreeRun_free (other : a.refr = false) (up : a.up = true) (late : a.beacon + 1000000 ≤ s.now) :
    exec (.meridianFreeRun m) s = .next (s.updModule m fun a => { a with freeRun := true, slewing := false }) := by
  change execMeridianFreeRun m s = _
  simp only [execMeridianFreeRun, some, other, up, decide_eq_false (Nat.not_lt.mpr late)]
  rfl

theorem exec_meridianFreeRun_early (early : s.now < a.beacon + 1000000) : exec (.meridianFreeRun m) s = .next s := by
  change execMeridianFreeRun m s = _
  simp only [execMeridianFreeRun, some, decide_eq_true early, Bool.or_true, if_true]

theorem exec_beaconExchange_good {s1 a1 s2 a2 : Nat} (other : a.refr = false) (up : a.up = true) (due : a.beacon + 10000 ≤ s.now)
    (good : s.goodBeacons a s1 a1 s2 a2 = true) : exec (.beaconExchange m s1 a1 s2 a2) s = .next (s.updModule m fun a =>
    { a.slewed s.now (slew (beaconError s1 a1 s2 a2)) with
      beacon := s.now, freeRun := false
      slewing := (a.freeRun || a.slewing) && !s.inBounds (a.slewed s.now (slew (beaconError s1 a1 s2 a2))) }) := by
  change execBeaconExchange m s1 a1 s2 a2 s = _
  simp only [execBeaconExchange, some, other, up, decide_eq_false (Nat.not_lt.mpr due), good]
  rfl

theorem exec_beaconExchange_bad {s1 a1 s2 a2 : Nat} (bad : s.goodBeacons a s1 a1 s2 a2 = false) : exec (.beaconExchange m s1 a1 s2 a2) s = .next s := by
  change execBeaconExchange m s1 a1 s2 a2 s = _
  simp only [execBeaconExchange, some, bad, Bool.not_false, Bool.or_true, if_true]

theorem State.failover_passes {b : Nat} (reference : a.refr = true) (next : s.nextReference m = Option.some b) :
    s.failover m = { s with modules := s.modules.map fun x =>
      if x.mod = b then { x with refr := true, freeRun := false, slewing := false }
      else if x.up then { x with refr := false, slewing := !x.freeRun } else { x with refr := false } } := by
  simp only [State.failover, some, next, reference]
  rfl

theorem State.failover_other (other : a.refr = false) : s.failover m = s := by
  unfold State.failover
  split
  next found _ => exact if_pos (by rw [← Option.some.inj (some.symm.trans found), other]; rfl)
  next => rfl

end

theorem slew_eq (e : Int) : slew e = (if 0 < e then e - 1 else if e < 0 then e + 1 else e) - e := by
  unfold slew
  split <;> [omega; split <;> omega]

/-- A drift that is not made leaves the state, and one that is made leaves every synchronised module within its bounds. -/
theorem State.drift_keeps (s : State) (m : Nat) (ahead : Bool) : s.drift m ahead = s ∨
    (s.drift m ahead = s.updModule m (fun a => a.slewed s.now (if ahead then 1 else -1)) ∧
      ∀ a ∈ (s.drift m ahead).modules, a.up = true → a.freeRun = false → a.slewing = false → (s.drift m ahead).inBounds a = true) := by
  unfold State.drift
  dsimp only
  generalize (if ahead then (1 : Int) else -1) = d
  split
  next all =>
    refine .inr ⟨rfl, fun a here up free slewing => ?_⟩
    simpa [up, free, slewing] using List.all_eq_true.mp all a here
  next => exact .inl rfl

/-! ### The Keywright and the tag secret (spec/18 R438, R439) -/

theorem exec_keywrightTakeover {s : State} {m : Nat} {a : ModuleState} (some : s.module? m = some a) : exec (.keywrightTakeover m) s =
    if a.keywright = 9 then .next s else .next (((s.updModule m fun a => { a with keywright := 9 }).refuseRotation m).refuseAdvances m) := by
  change execKeywrightTakeover m s = _
  rw [execKeywrightTakeover, some]

section
variable (s : State)

theorem State.refuseRotation_none (none : s.secret.word3 = none) (m : Nat) : s.refuseRotation m = s := by
  unfold State.refuseRotation
  rw [none]

theorem State.refuseRotation_some {q : Advance} (some : s.secret.word3 = some q) :
    s.refuseRotation q.mod = { s with secret := { s.secret with next := none, word3 := none } }.refuseRequest q := by
  unfold State.refuseRotation
  rw [some]
  exact if_pos rfl

theorem State.refuseAdvances_none {m : Nat} (none : ∀ q ∈ s.advances, q.mod ≠ m) : s.refuseAdvances m = s := by
  have gone : s.advances.filter (fun q => q.mod == m) = [] := List.filter_eq_nil_iff.mpr fun q here => by simpa using none q here
  have kept : s.advances.filter (fun q => !(q.mod == m)) = s.advances := List.filter_eq_self.mpr fun q here => by simpa using none q here
  simp only [State.refuseAdvances, gone, kept, List.foldl_nil]

theorem State.refuseAdvances_one {q : Advance} (one : s.advances = [q]) : s.refuseAdvances q.mod = { s with advances := [] }.refuseRequest q := by
  simp [State.refuseAdvances, one]

theorem State.tagOk_iff (k : Key) : s.tagOk k = true ↔ k ≠ 0 ∧ (tagOf s.secret.cur k = kTag k ∨ ∃ o, s.secret.old = some o ∧ tagOf o k = kTag k) := by
  unfold State.tagOk
  cases s.secret.old <;> simp

end

end
end Sys2Proof.Machine

namespace Sys2Proof
open Machine

/-- Settles O57: each event by the condition under which it acts, with the port and the clock that it leaves. -/
theorem linksTimeAndSecrets : Obligations.LinksTimeAndSecrets := by
  refine ⟨fun s ep n f works => if_pos works, ?receive, ?replay, ?ports, fun q now lanes => ⟨Port.trained_up, Port.trained_fails⟩, ?time, ?drift, ?refusals, ?rotation,
    fun s none => ?idle, ?grace, fun e => ⟨rfl, rfl, rfl⟩, State.tagOk_iff⟩
  case receive =>
    intro q now f bs ok
    refine ⟨Port.receive_bad now, fun good => ?_⟩
    obtain ⟨nak, seq, replay⟩ := q.arrived_frame (bytesNat ((natBytes 256 f).take 8)) (natBytes 256 f)
    obtain ⟨sameNak, sameSeq, shorter⟩ := (q.arrived (bytesNat ((natBytes 256 f).take 8)) (natBytes 256 f)).acknowledge_frame now
      (bits (bytesNat ((natBytes 256 f).take 8)) 54 10) (bit (bytesNat ((natBytes 256 f).take 8)) 53)
    rw [bits_flitHeader f (by omega)] at seq
    rw [Port.receive_good now good]
    exact ⟨sameNak.trans nak, sameSeq.trans seq, shorter.trans_eq (congrArg List.length replay)⟩
  case replay =>
    intro q now g l replay
    exact ⟨fun few => (Port.acknowledge_oldest now replay true).trans (if_neg (Nat.not_le.mpr few)),
      fun many => (Port.acknowledge_oldest now replay true).trans (if_pos many), Port.acknowledge_oldest now replay false⟩
  case ports =>
    intro s ep n lanes q now
    refine ⟨fun works waits late => if_pos ?_, fun early => if_neg ?_, fun training alive => if_pos ?_, fun dead => if_pos dead,
      fun alive => if_neg (ne_true_of_eq_false alive)⟩
    · simpa using And.intro (And.intro works waits) late
    · simpa using fun _ _ => early
    · simpa using And.intro training alive
  case time =>
    intro s m s1 a1 s2 a2 a found
    refine ⟨?beacons, exec_beaconExchange_waits found, fun now later d _ => ⟨a.count_slewed now later d, rfl⟩, exec_meridianFreeRun_free found,
      exec_meridianFreeRun_early found, ?failover, fun other => congrArg Host.Outcome.next (State.failover_other found other), fun first => ?_, fun second => ?_⟩
    case beacons =>
      intro other up due r reference way e left
      have exchanged := State.goodBeacons_eq reference a s1 a1 s2 a2
      refine ⟨fun linked same => ?_, fun bad => exec_beaconExchange_bad found ?_⟩
      · have good : s.goodBeacons a s1 a1 s2 a2 = true := exchanged.trans (by rw [same, beq_self_eq_true, Bool.and_true]; exact linked)
        refine (exec_beaconExchange_good found other up due good).trans ?_
        simp only [slew_eq, State.inBounds_eq reference, same]
        rfl
      · refine exchanged.trans (Bool.and_eq_false_iff.mpr ?_)
        exact bad.imp id beq_false_of_ne
    case failover =>
      intro b reference next
      refine ⟨_, congrArg Host.Outcome.next (State.failover_passes found reference next), rfl, rfl, fun x here => ?_, ?_, ?_⟩
      · obtain ⟨y, -, rfl⟩ := List.mem_map.mp here
        by_cases chosen : y.mod = b
        · simp [chosen]
        · by_cases up : y.up = true <;> simp [chosen, up]
      all_goals
        rw [List.map_map]
        refine List.map_congr_left fun x _ => ?_
        simp only [Function.comp_apply]
        split_ifs <;> rfl
    case _ => exact (exec_keywrightTakeover found).trans (if_neg first)
    case _ => exact (exec_keywrightTakeover found).trans (if_pos second)
  case drift =>
    intro s m ahead
    refine ⟨s.drift m ahead, rfl, ?_⟩
    obtain still | ⟨moves, bounds⟩ := s.drift_keeps m ahead
    · rw [still]
      exact ⟨rfl, rfl, rfl, .inl rfl⟩
    · refine ⟨by rw [moves]; rfl, by rw [moves]; rfl, by rw [moves]; rfl, .inr ⟨moves, fun a here up free slewing r reference => ?_⟩⟩
      have within := bounds a here up free slewing
      rw [State.inBounds_eq reference, Bool.and_eq_true, decide_eq_true_eq, decide_eq_true_eq] at within
      exact within
  case refusals =>
    intro s q m
    refine ⟨rfl, fun some same => ?_, fun none => s.refuseRotation_none none m, s.refuseAdvances_none, fun one same => ?_⟩
    · exact same ▸ s.refuseRotation_some some
    · exact same ▸ s.refuseAdvances_one one
  case rotation =>
    intro s k q next word3
    change execRotationAcknowledged s = _
    rw [execRotationAcknowledged, next, word3]
  case idle =>
    change execRotationAcknowledged s = _
    rw [execRotationAcknowledged, none]
  case grace =>
    intro s
    refine ⟨fun old ended => if_pos (by simpa using And.intro old ended), fun waits => if_neg ?_⟩
    rcases waits with none | early
    · simp [none]
    · simp [early]

end Sys2Proof
end

section
/-! Schedulers, budgets, the second stage of a save and the move of a scratchpad (spec/16 R407 to R411, spec/15 R385, R388). -/

namespace Sys2Proof.Machine

/-! ### Slots and waiting queues (spec/16 R408) -/

/-- The slot of region `r` passes to the queue `w`. -/
def State.passSlot (s : State) (m d r : Nat) (w : RQueue) : State :=
  let now := s.meridian m
  let u := s.updQueue m d r fun q => q.wait (s.basePrio q) now
  ((u.updQueue m d w.rid fun q => q.map (u.basePrio q) now).preemptWhere fun a => a.loc.mod == m && a.loc.die == d && a.rid == r).settleQueues m d

section
variable {s t : State} {m d r f : Nat} {q : RQueue} (settled : t = s.settleQueues m d) (queue : t.rqueue? m d r = some q) (mapped : q.slotAt = some f)
include settled queue mapped

theorem exec_slotBoundary_early (early : q.pinned = true ∨ t.meridian m < f + quantum) : exec (.slotBoundary m d r) s = .next t := by
  subst settled
  change execSlotBoundary m d r s = _
  simp only [execSlotBoundary, queue, mapped]
  exact if_pos (by simpa using early)

variable (free : q.pinned = false) (due : f + quantum ≤ t.meridian m)
include free due

theorem exec_slotBoundary_renewed (alone : t.nextMapped m d = none) :
    exec (.slotBoundary m d r) s = .next (t.updQueue m d r fun q => { q with slotAt := some (f + quantum) }) := by
  subst settled
  change execSlotBoundary m d r s = _
  simp only [execSlotBoundary, queue, mapped, free, Bool.false_or, decide_eq_false (Nat.not_lt.mpr due), alone, Bool.false_eq_true, if_false]

theorem exec_slotBoundary_passed {w : RQueue} (best : t.nextMapped m d = some w) : exec (.slotBoundary m d r) s = .next (t.passSlot m d r w) := by
  subst settled
  change execSlotBoundary m d r s = _
  simp only [execSlotBoundary, queue, mapped, free, Bool.false_or, decide_eq_false (Nat.not_lt.mpr due), best, Bool.false_eq_true, if_false]
  rfl

end

theorem RQueue.agedTo_waiting {q : RQueue} {f : Nat} (waits : q.waitFrom = some f) (now : Nat) : q.agedTo now =
    if (now - f) / 250000 ≤ q.aged then q else { q with prio := min 7 (q.prio + ((now - f) / 250000 - q.aged)), aged := (now - f) / 250000 } := by
  rw [RQueue.agedTo, waits]
  rfl

theorem State.tidied_waiting (s : State) {q : RQueue} (waits : q.waitFrom.isSome = true) (unmapped : q.slotAt = none)
    (wanted : (q.pinned || s.hasWork q) = true) : s.tidied q = q.agedTo (s.meridian q.mod) := by
  simp only [State.tidied, unmapped, wanted, waits, Option.isSome_none, Bool.false_eq_true, if_false, if_true]

/-! ### Places (spec/02 R36) -/

/-- Whether a queued thread that its die's scheduler finds in its queue may be placed on a core now. -/
def State.mayPlace (s : State) (r : Region) (k : RQueue) (a : Agent) (l : Loc) : Bool :=
  a.life == .queued && !a.hold && l.die == a.loc.die && k.slotAt.isSome && s.hasWork k && s.isNext r k a l && !s.gangWaits k l &&
    !s.takesFirst k l (s.openQueues l.mod l.die)

section
variable {s t : State} {n c x g q : Nat} {a : Agent} {r : Region} {k : RQueue} (found : s.agent? n = some a)
  (settled : t = s.settleQueues a.loc.mod (c / 128)) (region : t.region? a.loc.mod a.rid = some r) (queue : t.rqueue? a.loc.mod a.loc.die a.rid = some k)
  (may : t.mayPlace r k a ⟨a.loc.mod, c / 128, c % 128⟩ = true)
include found settled region queue may

theorem exec_threadPlace : exec (.threadPlace n c x g q) s =
    if a.saved && 1 < a.columns.length then .next (t.placeGang r a ⟨a.loc.mod, c / 128, c % 128⟩)
    else if t.seatOk r a ⟨a.loc.mod, c / 128, c % 128⟩ ⟨x, g, q⟩ then .next (t.seatThread r a ⟨a.loc.mod, c / 128, c % 128⟩ ⟨x, g, q⟩)
    else .next t := by
  subst settled
  change execThreadPlace n c x g q s = _
  simp only [execThreadPlace, found, region, queue]
  exact if_pos may

end

theorem Agent.seated_fields (a : Agent) (l : Loc) (t : Seat) (now : Nat) :
    (a.marked = false → (a.seated l t now).life = .ready) ∧ (1 < a.columns.length → (a.seated l t now).mgang = a.mgang) ∧
      (a.columns.length ≤ 1 → (a.seated l t now).mgang = BitVec.ofNat 16 (2 ^ l.column)) :=
  ⟨fun unmarked => if_neg (ne_true_of_eq_false unmarked), fun gang => if_pos gang, fun alone => if_neg (Nat.not_lt.mpr alone)⟩

/-! ### Quanta, drain limits and the second stage of a save -/

/-- Another thread waits in a thread's queue. -/
def State.othersWait (s : State) (a : Agent) : Bool :=
  match s.rqueue? a.loc.mod a.loc.die a.rid with
  | some q => !(s.queueThreads q).isEmpty
  | none => false

theorem State.othersWait_iff (t : State) (a : Agent) :
    t.othersWait a = true ↔ ∃ q, t.rqueue? a.loc.mod a.loc.die a.rid = some q ∧ t.queueThreads q ≠ [] := by
  unfold State.othersWait
  cases t.rqueue? a.loc.mod a.loc.die a.rid <;> simp

section
variable {s : State} {n : Nat} {a : Agent} (found : s.agent? n = some a)
include found

theorem exec_threadQuantum : exec (.threadQuantum n) s =
    if !a.isHandler && a.placed && a.life != .exited && (((s.settleQueues a.loc.mod a.loc.die).othersWait a &&
      decide (a.started + quantum ≤ (s.settleQueues a.loc.mod a.loc.die).meridian a.loc.mod)) || (s.settleQueues a.loc.mod a.loc.die).inGangsWay a) then
      .next ((s.settleQueues a.loc.mod a.loc.die).preemptThread a)
    else .next (s.settleQueues a.loc.mod a.loc.die) := by
  change execThreadQuantum n s = _
  simp only [execThreadQuantum, found]
  rfl

theorem exec_drainLimitExpiry : exec (.drainLimitExpiry n) s =
    if a.saved && a.life == .queued && !a.complete &&
        decide (a.saveTime + ((s.region? a.loc.mod a.rid).map Region.drainLimit).getD 1000000 ≤ s.meridian a.loc.mod) then
      .next (((s.ownSats n).filter fun t => !t.terminal).foldl (fun s t => s.cancelSat t.sid) s)
    else .next s := by
  change execDrainLimitExpiry n s = _
  simp only [execDrainLimitExpiry, found]

theorem exec_contextSaveStage2_runs (runs : (s.ownSats n).all Sat.terminal = false) : exec (.contextSaveStage2 n) s = .next s := by
  change execContextSaveStage2 n s = _
  simp only [execContextSaveStage2, found, runs, Bool.and_false, Bool.false_eq_true, if_false]
  split <;> rfl

theorem exec_contextSaveStage2_ends {r : Region} {t u : State} (region : s.region? a.loc.mod a.rid = some r) (saved : a.saved = true) (queued : a.life = .queued)
    (incomplete : a.complete = false) (ended : (s.ownSats n).all Sat.terminal = true)
    (pieces : s.savePieces r a.loc (imageBase r a.tid) ((0xB000, (s.slotRecords a).flatMap wordsBytes) ::
      (match s.sliceOf n with | some l => matrixPieces l | none => [])) = (.ok (), t))
    (header : (t.release a.loc 3).savePieces r a.loc (imageBase r a.tid) [(0, wordsBytes [headerWord0 true a.tid])] = (.ok (), u)) :
    exec (.contextSaveStage2 n) s = .next (((u.release a.loc 3).dropSlice n).updAgent n fun a => { a with complete := true }) := by
  change execContextSaveStage2 n s = _
  cases slice : s.sliceOf n
  all_goals
    simp only [slice] at pieces
    simp only [execContextSaveStage2, found, region, saved, queued, incomplete, ended, slice, pieces, header]
    rfl

end

/-! ### Budgets (spec/16 R410) -/

section
variable {s : State} {m r : Nat} {g : Region} (region : s.region? m r = some g) (bound : g.state = .bound)
include region bound

theorem exec_timeBudgetSpent : exec (.timeBudgetSpent m r) s = if g.tperiod != 0 && decide (g.tbudget ≤ g.periodUsed) && !g.exhausted then
    .next (((s.updRegion m r fun g => { g with exhausted := true }).preemptWhere fun a => a.loc.mod == m && a.rid == r).settleAll m) else .next s := by
  change execTimeBudgetSpent m r s = _
  simp only [execTimeBudgetSpent, region, bound, beq_self_eq_true, Bool.true_and]

theorem exec_timePeriodBegin : exec (.timePeriodBegin m r) s = if g.tperiod != 0 && decide (g.periodStart + g.tperiod ≤ s.meridian m) then
    .next ((s.updRegion m r fun g' => { g' with periodStart := g'.periodStart + (s.meridian m - g.periodStart) / g.tperiod * g'.tperiod, periodUsed := 0,
                                                exhausted := false }).settleAll m) else .next s := by
  change execTimePeriodBegin m r s = _
  simp only [execTimePeriodBegin, region, bound, beq_self_eq_true, Bool.true_and]

theorem exec_lifetimeBudget (n : Nat) : exec (.lifetimeBudget m r n) s = if g.hardns != 0 && decide (g.hardns ≤ g.used) then
    .next (s.endRegion ⟨m, 0, 0⟩ r (.budget g.spentBy)) else .next s := by
  change execLifetimeBudget m r n s = _
  simp only [execLifetimeBudget, region, bound, beq_self_eq_true, Bool.true_and]

end

/-! ### The move of a scratchpad (spec/15 R388) -/

/-- A core's name is passed on in the table of endpoints alone. -/
theorem State.passScratch_frame (s : State) (l : Loc) :
    (s.passScratch l).mem = s.mem ∧ (s.passScratch l).allocs = s.allocs ∧ (s.passScratch l).slines = s.slines := by
  unfold State.passScratch
  dsimp only
  split <;> exact ⟨rfl, rfl, rfl⟩

theorem scratchLines_loc {l : Loc} {rid lines : Nat} {bad : Nat → Nat → Bool} {bs : List Byte} {q : SLine} (here : q ∈ scratchLines l rid lines bad bs) :
    q.loc = l := by
  simp only [scratchLines, List.mem_flatMap, List.mem_map] at here
  obtain ⟨j, -, i, -, rfl⟩ := here
  rfl

/-- The state with the scratchpad of a region, read from its save block, on another core. -/
def State.landScratch (s : State) (l k : Loc) (r n : Nat) (bs : List Byte) : State :=
  { s with
    slines := (s.slines.filter fun a => !(a.loc == l && a.rid == r)) ++
      (scratchLines k r (n / 128) (fun j i => (s.sline l r j i).bad) bs).filter fun a => !(a.st == 0 && a.data == 0 && !a.bad)
    allocs := s.allocs ++ [(⟨k, r, n⟩ : Alloc)] }

theorem State.landScratch_slines {s : State} {l k : Loc} {r n : Nat} {bs : List Byte} (apart : k ≠ l) {q : SLine}
    (here : q ∈ (s.landScratch l k r n bs).slines) (loc : q.loc = l) : q.rid ≠ r := by
  rcases List.mem_append.mp here with kept | landed
  · intro rid
    simp [List.mem_filter, loc, rid] at kept
  · exact absurd ((scratchLines_loc (List.mem_filter.mp landed).1).symm.trans loc) apart

section
variable {s v w : State} {m r d c d2 c2 : Nat} {g : Region} {bs : List Byte}

theorem exec_scratchpadMove (region : s.region? m r = some g) (bound : g.state = .bound)
    (held : (s.allocs.any fun a => a.loc == ⟨m, d, c⟩ && a.rid == r) = true)
    (idle : ((s.sats.all fun t => t.rid != r || t.terminal || !(t.loc == ⟨m, d, c⟩ || t.reaches ⟨m, d, c⟩)) &&
      s.agents.all fun a => a.loc != ⟨m, d, c⟩ || a.rid != r || !a.placed || a.life == .exited) = true)
    (allowed : g.allows d2 = true) (die : d2 < 8) (core : c2 < 128) (fresh : (s.allocs.any fun a => a.loc == ⟨m, d2, c2⟩ && a.rid == r) = false)
    (room : s.laneUsed ⟨m, d2, c2⟩ + s.laneBytes ⟨m, d, c⟩ r ≤ 16384)
    (saves : (State.passScratch { s with allocs := s.allocs.filter fun a => !(a.loc == ⟨m, d, c⟩ && a.rid == r) } ⟨m, d, c⟩).saveBytes g ⟨m, d, c⟩ g.spsave
      ((State.passScratch { s with allocs := s.allocs.filter fun a => !(a.loc == ⟨m, d, c⟩ && a.rid == r) } ⟨m, d, c⟩).scratchBytes ⟨m, d, c⟩ r
        (s.laneBytes ⟨m, d, c⟩ r / 128)) = (.ok (), v))
    (loads : (v.release ⟨m, d, c⟩ 3).loadBytes g ⟨m, d2, c2⟩ g.spsave (64 * s.laneBytes ⟨m, d, c⟩ r + s.laneBytes ⟨m, d, c⟩ r / 2 * 8) = (.ok bs, w)) :
    exec (.scratchpadMove m r d c d2 c2) s = .next
      (if (w.endpoint m d2 1 c2 0).owner.isNone then (w.landScratch ⟨m, d, c⟩ ⟨m, d2, c2⟩ r (s.laneBytes ⟨m, d, c⟩ r) bs).passScratch ⟨m, d2, c2⟩
        else w.landScratch ⟨m, d, c⟩ ⟨m, d2, c2⟩ r (s.laneBytes ⟨m, d, c⟩ r) bs) := by
  change execScratchpadMove m r d c d2 c2 s = _
  simp only [execScratchpadMove, region, bound, held, idle, allowed, die, core, fresh, room, saves, loads]
  rfl

end

end Sys2Proof.Machine

namespace Sys2Proof
open Machine

/-- Settles O58: each scheduler event by the condition under which it acts. -/
theorem schedulersAndBudgets : Obligations.SchedulersAndBudgets := by
  refine ⟨?slots, ?aging, ?waiting, ?places, ?seats, ?threads, ?budgets, ?hostQueues⟩
  case slots =>
    intro s m d r q t queue
    exact ⟨fun f mapped => exec_slotBoundary_early rfl queue mapped, fun f mapped free due => exec_slotBoundary_renewed rfl queue mapped free due,
      fun f w mapped free due => exec_slotBoundary_passed rfl queue mapped free due, rfl⟩
  case aging =>
    intro q now f waits k
    rw [RQueue.agedTo_waiting waits]
    split
    next young => exact ⟨(Nat.max_eq_left young).symm, rfl⟩
    next old => exact ⟨(Nat.max_eq_right (Nat.le_of_not_le old)).symm, rfl⟩
  case waiting =>
    intro s q waits unmapped wanted
    exact s.tidied_waiting waits unmapped (Bool.or_eq_true_iff.mpr wanted)
  case places =>
    intro s n c x g q a r k found _ l t region queue queued free die mapped work next gang first
    have here : (l.die == a.loc.die) = true := beq_iff_eq.mpr die
    have may : t.mayPlace r k a l = true := by
      simp only [State.mayPlace, queued, free, here, mapped, work, next, gang, first]
      rfl
    have places := exec_threadPlace (x := x) (g := g) (q := q) found rfl region queue may
    refine ⟨fun single => ?_, fun saved many => places.trans (if_pos (by rw [saved]; exact decide_eq_true many))⟩
    have alone : ¬ (a.saved && decide (1 < a.columns.length)) = true := by
      rcases single with fresh | few
      · simp [fresh]
      · simp [Nat.not_lt.mpr few]
    exact ⟨fun seat => (places.trans (if_neg alone)).trans (if_pos seat), fun none => (places.trans (if_neg alone)).trans (if_neg (ne_true_of_eq_false none))⟩
  case seats =>
    intro a l t now b
    obtain ⟨ready, mates, alone⟩ := a.seated_fields l t now
    exact ⟨rfl, rfl, rfl, rfl, rfl, rfl, rfl, rfl, rfl, rfl, ready, mates, alone⟩
  case threads =>
    intro s n a found t waits
    have quanta := exec_threadQuantum found
    have drains := exec_drainLimitExpiry found
    refine ⟨fun thread placed live due => ?_, fun stays => ?_, ⟨fun saved queued incomplete late => ?_, fun early => ?_⟩, fun r t u region saved queued incomplete ended =>
      exec_contextSaveStage2_ends found region saved queued incomplete ended, exec_contextSaveStage2_runs found⟩
    · refine quanta.trans (if_pos ?_)
      have due : t.othersWait a = true ∧ a.started + quantum ≤ t.meridian a.loc.mod ∨ t.inGangsWay a = true := due.imp_left (And.imp_left (t.othersWait_iff a).mpr)
      simpa [thread, placed, live] using due
    · refine quanta.trans (if_neg ?_)
      rcases stays with handler | unplaced | ⟨alone, free⟩
      · simp [handler]
      · simp [unplaced]
      · have alone : t.othersWait a = true → t.meridian a.loc.mod < a.started + quantum := fun some => alone.resolve_left (not_not.mpr ((t.othersWait_iff a).mp some))
        have idle : (t.othersWait a && decide (a.started + quantum ≤ t.meridian a.loc.mod)) = false := by simpa using alone
        have stays : (t.othersWait a && decide (a.started + quantum ≤ t.meridian a.loc.mod) || t.inGangsWay a) = false := by rw [idle, free]; rfl
        exact ne_true_of_eq_false ((congrArg (_ && ·) stays).trans (Bool.and_false _))
    · exact drains.trans (if_pos (by simp [saved, queued, incomplete, late]))
    · exact drains.trans (if_neg (by simp [early]))
  case budgets =>
    intro s m r n g region bound
    have spent := exec_timeBudgetSpent region bound
    have begins := exec_timePeriodBegin region bound
    have ends := exec_lifetimeBudget region bound n
    refine ⟨fun budget used fresh => spent.trans (if_pos ?_), fun left => spent.trans (if_neg ?_), fun budget ended => begins.trans (if_pos ?_),
      fun left => begins.trans (if_neg ?_), fun budget used => ends.trans (if_pos ?_), fun left => ends.trans (if_neg ?_), ?move⟩
    case move =>
      intro d c d2 c2 l k u held sats agents allowed die core fresh room v w bs saves loads
      have away : k ≠ l := by
        obtain ⟨a, here, loc, rid⟩ := held
        exact fun same => fresh a here (loc.trans same.symm) rid
      have moves := exec_scratchpadMove region bound (List.any_eq_true.mpr ?held) (Bool.and_eq_true_iff.mpr ⟨List.all_eq_true.mpr ?sats, List.all_eq_true.mpr ?agents⟩)
        allowed die core (List.any_eq_false.mpr ?fresh) room saves loads
      · refine ⟨_, moves, ?_⟩
        split
        next =>
          obtain ⟨mem, allocs, slines⟩ := (w.landScratch l k r (s.laneBytes l r) bs).passScratch_frame k
          exact ⟨mem, allocs, fun q here => State.landScratch_slines away (slines ▸ here)⟩
        next => exact ⟨rfl, rfl, fun q here => State.landScratch_slines away here⟩
      case held =>
        obtain ⟨a, here, loc, rid⟩ := held
        exact ⟨a, here, by simpa using And.intro loc rid⟩
      case sats =>
        intro t here
        have ends := sats t here
        simp only [Bool.or_eq_true, bne_iff_ne, Bool.not_eq_true']
        by_cases rid : t.rid = r
        · by_cases near : t.loc = l ∨ t.reaches l = true
          · exact .inl (.inr (ends rid near))
          · exact .inr (by simpa using near)
        · exact .inl (.inl rid)
      case agents =>
        intro a here
        have gone := agents a here
        simp only [Bool.or_eq_true, bne_iff_ne, Bool.not_eq_true', beq_iff_eq]
        by_cases loc : a.loc = l
        · by_cases rid : a.rid = r
          · cases placed : a.placed
            · exact .inl (.inr rfl)
            · exact .inr (gone loc rid placed)
          · exact .inl (.inl (.inr rid))
        · exact .inl (.inl (.inl loc))
      case fresh =>
        intro a here
        simpa using fresh a here
    · simp [budget, used, fresh]
    · rcases left with none | few
      · simp [none]
      · simp [few]
    · simp [budget, ended]
    · rcases left with none | few
      · simp [none]
      · simp [few]
    · simp [budget, used]
    · rcases left with none | few
      · simp [none]
      · simp [few]
  case hostQueues =>
    intro s m v n q
    refine ⟨fun owed room => (if_pos ?_).trans ?_, fun _ full => if_neg ?_, fun paid => if_neg ?_⟩
    · simpa using And.intro owed room
    · change Host.Outcome.next (s.setHostq (HostQueue.pay q (s.meridian m))) = _
      rw [HostQueue.pay, if_pos owed]
      rfl
    · simpa using fun _ => full
    · simpa using fun owed => absurd owed (ne_true_of_eq_false paid)

end Sys2Proof
end

section
/-! Trace, power, errors, attestation and reset (spec/19, spec/20). -/

namespace Sys2Proof.Machine

/-! ### Tables of entries -/

section
variable {α : Type} {p q : α → Bool} {v : α}

/-- The entry that was set is the one that is found. -/
theorem find?_upsert (at_ : p v = true) : ∀ l : List α, (upsert p v l).find? p = some v
  | [] => List.find?_cons_of_pos at_
  | a :: t => by
    unfold upsert
    split
    next => exact List.find?_cons_of_pos at_
    next other => exact (List.find?_cons_of_neg other).trans (find?_upsert at_ t)

/-- A search for other entries finds what it found. -/
theorem find?_upsert_other (apart : ∀ a, p a = true → q a = false) (other : q v = false) : ∀ l : List α, (upsert p v l).find? q = l.find? q
  | [] => List.find?_cons_of_neg (ne_true_of_eq_false other)
  | a :: t => by
    unfold upsert
    split
    next same =>
      rw [List.find?_cons_of_neg (ne_true_of_eq_false other), List.find?_cons_of_neg (ne_true_of_eq_false (apart a same))]
    next => rw [List.find?_cons, List.find?_cons, find?_upsert_other apart other t]

end

/-! ### The record of a core (spec/19 R443) -/

section
variable (s : State) (l : Loc)

theorem State.core_loc : (s.core l).loc = l := by
  unfold State.core
  cases found : s.cores.find? fun c => c.loc == l with
  | none => rfl
  | some c => exact beq_iff_eq.mp (List.find?_some (p := fun c : CoreState => c.loc == l) found)

theorem State.updCore_core {f : CoreState → CoreState} (kept : (f (s.core l)).loc = (s.core l).loc) : (s.updCore l f).core l = f (s.core l) := by
  have here : ((f (s.core l)).loc == l) = true := beq_iff_eq.mpr (kept.trans (s.core_loc l))
  exact congrArg (Option.getD · _) (find?_upsert (p := fun c : CoreState => c.loc == l) here s.cores)

/-- The energy that a core has charged to an id. -/
def State.charged (rid : Nat) : Option (Nat × Nat) := (s.core l).energy.find? fun e => e.1 == rid

variable (r nj : Nat)

theorem State.charge_core : (s.charge l r nj).core l = { s.core l with
    energy := upsert (fun e => e.1 == r) (r, (((s.charged l r).map Prod.snd).getD 0 + nj) % 2 ^ 64) (s.core l).energy } := s.updCore_core l rfl

theorem State.charge_charged : (s.charge l r nj).charged l r = some (r, (((s.charged l r).map Prod.snd).getD 0 + nj) % 2 ^ 64) := by
  rw [State.charged, State.charge_core]
  exact find?_upsert (p := fun e : Nat × Nat => e.1 == r) (beq_self_eq_true r) _

theorem State.charge_charged_other {rid : Nat} (other : rid ≠ r) : (s.charge l r nj).charged l rid = s.charged l rid := by
  rw [State.charged, State.charge_core]
  refine find?_upsert_other (p := fun e : Nat × Nat => e.1 == r) (q := fun e => e.1 == rid) (fun e same => ?_) (beq_false_of_ne (Ne.symm other)) _
  rw [beq_iff_eq.mp same]
  exact beq_false_of_ne (Ne.symm other)

/-- Nothing charged changes no charge that stands within 64 bits. -/
theorem State.charge_nothing {rid v : Nat} (stands : s.charged l rid = some (rid, v % 2 ^ 64)) : (s.charge l r 0).charged l rid = some (rid, v % 2 ^ 64) := by
  by_cases same : rid = r
  · subst same
    rw [State.charge_charged, stands]
    simp only [Option.map_some, Option.getD_some, Nat.add_zero, Nat.mod_mod]
  · exact (s.charge_charged_other l r 0 same).trans stands

end

/-- Charges leave memory, the agent and the counts of accesses. -/
theorem State.charges_frame (l : Loc) (share : AccessCount → Nat) : ∀ (mine : List AccessCount) (s : State),
    (mine.foldl (fun s a => s.charge l a.rid (share a)) s).mem = s.mem ∧ (mine.foldl (fun s a => s.charge l a.rid (share a)) s).me = s.me ∧
      (mine.foldl (fun s a => s.charge l a.rid (share a)) s).accs = s.accs
  | [], _ => ⟨rfl, rfl, rfl⟩
  | a :: t, s => State.charges_frame l share t (s.charge l a.rid (share a))

section
variable (s : State) (m d nj : Nat)

theorem State.chargeShared_frame : (s.chargeShared m d nj).mem = s.mem ∧ (s.chargeShared m d nj).me = s.me ∧
    (s.chargeShared m d nj).accs = s.accs.filter fun a => !(a.mod == m && a.die == d) := by
  obtain ⟨mem, me, accs⟩ := State.charges_frame ⟨m, d, 128⟩ _ _ s
  exact ⟨mem, me, congrArg (List.filter fun a : AccessCount => !(a.mod == m && a.die == d)) accs⟩

theorem State.chargeShared_one {a : AccessCount}
    (one : (s.accs.filter fun a => a.mod == m && a.die == d && (s.region? m a.rid).any fun g => g.state == .bound) = [a]) (some : 0 < a.n) :
    (s.chargeShared m d nj).charged ⟨m, d, 128⟩ a.rid = Option.some (a.rid, (((s.charged ⟨m, d, 128⟩ a.rid).map Prod.snd).getD 0 + nj) % 2 ^ 64) := by
  have share : nj * a.n / max 1 a.n = nj := by rw [Nat.max_eq_right some, Nat.mul_div_cancel nj some]
  have charges : (s.chargeShared m d nj).charged ⟨m, d, 128⟩ a.rid = ((s.charge ⟨m, d, 128⟩ a.rid nj).charge ⟨m, d, 128⟩ 0xFFFF 0).charged ⟨m, d, 128⟩ a.rid := by
    simp only [State.chargeShared, one, List.map_cons, List.map_nil, List.sum_cons, List.sum_nil, List.foldl_cons, List.foldl_nil, Nat.add_zero, share, Nat.sub_self]
    rfl
  exact charges.trans ((s.charge ⟨m, d, 128⟩ a.rid nj).charge_nothing ⟨m, d, 128⟩ 0xFFFF (s.charge_charged ⟨m, d, 128⟩ a.rid nj))

end

/-! ### Power events (spec/19 R455) -/

theorem PowerEv.places_none {e : PowerEv} {rid : Nat} (none : ∀ q ∈ e.held, q.rid ≠ rid) : e.places rid = [⟨rid, e.core, 0, e.old, e.new⟩] := by
  have gone : (e.held.filter fun q => q.rid == rid) = [] := List.filter_eq_nil_iff.mpr fun q here => by simpa using none q here
  rw [PowerEv.places, gone]

theorem PowerEv.places_held {e : PowerEv} {rid : Nat} (held : ∃ q ∈ e.held, q.rid = rid) : e.places rid = e.held.filter fun q => q.rid == rid := by
  obtain ⟨q, here, same⟩ := held
  have kept : (e.held.filter fun q => q.rid == rid) ≠ [] := List.ne_nil_of_mem (List.mem_filter.mpr ⟨here, beq_iff_eq.mpr same⟩)
  unfold PowerEv.places
  split
  next gone => exact absurd gone kept
  next => rfl

theorem exec_powerEvent_none {s : State} {m d temp watts : Nat} (none : (s.die m d).power = []) : exec (.powerEvent m d temp watts) s = .next s := by
  change execPowerEvent m d temp watts s = _
  rw [execPowerEvent, none]

theorem exec_powerEvent_first {s : State} {m d temp watts : Nat} {e : PowerEv} {r : List PowerEv} (first : (s.die m d).power = e :: r) :
    exec (.powerEvent m d temp watts) s = .next
      (if e.ev = 1 ∨ e.ev = 3 then
        ((s.tbufs.filter fun b => b.mod == m && b.die == d).foldl (fun s b => s.powerRecord e temp watts b) (s.updDie m d fun x => { x with power := r })).updDie m d
          fun x => { x with captureEnd := some (e.at_ + 50000) }
      else (s.tbufs.filter fun b => b.mod == m && b.die == d).foldl (fun s b => s.powerRecord e temp watts b) (s.updDie m d fun x => { x with power := r })) := by
  change execPowerEvent m d temp watts s = _
  rw [execPowerEvent, first]
  rfl

/-! ### Errors (spec/20 R467) -/

section
variable (s : State) (l : Loc) (unit pa who : Nat)

theorem State.poisonData_frame (held : unit ≠ 5) : (s.poisonData l unit pa who).mem = s.mem ∧ (s.poisonData l unit pa who).me = s.me ∧
    (s.poisonData l unit pa who).others = s.others := by
  unfold State.poisonData
  split
  next => exact ⟨rfl, rfl, rfl⟩
  next => exact ⟨rfl, rfl, rfl⟩
  next => exact absurd rfl held
  next => exact ⟨rfl, rfl, rfl⟩

theorem State.poisonData_poisoned (rdc : unit ≠ 3) (line : unit ≠ 4) (held : unit ≠ 5) (seen : s.counted? l.mod (pa / 128) = none ∨ unit = 2) :
    (s.poisonData l unit pa who).poisoned l.mod (pa / 128) = true := by
  unfold State.poisonData
  split
  next => exact absurd rfl rdc
  next => exact absurd rfl line
  next => exact absurd rfl held
  next =>
    refine List.any_eq_true.mpr ⟨_, List.mem_cons_self, ?_⟩
    simpa [State.counted?] using seen

end

/-! ### Attestation (spec/20 R462) -/

theorem attestBody_length (a : ModuleState) (fixed : List Nat) (nonce : Nat) : (attestBody a fixed nonce).length = 512 := by
  simp only [attestBody, List.length_append, natBytes_length, List.length_replicate, List.length_map, List.length_range]

/-- The report with which a module answers an attestation. -/
def State.report (s : State) (m nonce : Nat) (a : ModuleState) : List Byte :=
  let body := attestBody a (s.fixedNums m) nonce
  let words := (List.range 64).map fun i => BitVec.ofNat 64 (bytesNat ((body.drop (8 * i)).take 8))
  body ++ (List.range 512).map fun i => Config.signature a.mod words i

theorem State.report_length (s : State) (m nonce : Nat) (a : ModuleState) : (s.report m nonce a).length = 1024 := by
  rw [State.report, List.length_append, attestBody_length, List.length_map, List.length_range]

/-! ### Reset (spec/20 R463) -/

theorem State.failover_mem (s : State) (m : Nat) : (s.failover m).mem = s.mem := by
  unfold State.failover
  split
  · dsimp only
    split <;> rfl
  · rfl

theorem State.failover_me (s : State) (m : Nat) : (s.failover m).me = s.me := by
  unfold State.failover
  split
  · dsimp only
    split <;> rfl
  · rfl

/-- A cell that no entry has reads as zero. -/
theorem Memory.get_absent {k : Nat} : ∀ {l : List Host.Cell}, (∀ c ∈ l, c.1 ≠ k) → Memory.get l k = 0
  | [], _ => rfl
  | (a, b) :: t, absent => by
    obtain ⟨first, rest⟩ := List.forall_mem_cons.mp absent
    rw [Memory.get, if_neg first, Memory.get_absent rest]
    exact ite_self _

/-- Cells below a bound are not listed above it. -/
theorem Memory.get_below {lo k : Nat} (below : k ≤ lo) : ∀ {l : List Host.Cell}, Memory.wfAbove (some lo) l = true → Memory.get l k = 0
  | [], _ => rfl
  | (a, b) :: t, wf => by
    simp only [Memory.wfAbove, Bool.and_eq_true, decide_eq_true_eq] at wf
    rw [Memory.get, if_neg (by omega), if_pos (by omega)]
    rfl

/-- A cell that a filter keeps reads as it did. -/
theorem Memory.get_filter {p : Host.Cell → Bool} {k : Nat} (kept : ∀ b, p (k, b) = true) : ∀ {lo : Option Nat} {l : List Host.Cell},
    Memory.wfAbove lo l = true → Memory.get (l.filter p) k = Memory.get l k
  | _, [], _ => rfl
  | lo, (a, b) :: t, wf => by
    have above : Memory.wfAbove (some a) t = true := by
      simp only [Memory.wfAbove, Bool.and_eq_true] at wf
      exact wf.2
    by_cases same : a = k
    · subst same
      rw [List.filter_cons_of_pos (kept b), Memory.get, Memory.get, if_pos rfl, if_pos rfl]
    · have rest := Memory.get_filter kept above
      cases p_a : p (a, b) with
      | true => rw [List.filter_cons_of_pos p_a, Memory.get, Memory.get, rest]
      | false =>
        rw [List.filter_cons_of_neg (ne_true_of_eq_false p_a), rest, Memory.get, if_neg same]
        split
        next low => exact Memory.get_below (Nat.le_of_lt low) above
        next => rfl

theorem cellOf_div (ep pa : Nat) : cellOf ep pa / 2 ^ 52 = ep := by
  unfold cellOf
  omega

end Sys2Proof.Machine

namespace Sys2Proof
open Machine

/-- Settles O59: each platform event by what it does, with the tables that it leaves. -/
theorem platformTraceAndReset : Obligations.PlatformTraceAndReset := by
  refine ⟨?trace, ?power, ?energy, ?limits, ?errors, ?attestation, fun s m => rfl, ?reset⟩
  case trace =>
    intro s m d r
    refine ⟨rfl, fun held => ?_, fun none => ?_⟩
    · have some : (s.tqueue.any fun r => r.mod == m && r.die == d) = true := by simpa using held
      exact congrArg Host.Outcome.next (if_pos some)
    · have empty : (s.tqueue.any fun r => r.mod == m && r.die == d) = false := by simpa using none
      exact congrArg Host.Outcome.next (if_neg (ne_true_of_eq_false empty))
  case power =>
    intro s m d temp watts
    refine ⟨exec_powerEvent_none, fun e r first => ?_, fun e b => ?_, fun e rid => ⟨PowerEv.places_none, PowerEv.places_held⟩, fun f opened => ?_, fun none => ?_⟩
    · intro t
      exact ⟨fun opens => (exec_powerEvent_first first).trans (congrArg Host.Outcome.next (if_pos opens)),
        fun one three => (exec_powerEvent_first first).trans (congrArg Host.Outcome.next (if_neg (not_or.mpr ⟨one, three⟩)))⟩
    · intro plain
      have kept : ((e.ev == 1 || e.ev == 3) && bit b.ctl 1 && !bit b.ctl 2) = false := by
        rcases plain with ⟨one, three⟩ | off | on
        · simp [one, three]
        · simp [bit, off]
        · simp [bit, on]
      simp only [State.powerRecord, kept, Bool.false_eq_true, if_false]
    · change execCaptureEnd m d s = _
      rw [execCaptureEnd, opened]
    · change execCaptureEnd m d s = _
      rw [execCaptureEnd, none]
  case energy =>
    intro s m d c r nj charged
    refine ⟨fun core => ⟨_, if_neg (Nat.not_le.mpr core), rfl, rfl, ?_⟩, fun shared => ⟨_, if_pos shared, ?_⟩⟩
    · exact s.charge_charged ⟨m, d, c⟩ (if s.holdsUnit ⟨m, d, c⟩ r then r else 0xFFFF) nj
    · obtain ⟨mem, me, accs⟩ := s.chargeShared_frame m d nj
      refine ⟨mem, me, fun a here => ?_, fun a one some => s.chargeShared_one m d nj one some⟩
      rw [accs] at here
      simpa [imp_iff_not_or] using (List.mem_filter.mp here).2
  case limits =>
    intro s m d x
    refine ⟨fun low => if_neg (Nat.not_le.mpr low), fun high => if_pos high, fun none => if_pos none, fun some => if_neg (Nat.pos_iff_ne_zero.mp some), fun cool => ?_,
      fun hot => ?_, ⟨_, rfl, fun none => ?_⟩, fun u tripped => if_pos tripped⟩
    · exact (if_neg (by rw [cool]; decide)).trans rfl
    · exact (if_neg (by rw [hot]; decide)).trans rfl
    · have none : (s.updDie m d fun x => { x with tripped := true }).regionsOn m d = [] := none
      rw [none]
      rfl
  case errors =>
    intro s m d c unit pa who
    refine ⟨rfl, fun none => if_pos none, fun some held => ⟨_, if_neg (Nat.not_le.mpr some), ?_⟩, fun held => ⟨_, if_neg (by omega), ?_⟩⟩
    · obtain ⟨mem, me, others⟩ := s.poisonData_frame ⟨m, d, c⟩ unit pa who held
      refine ⟨mem, me, others, ?_, fun rdc line seen => s.poisonData_poisoned ⟨m, d, c⟩ unit pa who rdc line held seen⟩
      rw [if_neg held]
      exact congrArg CoreState.mchk ((s.poisonData ⟨m, d, c⟩ unit pa who).updCore_core ⟨m, d, c⟩ rfl)
    · subst held
      exact congrArg CoreState.mchk ((s.poisonData ⟨m, d, c⟩ 5 pa who).updCore_core ⟨m, d, c⟩ rfl)
  case attestation =>
    intro s m nonce
    exact ⟨s.report m nonce, rfl, s.report_length m nonce⟩
  case reset =>
    intro s m stop fail t
    have mem : t.mem = s.mem.filter fun c => c.1 / 2 ^ 52 != m := congrArg (List.filter fun c : Host.Cell => c.1 / 2 ^ 52 != m) (s.failover_mem m)
    refine ⟨fun low high => (if_neg (by omega)).trans (if_pos high), fun low high => (if_neg (by omega)).trans (if_neg (by omega)), fun up => if_pos up,
      fun pa => ?_, fun e pa other wf => ?_, fun r here => ?_, fun p here => ?_, fun q here => ?_, fun a here => ?_, fun home => ?_⟩
    · rw [mem]
      refine Memory.get_absent fun c here same => ?_
      have away := (List.mem_filter.mp here).2
      rw [same, cellOf_div] at away
      exact absurd rfl (bne_iff_ne.mp away)
    · rw [mem]
      exact Memory.get_filter (p := fun c => c.1 / 2 ^ 52 != m) (fun b => bne_iff_ne.mpr (by rw [cellOf_div]; exact other)) wf
    · exact bne_iff_ne.mp (List.mem_filter.mp here).2
    · simpa [imp_iff_not_or] using (List.mem_filter.mp here).2
    · exact bne_iff_ne.mp (List.mem_filter.mp here).2
    · exact bne_iff_ne.mp (List.mem_filter.mp here).2
    · have home : (s.failover m).me.loc.mod = m := by rw [s.failover_me]; exact home
      exact congrArg Agent.life (if_pos home)

end Sys2Proof
end
